-- ==== Sys2Proof/Word.lean ====
section
/-! DEFINITION. The word types of the model: nothing else. Arithmetic on them lives in Machine/. -/

namespace Sys2Proof

/-- A 64-bit register, packet word or descriptor word (R241, R250). -/
abbrev Word := BitVec 64

/-- One byte of memory. -/
abbrev Byte := BitVec 8

/-- The bits of one FP32 number (R35, FMT 9). -/
abbrev F32 := BitVec 32

end Sys2Proof
end

