-- ==== Sys2Proof/Syntax.lean ====
section
/-! DEFINITION. The commands of the block: one constructor of `Instr` per row of spec/opcode_table.json, with its operands.
A packet row names the queue whose next packet the dispatch unit takes; an event row carries what the outside world or the
physical part brings (data on a port, an error flag, a test result). -/

namespace Sys2Proof

/-- A queue: the control queue of a function, or a work queue by its instance queue number (R566, R243). -/
inductive QRef where
  | ctl (func : Nat)
  | work (num : Nat)
  deriving DecidableEq, Repr

/-- A ring of R265: the fault ring, the control reply ring, or the reply ring of a context slot. -/
inductive RingRef where
  | fault
  | control
  | context (slot : Nat)
  deriving DecidableEq, Repr

/-- What the ECC logic sees on a read: nothing, a corrected accumulator bit at logical row and column, a corrected bit of
another core array, an uncorrectable error, or an uncorrectable error of the stream engine's write buffer (R98, R191, R236, R505). -/
inductive Ecc where
  | ok
  | accFixed (row col : Nat)
  | memFixed
  | double
  | buffer
  deriving DecidableEq, Repr

/-- A side reader: feeder A's port, feeder B's port or the drain side read (R108, R129). -/
inductive Side where
  | a
  | b
  | drain
  deriving DecidableEq, Repr

/-- What an extension port returns at one sample: port, return valid, return tag, return word (R173, R176). -/
structure ExtRet where
  port : Nat
  valid : Bool
  tag : Nat
  word : BitVec 32
  deriving DecidableEq, Repr

/-- A failing cell BIST finds: a tile-memory cell of a bank, or (bank 64) another array of the site (R548, R550). -/
structure BistFail where
  panel : Nat
  site : Nat
  bank : Nat
  row : Nat
  col : Nat
  deriving DecidableEq, Repr

/-- What the check of one module in one direction records (R498): clock and valid seen; for each receiving lane the 68-bit set of
steps in which it saw ones; for each lane the bit errors of the pseudo-random stage. `cached`: the check of a cached map (R470). -/
structure ModTrain where
  link : Nat
  up : Bool
  module : Nat
  clkOk : Bool
  /-- the module's _state input at the end of training: 2 active (R525, R526) -/
  state : Nat
  steps : List Nat
  errs : List Nat
  cachedOk : Bool
  deriving DecidableEq, Repr

/-- The commands of the block (spec/opcode_table.json), one constructor per row. -/
inductive Instr where
  /-- CTX_CREATE (R355) -/
  | ctxCreate (q : QRef)
  /-- CTX_CONFIG (R290) -/
  | ctxConfig (q : QRef)
  /-- CTX_DESTROY (R358) -/
  | ctxDestroy (q : QRef)
  /-- QUEUE_CREATE (R291) -/
  | queueCreate (q : QRef)
  /-- QUEUE_DESTROY (R292) -/
  | queueDestroy (q : QRef)
  /-- GANG_CREATE (R423) -/
  | gangCreate (q : QRef)
  /-- GANG_DESTROY (R293) -/
  | gangDestroy (q : QRef)
  /-- RESUME (R232) -/
  | resume (q : QRef)
  /-- FW_LOAD (R477) -/
  | fwLoad (q : QRef)
  /-- RESET_DEVICE (R448) -/
  | resetDevice (q : QRef)
  /-- FUNC_RESET (R436) -/
  | funcReset (q : QRef)
  /-- PART_CLEAR (R440) -/
  | partClear (q : QRef)
  /-- RETIRE (R490) -/
  | retire (q : QRef)
  /-- INSERT (R491) -/
  | insert (q : QRef)
  /-- HEALTH (R488) -/
  | health (q : QRef)
  /-- SPDM (R561) -/
  | spdm (q : QRef)
  /-- COPY (R294) -/
  | copy (q : QRef)
  /-- FILL (R294) -/
  | fill (q : QRef)
  /-- ACC_CLEAR (R295) -/
  | accClear (q : QRef)
  /-- STATS (R295) -/
  | stats (q : QRef)
  /-- DESC_WRITE (R296) -/
  | descWrite (q : QRef)
  /-- MATMUL (R297) -/
  | matmul (q : QRef)
  /-- FAB_LOAD (R184) -/
  | fabLoad (q : QRef)
  /-- FAB_RUN (R186) -/
  | fabRun (q : QRef)
  /-- CHAIN (R297) -/
  | chain (q : QRef)
  /-- BAR (R260) -/
  | bar (q : QRef)
  /-- SEAM (R329) -/
  | seam (q : QRef)
  /-- TACK_WAIT (R299) -/
  | tackWait (q : QRef)
  /-- TACK_SIGNAL (R373) -/
  | tackSignal (q : QRef)
  /-- TACK_ADD (R374) -/
  | tackAdd (q : QRef)
  /-- BOBBIN_SET (R300) -/
  | bobbinSet (q : QRef)
  /-- OBJ_CREATE (R301) -/
  | objCreate (q : QRef)
  /-- OBJ_RELEASE (R368) -/
  | objRelease (q : QRef)
  /-- TACK_CREATE (R371) -/
  | tackCreate (q : QRef)
  /-- TACK_EXPORT (R379) -/
  | tackExport (q : QRef)
  /-- TACK_IMPORT (R380) -/
  | tackImport (q : QRef)
  /-- BOBBIN_CREATE (R320) -/
  | bobbinCreate (q : QRef)
  /-- SEAM_CREATE (R301) -/
  | seamCreate (q : QRef)
  /-- HEAP_SETUP (R383) -/
  | heapSetup (q : QRef)
  /-- ALLOC (R385) -/
  | alloc (q : QRef)
  /-- FREE (R386) -/
  | free (q : QRef)
  /-- XLATE_INVAL (R405) -/
  | xlateInval (q : QRef)
  /-- QUERY (R391) -/
  | query (q : QRef)
  /-- PATTERN_DEFINE (R261) -/
  | patternDefine (q : QRef)
  /-- REPLAY (R262) -/
  | replay (q : QRef)
  /-- PATCH (R303) -/
  | patch (q : QRef)
  /-- LOOP (R264) -/
  | loop (q : QRef)
  /-- ENDLOOP (R264) -/
  | endloop (q : QRef)
  /-- PRED_CMP (R304) -/
  | predCmp (q : QRef)
  /-- PRED_CLIP (R305) -/
  | predClip (q : QRef)
  /-- MARK (R306) -/
  | mark (q : QRef)
  /-- FITTING (R552) -/
  | fitting (q : QRef)
  /-- SUBMIT_GRANULE (R245) -/
  | submitGranule (func win off : Nat) (data : List Byte)
  /-- RESTART (R256) -/
  | restart (func win : Nat) (value : Word)
  /-- RESTART_FLUSH (R256) -/
  | restartFlush (func win : Nat) (value : Word)
  /-- WAIT_TACK_RESUME (R377) -/
  | waitTackResume (slot : Nat)
  /-- MULTICAST (R255) -/
  | multicast (q : QRef) (parity : Option Nat)
  /-- CORE_COMPLETION (R133) -/
  | coreCompletion (core uid : Nat)
  /-- PACKET_RETIRE (R257) -/
  | packetRetire (q : QRef)
  /-- RING_CFG_WRITE (R265) -/
  | ringCfgWrite (func : Nat) (ring : RingRef) (value : Word)
  /-- RING_HEAD_WRITE (R268) -/
  | ringHeadWrite (func : Nat) (ring : RingRef) (value : Word)
  /-- HELD_FAULT_RECORD_WRITE (R268) -/
  | heldFaultRecordWrite (func : Nat)
  /-- FAULT_RECORD_RETRY (R513) -/
  | faultRecordRetry (func : Nat)
  /-- INTERRUPT_SEND (R434) -/
  | interruptSend (func vector : Nat)
  /-- INT_CTL_WRITE (R432) -/
  | intCtlWrite (func : Nat) (value : Word)
  /-- INT_MASK_WRITE (R432) -/
  | intMaskWrite (func : Nat) (value : Word)
  /-- INT_PEND_CLEAR (R432) -/
  | intPendClear (func : Nat) (value : Word)
  /-- REGISTER_WRITE (R241) -/
  | registerWrite (func off : Nat) (value : Word)
  /-- RESET_KEY_ARM (R453) -/
  | resetKeyArm
  /-- RESET_KEY_FIRE (R453) -/
  | resetKeyFire
  /-- RESET_KEY_DISARM (R453) -/
  | resetKeyDisarm (value : Word)
  /-- RESET_KEY_TIMEOUT (R453) -/
  | resetKeyTimeout
  /-- PARTITION_ENTRY_WRITE (R424) -/
  | partitionEntryWrite (panel idx : Nat) (value : Word)
  /-- GRANT_W1_WRITE (R428) -/
  | grantW1Write (g : Nat) (value : Word)
  /-- GRANT_STORE (R428) -/
  | grantStore (g : Nat) (value : Word)
  /-- GRANT_ISSUE (R428) -/
  | grantIssue (g : Nat) (value : Word)
  /-- GRANT_KEEP_UPDATE (R428) -/
  | grantKeepUpdate (g : Nat) (value : Word)
  /-- GRANT_REVOKE (R429) -/
  | grantRevoke (g : Nat) (value : Word)
  /-- GRANT_FENCE_WIPE (R429) -/
  | grantFenceWipe (g : Nat) (value : Word)
  /-- GRANT_PURGE_DONE (R429) -/
  | grantPurgeDone (g : Nat)
  /-- GRANT_WIPE_DONE (R429) -/
  | grantWipeDone (g : Nat)
  /-- FUNCTION_ENTRY_WRITE (R431) -/
  | functionEntryWrite (f : Nat) (value : Word)
  /-- QOS_ENTRY_WRITE (R444) -/
  | qosEntryWrite (f : Nat) (value : Word)
  /-- QOS_WINDOW_START (R446) -/
  | qosWindowStart
  /-- STACK_PORT_GRANT (R445) -/
  | stackPortGrant (panel port : Nat)
  /-- APERTURE_READ (R415) -/
  | apertureRead (func addr nw : Nat)
  /-- APERTURE_WRITE (R415) -/
  | apertureWrite (func addr : Nat) (data : List Byte) (be : List Bool)
  /-- HOST_RESPONSE (R513) -/
  | hostResponse (tag : Nat) (err : Bool) (data : List Byte)
  /-- FLR_REQUEST (R516) -/
  | flrRequest (func : Nat)
  /-- HOST_REQUEST_ABANDON (R437) -/
  | hostRequestAbandon (tag : Nat)
  /-- SNOOP_REQUEST (R517) -/
  | snoopRequest (granule : Nat) (inv : Bool)
  /-- PWROK_CHANGE (R448) -/
  | pwrokChange (level : Bool) (panel : Nat := 0)
  /-- RST_N_CHANGE (R449) -/
  | rstNChange (level : Bool) (panel : Nat := 0)
  /-- HOLD_IN_CHANGE (R510) -/
  | holdInChange (panel code : Nat)
  /-- RESET_HOLD_EXPIRE (R448) -/
  | resetHoldExpire
  /-- RESET_RELEASE (R449) -/
  | resetRelease
  /-- ROOTCLK_WINDOW (R455) -/
  | rootclkWindow (edges : Nat) (panel : Nat := 0)
  /-- ROOTCLK_MISSING (R455) -/
  | rootclkMissing (panel : Nat := 0)
  /-- PWR_ALERT_ASSERT (R541) -/
  | pwrAlertAssert (panel : Nat := 0)
  /-- PWR_ALERT_DEASSERT (R541) -/
  | pwrAlertDeassert (panel : Nat := 0)
  /-- PKGPWR_SAMPLE (R539) -/
  | pkgpwrSample (watts : Nat)
  /-- POWER_WINDOW (R540) -/
  | powerWindow
  /-- HEALTH_WINDOW_END (R484) -/
  | healthWindowEnd
  /-- FATAL_RESET_TIMER (R504, R505): `none` is the end of the 10 ms; `some u` their start by a double-bit error in an array of the shared
  unit u, its place in the table of R15 -/
  | fatalResetTimer (shared : Option Nat)
  /-- STACK_READ_RESPONSE (R521) -/
  | stackReadResponse (panel port sub tag st : Nat)
  /-- STACK_WRITE_ACK (R521) -/
  | stackWriteAck (panel port sub tag st : Nat)
  /-- STACK_READY_RISE (R523) -/
  | stackReadyRise (panel port cap : Nat) (retained : Bool)
  /-- STACK_READY_FALL (R524) -/
  | stackReadyFall (panel port : Nat)
  /-- ACCUMULATE_OP (R407) -/
  | accumulateOp (panel port : Nat)
  /-- ACC_WRITEBACK (R409) -/
  | accWriteback (panel port granule : Nat)
  /-- REMAP_GRANULE_COPY (R417) -/
  | remapGranuleCopy (panel port : Nat)
  /-- PAGE_WALK_COMPLETE (R404) -/
  | pageWalkComplete (panel idx : Nat)
  /-- ADMISSION (R195) -/
  | admission (core : Nat)
  /-- COMMAND_BLOCK_READ (R282) -/
  | commandBlockRead (core : Nat)
  /-- BUNDLE_COPY (R210) -/
  | bundleCopy (core : Nat)
  /-- SWATCH_COPY (R111) -/
  | swatchCopy (core store : Nat)
  /-- BOBBIN_TAKE (R321) -/
  | bobbinTake (core : Nat)
  /-- GRANULE_ISSUE (R214) -/
  | granuleIssue (core run : Nat) (two : Bool)
  /-- WRITE_UNIT_SEND (R214) -/
  | writeUnitSend (core run : Nat) (ecc : Ecc)
  /-- READ_DATA_ARRIVAL (R220) -/
  | readDataArrival (core req : Nat)
  /-- MCAST_FREE_REPORT (R219) -/
  | mcastFreeReport (member run issuer : Nat)
  /-- STALL_WATCHDOG (R238) -/
  | stallWatchdog (core : Nat)
  /-- WATCHDOG_ABORT (R238) -/
  | watchdogAbort (core source : Nat)
  /-- SIDE_PORT_READ (R110) -/
  | sidePortRead (core : Nat) (side : Side) (ecc : Ecc := .ok)
  /-- ACC_LOAD (R121) -/
  | accLoad (core : Nat) (ecc : Ecc := .ok)
  /-- BEAT_ISSUE (R113) -/
  | beatIssue (core : Nat) (ecc : Ecc)
  /-- DRAIN_ROW_READ (R127) -/
  | drainRowRead (core : Nat) (ecc : Ecc)
  /-- KERNEL_RUN_START (R187) -/
  | kernelRunStart (core : Nat)
  /-- FABRIC_TICK (R171) -/
  | fabricTick (core : Nat) (rets : List ExtRet) (ecc : Ecc := .ok)
  /-- KERNEL_RUN_END (R187) -/
  | kernelRunEnd (core : Nat)
  /-- FAB_LOAD_COMPLETE (R184) -/
  | fabLoadComplete (core : Nat)
  /-- SEAM_START (R299) -/
  | seamStart (core : Nat)
  /-- SEAM_RELEASE (R329) -/
  | seamRelease (slot : Nat)
  /-- PARTITION_EPISODE_COMPLETE (R331) -/
  | partitionEpisodeComplete (slot : Nat)
  /-- FLIT_RECEIVE (R530): the 2,176 bits of the module's _rxd, bit 32 × lane + u (R525) -/
  | flitReceive (link : Nat) (up : Bool) (module : Nat) (rxd : BitVec 2176)
  /-- LANE_REPAIR (R502) -/
  | laneRepair (link : Nat) (up : Bool) (module : Nat) (clkStopped : Bool)
  /-- LANE_REPAIR_DONE (R502) -/
  | laneRepairDone (link : Nat) (up : Bool)
  /-- OPTION_LOAD (R461): the nibbles sampled on k3_opt_dat in the read of each copy, from cycle 32 on (R457) -/
  | optionLoad (copyA copyB : List (BitVec 4))
  /-- OPT_RDY_TIMEOUT (R458) -/
  | optRdyTimeout
  /-- LOGIC_BIST (R468) -/
  | logicBist
  /-- SRAM_BIST (R548) -/
  | sramBist (fails : List BistFail) (shared : List Nat)
  /-- STACK_TRAINING_TIMEOUT (R472) -/
  | stackTrainingTimeout
  /-- STACK_WIPE (R468) -/
  | stackWipe
  /-- LINK_TRAINING (R498) -/
  | linkTraining (results : List ModTrain)
  /-- BOOT_IMAGE_VERIFY (R474): the nibbles sampled in the reads of the MC image, of the rest of the boot area that follows them, of both copies of the
  service record and of the certificate chain (R457) -/
  | bootImageVerify (mc uc svcA svcB cert : List (BitVec 4))
  /-- MICROCODE_PAGE_FETCH (R476): the page as the site receives it -/
  | microcodePageFetch (panel site page : Nat) (got : List Byte)
  /-- QUIESCE_REFETCH (R478) -/
  | quiesceRefetch (failed : List Nat)
  /-- FW_QUIESCE_TIMEOUT (R478) -/
  | fwQuiesceTimeout
  /-- FITTING_EDGE (R553) -/
  | fittingEdge (core : Nat)
  /-- TEST_CAPTURE (R543) -/
  | testCapture (panel sel : Nat) (pins : List Bool)
  /-- TEST_SHIFT (R543) -/
  | testShift (panel sel : Nat) (si : Bool)
  /-- TEST_UPDATE (R543) -/
  | testUpdate (panel sel : Nat)
  /-- TEST_RESET (R543) -/
  | testReset (panel : Nat) (trstLow : Bool)
  /-- TEST_MODE_CHANGE (R545) -/
  | testModeChange (panel : Nat) (mode : Bool)
  /-- BACKUP_SUPPLY_FAILURE (R538) -/
  | backupSupplyFailure
  /-- TARGET_CHANNEL_READY (R454) -/
  | targetChannelReady
  /-- PARTITION_CLEAR_DONE (R440) -/
  | partitionClearDone (panel part : Nat)
  deriving DecidableEq, Repr

end Sys2Proof
end

