-- ==== Sys2Proof/Decode.lean ====
section
/-! DEFINITION. The command that a table word spells. The rows of the block's table carry no bits, so no word spells a command. -/

namespace Sys2Proof

/-- The command of a word numbered as the opcode table numbers bits: none, because no row gives bits. -/
def decodeTableWord (_nbits _w : Nat) : Option Instr := none

end Sys2Proof
end

