-- ==== Sys2Proof/Config.lean ====
section
/-! DEFINITION. What an instance fixes at synthesis (R2), and the free values the manual leaves open. -/

namespace Sys2Proof

/-- The build parameters of R2. No command changes them. TILE_MEM is in MiB. -/
structure Params where
  panels : Nat
  rows : Nat
  opuDim : Nat
  fabricRows : Nat
  tileMem : Nat
  stackPorts : Nat
  hostCoupled : Bool
  extPorts : Nat
  deriving DecidableEq, Repr

namespace Params

/-- The legal values of R2 together with R3, R4 and R507. -/
def legal (p : Params) : Bool :=
  (p.panels == 1 || p.panels == 2 || p.panels == 4) &&
  decide (3 ≤ p.rows) && decide (p.rows ≤ 12) &&
  (p.opuDim == 32 || p.opuDim == 64) &&
  (p.fabricRows == 8 || p.fabricRows == 16) &&
  (p.tileMem == 1 || p.tileMem == 2 || p.tileMem == 4) &&
  decide (p.stackPorts ≤ 10) &&
  (p.extPorts == 0 || p.extPorts == 4 || p.extPorts == 8) &&
  (p.panels != 4 || p.rows == 12) &&
  (!p.hostCoupled || p.panels == 1) &&
  (p.stackPorts != 0 || p.hostCoupled)

/-- Core sites per panel (R5). -/
def sites (p : Params) : Nat := 12 * p.rows

/-- Spare sites per panel (R5). -/
def spares (p : Params) : Nat := if p.panels = 4 then 2 * p.rows else p.rows + 4

/-- Active cores per panel (R5). -/
def activePerPanel (p : Params) : Nat := p.sites - p.spares

/-- The denominator of the reserve fraction of R6. -/
def reserveDen (p : Params) : Nat := if p.panels = 4 then 32 else 64

/-- Bytes per tile-memory bank (R188). -/
def bankBytes (p : Params) : Nat := p.tileMem * 1048576 / 64

/-- Banks per feeder group, G of R102. -/
def groupBanks (p : Params) : Nat := p.opuDim / 4

/-- Number of panel links (R14). -/
def links (p : Params) : Nat := if p.panels = 4 then 4 else if p.panels = 2 then 1 else 0

/-- K3-256/20, the reference configuration (R8). -/
def k3_256_20 : Params := ⟨2, 12, 64, 16, 2, 10, false, 8⟩

/-- K3-480/40 (R8). -/
def k3_480_40 : Params := ⟨4, 12, 64, 16, 2, 10, false, 8⟩

/-- K3-29/H (R8). -/
def k3_29_H : Params := ⟨1, 3, 64, 16, 2, 0, true, 8⟩

end Params

namespace Config

/-- FREE VALUE. The 16-bit random draws of stochastic rounding (R71, R88); argument: the draw counter. -/
opaque random16 : Nat → BitVec 16

/-- FREE VALUE. A 32-bit result the manual bounds but does not fix (R84, R86); arguments: the counter and the operand. -/
opaque freeWord32 : Nat → BitVec 32 → BitVec 32

/-- FREE VALUE. The result of an approximated operation, bounded but not fixed by R84; a function of its operand, since R90 makes it the
same on every run. Arguments: opcode and operand. -/
opaque approxResult : Nat → BitVec 32 → BitVec 32

/-- FREE VALUE. The result of a table interpolation, bounded but not fixed by R86; arguments: input and the two breakpoints. -/
opaque tableResult : BitVec 32 → BitVec 32 → BitVec 32 → BitVec 32

/-- FREE VALUE. A 64-bit value the manual leaves open (an unspecified level, an indeterminate element). -/
opaque freeWord64 : Nat → BitVec 64

/-- FREE VALUE. A choice among `n` things the manual leaves open (a cache victim, a draining order). -/
opaque freeNat : Nat → Nat

/-- FREE VALUE. The MC's check of an image signature under the key in its ROM, which the manual does not print (R474). -/
opaque signatureOk : List Byte → Bool

/-- FREE VALUE. The SPDM 1.3 response bytes of the responder (R560): the protocol is another standard and the key is secret. Arguments: the
function, the draw counter (which stands for the function's connection state), the request, the measurements, the identity and slot 0. -/
opaque spdmResponse : Nat → Nat → List Byte → List (List Byte) → List Byte → List Byte

/-- FREE VALUE. The MC's ROM, whose digest is measurement 1 (R562): the manual does not print it. -/
opaque mcRom : List Byte

/-- FREE VALUE. The digest function SHA-384 as the MC computes it (R473): another standard, named and not restated. -/
opaque sha384 : List Byte → List Byte

/-- FREE VALUE. The carry-out of an `ADDC` or `SUBC` with an empty operand, which the manual does not state; a function of the operation and its
operands, since R89 and R90 leave no other source of variation. Arguments: opcode, operand words, carry-in. -/
opaque emptyCarry : Nat → List Nat → Bool → Bool

/-- FREE VALUE. The zero point, selector or row scale (code 0, 1, 2) of a fabric port's position, for which the manual gives no place; a function
of the command, the port and the position (R89, R90). Arguments: code, command body, port, position. -/
opaque portItem : Nat → List (BitVec 64) → Nat → Nat → Nat

/-- Build value of RTL_MAJOR (R242: "this manual fixes no value"). -/
opaque rtlMajor : BitVec 8

/-- Build value of RTL_MINOR (R242). -/
opaque rtlMinor : BitVec 8

end Config

end Sys2Proof
end

