-- ==== Sys2Proof/Machine/Bits.lean ====
section
/-! DEFINITION. Bit fields, sign extension, byte order, sparse tables and CRC-32: the small helpers every layout uses. -/

namespace Sys2Proof.Machine

/-- Bits `[hi:lo]` of a 64-bit word, as a number. -/
def fld (w : Word) (hi lo : Nat) : Nat :=
  (w.toNat >>> lo) % 2 ^ (hi + 1 - lo)

/-- Bit `i` of a 64-bit word. -/
def bitOf (w : Word) (i : Nat) : Bool := w.getLsbD i

/-- A field value placed at bit `lo`. -/
def place (v lo : Nat) : Word := BitVec.ofNat 64 (v <<< lo)

/-- One bit placed at bit `i`. -/
def placeB (b : Bool) (i : Nat) : Word := if b then place 1 i else 0

/-- `w` with bits `[hi:lo]` replaced by `v`. -/
def setFld (w : Word) (hi lo v : Nat) : Word :=
  let m := BitVec.ofNat 64 ((2 ^ (hi + 1 - lo) - 1) <<< lo)
  (w &&& ~~~m) ||| (BitVec.ofNat 64 (v <<< lo) &&& m)

/-- The low `n` bits of `v` read as two's complement. -/
def sext (n v : Nat) : Int :=
  let w := v % 2 ^ n
  if 2 * w < 2 ^ n then Int.ofNat w else Int.ofNat w - Int.ofNat (2 ^ n)

/-- An integer modulo 2^n. -/
def wrapInt (n : Nat) (x : Int) : Nat := (x % Int.ofNat (2 ^ n)).toNat

/-- The value of a difference read as a signed 64-bit integer (R372, R373). -/
def signedDiff (a b : Word) : Int := (a - b).toInt

/-- Ceiling of a / b. -/
def ceilDiv (a b : Nat) : Nat := (a + b - 1) / b

/-- The number of low-order little-endian bytes of `v`. -/
def leBytes : Nat → Nat → List Byte
  | 0, _ => []
  | n + 1, v => BitVec.ofNat 8 v :: leBytes n (v / 256)

/-- The number that little-endian bytes spell. -/
def leNat : List Byte → Nat
  | [] => 0
  | b :: bs => b.toNat + 256 * leNat bs

/-- Words to bytes, each little-endian (R250, R269, R271). -/
def wordsToBytes : List Word → List Byte
  | [] => []
  | w :: ws => leBytes 8 w.toNat ++ wordsToBytes ws

/-- Bytes to words, each little-endian; a ragged end is padded with zero bytes. `n` words are read. -/
def bytesToWords : Nat → List Byte → List Word
  | 0, _ => []
  | n + 1, bs => BitVec.ofNat 64 (leNat (bs.take 8)) :: bytesToWords n (bs.drop 8)

/-- The word at index `i`, or 0 past the end. -/
def wordAt (ws : List Word) (i : Nat) : Word := ws.getD i 0

/-- The byte at index `i`, or 0 past the end. -/
def byteAt (bs : List Byte) (i : Nat) : Byte := bs.getD i 0

/-- Every byte of the list is zero. -/
def allZero (bs : List Byte) : Bool := bs.all (· == 0)

/-- Is `a` a multiple of `n`. -/
def aligned (n a : Nat) : Bool := a % n == 0

/-- The ranges [a, a+n) and [b, b+m) share an element. -/
def overlaps (a n b m : Nat) : Bool := decide (a < b + m) && decide (b < a + n) && decide (0 < n) && decide (0 < m)

/-! ## Sparse tables: association lists kept sorted by key -/

/-- The entry of key `k`, or the default. -/
def Tbl.get {α : Type} (d : α) (k : Nat) : List (Nat × α) → α
  | [] => d
  | (k', v) :: t => if k' = k then v else Tbl.get d k t

/-- The table with the entry of key `k` set, kept in key order. -/
def Tbl.set {α : Type} (k : Nat) (v : α) : List (Nat × α) → List (Nat × α)
  | [] => [(k, v)]
  | (k', v') :: t => if k = k' then (k, v) :: t else if k < k' then (k, v) :: (k', v') :: t else (k', v') :: Tbl.set k v t

/-- The table without key `k`. -/
def Tbl.del {α : Type} (k : Nat) (t : List (Nat × α)) : List (Nat × α) := t.filter (fun e => e.1 != k)

/-- The keys whose entry satisfies `p`, in key order. -/
def Tbl.keys {α : Type} (p : α → Bool) (t : List (Nat × α)) : List Nat := (t.filter (fun e => p e.2)).map (·.1)

/-- Every entry rewritten. -/
def Tbl.mapv {α : Type} (f : α → α) (t : List (Nat × α)) : List (Nat × α) := t.map (fun e => (e.1, f e.2))

/-- The lowest number below `n` that satisfies `p`. -/
def lowest (n : Nat) (p : Nat → Bool) : Option Nat := (List.range n).find? p

/-- List update at an index. -/
def updAt {α : Type} (f : α → α) : Nat → List α → List α
  | _, [] => []
  | 0, a :: l => f a :: l
  | n + 1, a :: l => a :: updAt f n l

/-- Saturating addition to a counter of `w` bits. -/
def satAdd (w a b : Nat) : Nat := min (a + b) (2 ^ w - 1)

/-! ## CRC-32 of IEEE 802.3 (R459): reflected, initial value and final XOR all ones -/

/-- One bit of the reflected CRC-32 (polynomial 0x04C1_1DB7 reflected is 0xEDB8_8320). -/
def crcBit (c : BitVec 32) : BitVec 32 :=
  if c.getLsbD 0 then (c >>> 1) ^^^ 0xEDB88320#32 else c >>> 1

/-- One byte of the reflected CRC-32. -/
def crcByte (c : BitVec 32) (b : Byte) : BitVec 32 :=
  crcBit (crcBit (crcBit (crcBit (crcBit (crcBit (crcBit (crcBit (c ^^^ b.setWidth 32))))))))

/-- CRC-32 of a byte string (R459). -/
def crc32 (bs : List Byte) : BitVec 32 := (bs.foldl crcByte 0xFFFFFFFF#32) ^^^ 0xFFFFFFFF#32

/-- One bit of CRC-64 with polynomial 0x42F0_E1EB_A9EA_3693, most significant bit first (R527). -/
def crc64Bit (c : Word) : Word :=
  if c.getLsbD 63 then (c <<< 1) ^^^ 0x42F0E1EBA9EA3693#64 else c <<< 1

/-- CRC-64 over bytes, initial value and final XOR all ones (R527). -/
def crc64 (bs : List Byte) : Word :=
  (bs.foldl (fun c b => (List.range 8).foldl (fun c _ => crc64Bit c) (c ^^^ ((BitVec.setWidth 64 b) <<< (56 : Nat)))) (BitVec.allOnes 64))
    ^^^ BitVec.allOnes 64

end Sys2Proof.Machine
end

