-- ==== Sys2Proof/Machine/Float.lean ====
section
/-! DEFINITION. Exact values of the floating-point formats and their single rounding (R35, R40, R41, R43, R66 to R71):
decoding to an exact value, rounding an exact magnitude to a target, and FP32 arithmetic with one RNE rounding. -/

namespace Sys2Proof.Machine

/-- What a format does at the top of its exponent range (R35). -/
inductive Special where
  /-- exponent all ones encodes infinity and NaN -/
  | ieee
  /-- E4M3: no infinity, NaN only at S.1111.111 -/
  | nanOnly
  /-- no infinity and no NaN (E2M1, E3M2) -/
  | finiteOnly
  deriving DecidableEq, Repr

/-- A binary floating-point format: exponent bits, mantissa bits, bias (R35, R37, R38). -/
structure FFmt where
  eb : Nat
  mb : Nat
  bias : Nat
  special : Special
  deriving DecidableEq, Repr

namespace FFmt
def bf16 : FFmt := ⟨8, 7, 127, .ieee⟩
def fp16 : FFmt := ⟨5, 10, 15, .ieee⟩
def e4m3 : FFmt := ⟨4, 3, 7, .nanOnly⟩
def e5m2 : FFmt := ⟨5, 2, 15, .ieee⟩
def fp4 : FFmt := ⟨2, 1, 1, .finiteOnly⟩
def e3m2 : FFmt := ⟨3, 2, 3, .finiteOnly⟩
def fp32 : FFmt := ⟨8, 23, 127, .ieee⟩

/-- Width in bits, sign included. -/
def width (f : FFmt) : Nat := 1 + f.eb + f.mb

/-- The magnitude code of the largest finite value (R35). -/
def maxCode (f : FFmt) : Nat :=
  match f.special with
  | .ieee => (2 ^ f.eb - 1) * 2 ^ f.mb - 1
  | .nanOnly => 2 ^ (f.eb + f.mb) - 2
  | .finiteOnly => 2 ^ (f.eb + f.mb) - 1

/-- The magnitude code of infinity, for formats that have one. -/
def infCode (f : FFmt) : Nat := (2 ^ f.eb - 1) * 2 ^ f.mb

/-- The canonical NaN of R41 (sign 0). -/
def nanCode (f : FFmt) : Nat :=
  match f.special with
  | .ieee => f.infCode + 2 ^ (f.mb - 1)
  | .nanOnly => 2 ^ (f.eb + f.mb) - 1
  | .finiteOnly => 0
end FFmt

/-- An exact value: a NaN, a signed infinity, or the signed dyadic number m × 2^e. -/
inductive FVal where
  | nan
  | inf (neg : Bool)
  | fin (neg : Bool) (m : Nat) (e : Int)
  deriving DecidableEq, Repr

/-- The exact value of a code (R35, R40: subnormals are kept). -/
def decodeF (f : FFmt) (code : Nat) : FVal :=
  let neg := code.testBit (f.eb + f.mb)
  let mag := code % 2 ^ (f.eb + f.mb)
  let ex := mag / 2 ^ f.mb
  let man := mag % 2 ^ f.mb
  if f.special = .ieee ∧ ex = 2 ^ f.eb - 1 then (if man = 0 then .inf neg else .nan)
  else if f.special = .nanOnly ∧ mag = 2 ^ (f.eb + f.mb) - 1 then .nan
  else if ex = 0 then .fin neg man (1 - (f.bias : Int) - f.mb)
  else .fin neg (man + 2 ^ f.mb) ((ex : Int) - f.bias - f.mb)

/-- The rounding modes of R71; SR carries its 16-bit draw. -/
inductive Rnd where
  | rne
  | rz
  | sr (draw : BitVec 16)
  deriving DecidableEq, Repr

/-- Rounding t + rem/den, with 0 ≤ rem < den, to an integer (R71). -/
def roundStep (r : Rnd) (t rem den : Nat) : Nat :=
  match r with
  | .rne => if 2 * rem > den then t + 1 else if 2 * rem = den then t + t % 2 else t
  | .rz => t
  | .sr d => if rem * 65536 / den + d.toNat ≥ 65536 then t + 1 else t

/-- ⌊log₂(num/den)⌋ for num > 0. -/
def ilog2 (num den : Nat) : Int :=
  let l : Int := (Nat.log2 num : Int) - Nat.log2 den
  let below := if 0 ≤ l then decide (num < den * 2 ^ l.toNat) else decide (num * 2 ^ (-l).toNat < den)
  if below then l - 1 else l

/-- The magnitude code of num/den rounded to format `f` as though its exponent range were unbounded above (R68 step 1). -/
def roundMag (f : FFmt) (r : Rnd) (num den : Nat) : Nat :=
  if num = 0 then 0 else
  let emin : Int := 1 - (f.bias : Int) - f.mb
  let q := max (ilog2 num den - f.mb) emin
  let n := if 0 ≤ q then num else num * 2 ^ (-q).toNat
  let d := if 0 ≤ q then den * 2 ^ q.toNat else den
  (q - emin).toNat * 2 ^ f.mb + roundStep r (n / d) (n % d) d

/-- A magnitude code with its sign. -/
def signed (f : FFmt) (neg : Bool) (mag : Nat) : Nat := if neg then 2 ^ (f.eb + f.mb) + mag else mag

/-- The outcome of a conversion: the code and whether it was an overflow event (R68 to R70). -/
structure Conv where
  code : Nat
  ovf : Bool
  deriving DecidableEq, Repr

/-- A dyadic magnitude as a fraction. -/
def dyNum (m : Nat) (e : Int) : Nat := if 0 ≤ e then m * 2 ^ e.toNat else m
/-- The denominator that goes with `dyNum`. -/
def dyDen (e : Int) : Nat := if 0 ≤ e then 1 else 2 ^ (-e).toNat

/-- The code that an overflowing finite value takes (R68's table). -/
def overflowCode (f : FFmt) (sat : Bool) (r : Rnd) (neg : Bool) : Nat :=
  match f.special with
  | .finiteOnly => signed f neg f.maxCode
  | .nanOnly => if sat || r == .rz then signed f neg f.maxCode else f.nanCode
  | .ieee => if sat || r == .rz then signed f neg f.maxCode else signed f neg f.infCode

/-- Narrowing (or exact widening) of an exact value given as a sign and a fraction to a floating-point format (R68). -/
def narrowFin (f : FFmt) (sat : Bool) (r : Rnd) (neg : Bool) (num den : Nat) : Conv :=
  let c := roundMag f r num den
  if c > f.maxCode then ⟨overflowCode f sat r neg, true⟩ else ⟨signed f neg c, false⟩

/-- Conversion of any value to a floating-point format (R66, R68, R69). A conversion to FP32 is never an overflow event, and SAT leaves its
infinities alone: R69 names narrow targets only. -/
def narrowF (f : FFmt) (sat : Bool) (r : Rnd) (v : FVal) : Conv :=
  let c : Conv := match v with
    | .fin neg m e => narrowFin f sat r neg (dyNum m e) (dyDen e)
    | .inf neg =>
      match f.special with
      | .ieee => ⟨signed f neg (if sat && decide (f ≠ FFmt.fp32) then f.maxCode else f.infCode), true⟩
      | .nanOnly => ⟨if sat then signed f neg f.maxCode else f.nanCode, true⟩
      | .finiteOnly => ⟨signed f neg f.maxCode, true⟩
    | .nan => if f.special = .finiteOnly then ⟨0, true⟩ else ⟨f.nanCode, false⟩
  if f = FFmt.fp32 then ⟨c.code, false⟩ else c

/-! ## FP32 arithmetic with one rounding (R83, R115), infinities and NaN as IEEE 754 (R41, R61) -/

/-- The canonical NaN of FP32 (R41). -/
def f32NaN : F32 := 0x7FC00000#32
def f32One : F32 := 0x3F800000#32
def f32Zero : F32 := 0#32

/-- The exact value of an FP32 code. -/
def f32Val (a : F32) : FVal := decodeF .fp32 a.toNat

/-- An exact value rounded to FP32 with RNE; overflow gives infinity, NaN the canonical NaN. -/
def f32OfVal (v : FVal) : F32 :=
  match v with
  | .nan => f32NaN
  | .inf neg => BitVec.ofNat 32 (signed .fp32 neg FFmt.fp32.infCode)
  | .fin neg m e => BitVec.ofNat 32 (narrowFin .fp32 false .rne neg (dyNum m e) (dyDen e)).code

/-- A signed fraction rounded to FP32 under a rounding mode. -/
def f32OfRat (r : Rnd) (neg : Bool) (num den : Nat) : F32 :=
  BitVec.ofNat 32 (narrowFin .fp32 false r neg num den).code

def isNaN (a : F32) : Bool := f32Val a == .nan
def isInf (a : F32) : Bool := match f32Val a with | .inf _ => true | _ => false
def signOf (a : F32) : Bool := a.getLsbD 31

/-- Exact negation of a value. -/
def FVal.neg : FVal → FVal
  | .nan => .nan
  | .inf s => .inf (!s)
  | .fin s m e => .fin (!s) m e

/-- Exact product; an infinity times zero is NaN (R61). -/
def FVal.mul : FVal → FVal → FVal
  | .nan, _ => .nan
  | _, .nan => .nan
  | .inf s, .inf t => .inf (s != t)
  | .inf s, .fin t m _ => if m = 0 then .nan else .inf (s != t)
  | .fin s m _, .inf t => if m = 0 then .nan else .inf (s != t)
  | .fin s m e, .fin t n d => .fin (s != t) (m * n) (e + d)

/-- Signed integer of a sign and a magnitude. -/
def sgn (neg : Bool) (m : Nat) : Int := if neg then -(m : Int) else m

/-- Exact sum; an exact zero sum is +0 unless both addends are −0 (R43). -/
def FVal.add : FVal → FVal → FVal
  | .nan, _ => .nan
  | _, .nan => .nan
  | .inf s, .inf t => if s = t then .inf s else .nan
  | .inf s, .fin _ _ _ => .inf s
  | .fin _ _ _, .inf t => .inf t
  | .fin s m e, .fin t n d =>
    let k := min e d
    let x := sgn s (m * 2 ^ (e - k).toNat) + sgn t (n * 2 ^ (d - k).toNat)
    if x = 0 then .fin (decide (m = 0) && decide (n = 0) && s && t) 0 k
    else .fin (decide (x < 0)) x.natAbs k

def fadd (a b : F32) : F32 := f32OfVal (FVal.add (f32Val a) (f32Val b))
def fneg (a : F32) : F32 := if isNaN a then f32NaN else a ^^^ 0x80000000#32
def fsub (a b : F32) : F32 := f32OfVal (FVal.add (f32Val a) (FVal.neg (f32Val b)))
def fmul (a b : F32) : F32 := f32OfVal (FVal.mul (f32Val a) (f32Val b))
/-- a × b + c with one rounding (R83). -/
def ffma (a b c : F32) : F32 := f32OfVal (FVal.add (FVal.mul (f32Val a) (f32Val b)) (f32Val c))
/-- −(a × b) + c with one rounding. -/
def ffnma (a b c : F32) : F32 := f32OfVal (FVal.add (FVal.neg (FVal.mul (f32Val a) (f32Val b))) (f32Val c))

/-- x / s rounded once with RNE (R63, SMODE 3); special values as IEEE 754. -/
def fdiv (a b : F32) : F32 :=
  match f32Val a, f32Val b with
  | .nan, _ => f32NaN
  | _, .nan => f32NaN
  | .inf _, .inf _ => f32NaN
  | .inf s, .fin t _ _ => f32OfVal (.inf (s != t))
  | .fin s _ _, .inf t => f32OfVal (.fin (s != t) 0 0)
  | .fin s m e, .fin t n d =>
    if n = 0 then (if m = 0 then f32NaN else f32OfVal (.inf (s != t)))
    else
      let k := e - d
      f32OfRat .rne (s != t) (if 0 ≤ k then m * 2 ^ k.toNat else m) (if 0 ≤ k then n else n * 2 ^ (-k).toNat)

/-- x × 2^k, exact until the rounding to FP32 (used with an exact result by R64, R80). -/
def FVal.scale2 (k : Int) : FVal → FVal
  | .fin s m e => .fin s m (e + k)
  | v => v

/-- Absolute value of an FP32 code; NaN becomes the canonical NaN (R148). -/
def fabs (a : F32) : F32 := if isNaN a then f32NaN else a &&& 0x7FFFFFFF#32

/-- Order of two exact values, −0 equal to +0; none when either is NaN. -/
def FVal.cmp : FVal → FVal → Option Ordering
  | .nan, _ => none
  | _, .nan => none
  | .inf s, .inf t => some (if s = t then .eq else if s then .lt else .gt)
  | .inf s, .fin _ _ _ => some (if s then .lt else .gt)
  | .fin _ _ _, .inf t => some (if t then .gt else .lt)
  | .fin s m e, .fin t n d =>
    let k := min e d
    some (compare (sgn s (m * 2 ^ (e - k).toNat)) (sgn t (n * 2 ^ (d - k).toNat)))

/-- Is x ≤ y as exact values. -/
def FVal.le (x y : FVal) : Bool :=
  match FVal.cmp x y with
  | some .gt => false
  | some _ => true
  | none => false

/-- The larger of two magnitudes held as FP32, with R92's rule for amax: NaN wins, then infinity. -/
def amaxOf (a b : F32) : F32 :=
  if isNaN a || isNaN b then f32NaN
  else if FVal.le (f32Val (fabs a)) (f32Val (fabs b)) then fabs b else fabs a

/-- ⌊log₂|x|⌋ of a finite non-zero FP32, the true exponent for subnormals (R92). -/
def fexp (a : F32) : Option Int :=
  match f32Val a with
  | .fin _ m e => if m = 0 then none else some (ilog2 (dyNum m e) (dyDen e))
  | _ => none

end Sys2Proof.Machine
end

