-- ==== Sys2Proof/Machine/Format.lean ====
section
/-! DEFINITION. Element formats, format descriptors, zero points, swatches, scales, output conversion and statistics
(chapters "Number formats, scales and codebooks" and "Numerical behaviour and error bounds"). -/

namespace Sys2Proof.Machine

/-- The element formats of R35. -/
inductive Fmt where
  | bf16 | fp16 | e4m3 | e5m2 | int8 | uint8 | cb8 | cb4 | fp4 | fp32
  deriving DecidableEq, Repr

namespace Fmt
/-- FMT codes of R35; 10 to 15 are reserved (R36). -/
def ofCode : Nat → Option Fmt
  | 0 => some .bf16 | 1 => some .fp16 | 2 => some .e4m3 | 3 => some .e5m2 | 4 => some .int8
  | 5 => some .uint8 | 6 => some .cb8 | 7 => some .cb4 | 8 => some .fp4 | 9 => some .fp32 | _ => none

/-- Element width in bits (R35). -/
def bits : Fmt → Nat
  | .bf16 | .fp16 => 16
  | .e4m3 | .e5m2 | .int8 | .uint8 | .cb8 => 8
  | .cb4 | .fp4 => 4
  | .fp32 => 32

/-- The floating-point layout of a format that has one. -/
def ffmt : Fmt → Option FFmt
  | .bf16 => some .bf16 | .fp16 => some .fp16 | .e4m3 => some .e4m3 | .e5m2 => some .e5m2
  | .fp4 => some .fp4 | .fp32 => some .fp32 | _ => none

def isInt : Fmt → Bool
  | .int8 | .uint8 => true
  | _ => false

def isCodebook : Fmt → Bool
  | .cb8 | .cb4 => true
  | _ => false
end Fmt

/-- A format descriptor of R44, field by field. -/
structure FDesc where
  zp : Nat
  zprow : Bool
  swrow : Bool
  swsel : Nat
  rnd : Nat
  sat : Bool
  smode : Nat
  res : Nat
  fmtCode : Nat
  deriving DecidableEq, Repr

/-- The fields of a 32-bit descriptor (R44). -/
def FDesc.ofNat (w : Nat) : FDesc :=
  { zp := w / 2 ^ 24 % 256, zprow := w.testBit 23, swrow := w.testBit 22, swsel := w / 2 ^ 18 % 16,
    rnd := w / 2 ^ 16 % 4, sat := w.testBit 15, smode := w / 2 ^ 12 % 8, res := w / 16 % 256, fmtCode := w % 16 }

/-- What a descriptor feeds (R72). -/
inductive FUnit where
  | feeder | drain | fabricIn | fabricOut | statsTarget | statsSource
  deriving DecidableEq, Repr

/-- Is the descriptor an operand descriptor for this unit (R45) rather than an output descriptor (R63). -/
def FUnit.operand : FUnit → Bool
  | .feeder | .fabricIn | .statsSource => true
  | _ => false

/-- The formats of R72, by unit. DESIGN CHOICE (log entry 76): R72 has no row for `STATS`; its two descriptors take what the drain writes. -/
def unitFmt (u : FUnit) (f : Fmt) : Bool :=
  match u with
  | .feeder => f != .fp32
  | .drain => f != .cb8 && f != .cb4
  | .fabricIn | .fabricOut => true
  | .statsTarget => f != .cb8 && f != .cb4
  | .statsSource => f != .cb8 && f != .cb4

/-- The scale modes of R45, R63 and R72, by unit. DESIGN CHOICE (log entry 76): a descriptor of a `STATS` has SMODE 0. -/
def unitSmode (u : FUnit) (f : Fmt) (m : Nat) : Bool :=
  match u with
  | .feeder | .fabricIn => decide (m ≤ 3)
  | .statsSource | .statsTarget => decide (m = 0)
  | .drain | .fabricOut => m == 0 || m == 3 || (m == 1 && (f == .e4m3 || f == .e5m2 || f == .fp4))

/-- The checks of R36, R46 and R72 on one descriptor. -/
def FDesc.ok (u : FUnit) (d : FDesc) : Bool :=
  match Fmt.ofCode d.fmtCode with
  | none => false
  | some f =>
    d.res == 0 && d.rnd != 3 && unitFmt u f && unitSmode u f d.smode &&
    (f.isInt || (d.zp == 0 && !d.zprow)) &&
    (!d.zprow || d.zp == 0) &&
    (!d.swrow || d.swsel == 0) &&
    (f == .cb4 || (!d.swrow && d.swsel == 0)) &&
    (!u.operand || (d.rnd == 0 && !d.sat))

/-- The element format of a descriptor; FMT 0 stands for a reserved code, which `ok` refuses. -/
def FDesc.fmt (d : FDesc) : Fmt := (Fmt.ofCode d.fmtCode).getD .bf16

/-- R73: integer formats pair only with integer formats. -/
def pairOk (a b : FDesc) : Bool := a.fmt.isInt == b.fmt.isInt

/-- Consecutive K indices per beat, from the wider operand (R99). -/
def spcOf (a b : Fmt) : Nat :=
  let w := max a.bits b.bits
  if w ≥ 16 then 1 else if w = 8 then 2 else 4

/-! ## Decoding (R47, R50 to R54, R66) -/

/-- A small integer as FP32, exactly. -/
def f32OfInt (x : Int) : F32 := f32OfVal (.fin (decide (x < 0)) x.natAbs 0)

/-- The stored code of an 8-bit integer format as a number, in the format's signedness. -/
def intCode (f : Fmt) (c : Nat) : Int := if f = .int8 then sext 8 c else (c % 256 : Nat)

/-- q − zp as an exact integer (R47). -/
def intOperand (f : Fmt) (code zp : Nat) : Int := intCode f code - intCode f zp

/-- Entry of a CB4 swatch table: swatch `s`, index `i`, as FP32 (R37, R50, R51). -/
def cb4Entry (store : List Byte) (s i : Nat) : F32 :=
  f32OfVal (decodeF .e3m2 ((byteAt store (16 * (s % 16) + i % 16)).toNat % 64))

/-- Entry of a CB8 swatch as FP32 (R50); an E4M3 NaN entry gives NaN (R54). -/
def cb8Entry (store : List Byte) (i : Nat) : F32 :=
  f32OfVal (decodeF .e4m3 (byteAt store (i % 256)).toNat)

/-- The exact value of a valid element as FP32: zero point subtracted, swatch looked up (R47, R54, R66, R107). -/
def decodeElem (f : Fmt) (store : List Byte) (code zp sel : Nat) : F32 :=
  match f with
  | .int8 | .uint8 => f32OfInt (intOperand f code zp)
  | .cb8 => cb8Entry store code
  | .cb4 => cb4Entry store sel code
  | .bf16 => f32OfVal (decodeF .bf16 code)
  | .fp16 => f32OfVal (decodeF .fp16 code)
  | .e4m3 => f32OfVal (decodeF .e4m3 code)
  | .e5m2 => f32OfVal (decodeF .e5m2 code)
  | .fp4 => f32OfVal (decodeF .fp4 code)
  | .fp32 => if isNaN (BitVec.ofNat 32 code) then f32NaN else BitVec.ofNat 32 code

/-- The value of an E8M0 scale code (R59). -/
def e8m0 (e : Nat) : F32 := if e % 256 = 255 then f32NaN else f32OfVal (.fin false 1 ((e % 256 : Nat) - 127))

/-- The value of a BF16 scale (R59). -/
def bf16Scale (c : Nat) : F32 := f32OfVal (decodeF .bf16 c)

/-! ## Encoding (R56, R64, R67 to R70) -/

/-- The rounding mode of a descriptor's RND field with a draw for SR (R44, R71). -/
def rndOf (code : Nat) (draw : BitVec 16) : Rnd := if code = 1 then .rz else if code = 2 then .sr draw else .rne

/-- Rounding of an exact value to an integer (R70 step 1, R148). -/
def roundInt (r : Rnd) : FVal → Int
  | .fin s m e =>
    let n := dyNum m e
    let d := dyDen e
    sgn s (roundStep r (n / d) (n % d) d)
  | _ => 0

/-- Saturation to a range, with the event flag. -/
def clampInt (lo hi x : Int) : Int × Bool := if x < lo then (lo, true) else if x > hi then (hi, true) else (x, false)

/-- Conversion to FMT 4 or 5 (R70). -/
def narrowInt (f : Fmt) (r : Rnd) (zp : Nat) (v : FVal) : Conv :=
  let z := intCode f zp
  let lo : Int := if f = .int8 then -128 else 0
  let hi : Int := if f = .int8 then 127 else 255
  match v with
  | .nan => ⟨wrapInt 8 z, true⟩
  | .inf s => ⟨wrapInt 8 (if s then lo else hi), true⟩
  | .fin _ _ _ =>
    let (x, o) := clampInt lo hi (roundInt r v + z)
    ⟨wrapInt 8 x, o⟩

/-- The numeric entries of a swatch, as index and value, NaN entries left out (R56). -/
def numericEntries (n : Nat) (entry : Nat → F32) : List (Nat × FVal) :=
  ((List.range n).map (fun i => (i, f32Val (entry i)))).filter (fun e => e.2 != .nan)

/-- The first entry that no later entry beats under `better`. -/
def bestEntry (better : FVal → FVal → Bool) : List (Nat × FVal) → Option (Nat × FVal)
  | [] => none
  | e :: es => some (es.foldl (fun b x => if better x.2 b.2 then x else b) e)

/-- Strict order of exact values. -/
def FVal.lt (x y : FVal) : Bool := FVal.cmp x y == some .lt

def FVal.absV : FVal → FVal
  | .fin _ m e => .fin false m e
  | .inf _ => .inf false
  | .nan => .nan

/-- Sign bit of a value. -/
def FVal.sign : FVal → Bool
  | .fin s _ _ => s
  | .inf s => s
  | .nan => false

/-- Exact distance |x − y| of finite values. -/
def FVal.dist (x y : FVal) : FVal := FVal.absV (FVal.add x (FVal.neg y))

/-- ⌊(x − lo)/(hi − lo) rounded to FP32 with RZ, × 2^16⌋ (R56 step 4, R71). DESIGN CHOICE (log entry 74): the exact quotient is rounded once; the two
differences are not rounded by themselves. -/
def srFraction (x lo hi : FVal) : Nat :=
  match FVal.add x (FVal.neg lo), FVal.add hi (FVal.neg lo) with
  | .fin _ m e, .fin _ n d =>
    if n = 0 then 0 else
    let k := e - d
    let num := if 0 ≤ k then m * 2 ^ k.toNat else m
    let den := if 0 ≤ k then n else n * 2 ^ (-k).toNat
    match f32Val (f32OfRat .rz false num den) with
    | .fin _ p q => dyNum p q * 65536 / dyDen q
    | _ => 0
  | _, _ => 0

/-- Index and event flag of encoding `x` into a swatch of `n` entries (R56). -/
def swatchEncode (n : Nat) (entry : Nat → F32) (r : Rnd) (x : FVal) : Conv :=
  let es := numericEntries n entry
  match bestEntry (fun a b => FVal.lt a b) es, bestEntry (fun a b => FVal.lt b a) es with
  | some lo0, some hi0 =>
    match x with
    | .nan =>
      match bestEntry (fun a b => FVal.lt (FVal.absV a) (FVal.absV b)) es with
      | some e => ⟨e.1, true⟩
      | none => ⟨0, true⟩
    | _ =>
      if FVal.lt hi0.2 x then ⟨hi0.1, true⟩
      else if FVal.lt x lo0.2 then ⟨lo0.1, true⟩
      else
        let lo := (bestEntry (fun a b => FVal.lt b a) (es.filter (fun e => FVal.le e.2 x))).getD lo0
        let hi := (bestEntry (fun a b => FVal.lt a b) (es.filter (fun e => FVal.le x e.2))).getD hi0
        match r with
        | .rne => if FVal.lt (FVal.dist hi.2 x) (FVal.dist x lo.2) then ⟨hi.1, false⟩ else ⟨lo.1, false⟩
        | .rz =>
          if FVal.lt (FVal.absV lo.2) (FVal.absV hi.2) then ⟨lo.1, false⟩
          else if FVal.lt (FVal.absV hi.2) (FVal.absV lo.2) then ⟨hi.1, false⟩
          else if x.sign then ⟨lo.1, false⟩ else ⟨hi.1, false⟩
        | .sr d => if srFraction x lo.2 hi.2 + d.toNat ≥ 65536 then ⟨hi.1, false⟩ else ⟨lo.1, false⟩
  | _, _ => ⟨0, true⟩

/-- The value of E3M2 or E4M3 entries ties: equal values are equal exact values, so the lowest index wins in `bestEntry`. -/
def swatchEncodeFmt (cb8 : Bool) (store : List Byte) (sel : Nat) (r : Rnd) (x : FVal) : Conv :=
  if cb8 then swatchEncode 256 (fun i => cb8Entry store i) r x else swatchEncode 16 (fun i => cb4Entry store sel i) r x

/-- Narrowing of one FP32 word to an element code of a descriptor's format (R67 to R70, R56). -/
def encodeElem (d : FDesc) (store : List Byte) (zp sel : Nat) (draw : BitVec 16) (v : FVal) : Conv :=
  let r := rndOf d.rnd draw
  match d.fmt with
  | .int8 => narrowInt .int8 r zp v
  | .uint8 => narrowInt .uint8 r zp v
  | .cb8 => swatchEncodeFmt true store sel r v
  | .cb4 => swatchEncodeFmt false store sel r v
  | .bf16 => narrowF .bf16 d.sat r v
  | .fp16 => narrowF .fp16 d.sat r v
  | .e4m3 => narrowF .e4m3 d.sat r v
  | .e5m2 => narrowF .e5m2 d.sat r v
  | .fp4 => narrowF .fp4 d.sat r v
  | .fp32 => narrowF .fp32 d.sat r v

/-- The amax of a list of FP32 values (R64, R92). -/
def amaxList (xs : List F32) : F32 := xs.foldl amaxOf f32Zero

/-- The smallest exponent e in −127 … 127 with amax ≤ maxf × 2^e (R64). -/
def blockExp (maxf amax : FVal) : Int :=
  match (List.range 255).find? (fun i => FVal.le amax (FVal.scale2 (Int.ofNat i - 127) maxf)) with
  | some i => Int.ofNat i - 127
  | none => 127

/-- The E8M0 code of an output block and the exponent its elements are divided by (R64); none: the block holds an infinity or a NaN. -/
def blockScale (f : FFmt) (xs : List F32) : Nat × Option Int :=
  match f32Val (amaxList xs) with
  | .fin _ m e =>
    if m = 0 then (0x7F, some 0)
    else
      let x := blockExp (decodeF f f.maxCode) (.fin false m e)
      ((x + 127).toNat, some x)
  | _ => (0xFF, none)

/-! ## Statistics (R91 to R94, R287) -/

/-- The four quantities of R92. -/
structure Stats where
  count : Nat
  clip : Nat
  amax : F32
  bins : List Nat
  deriving DecidableEq, Repr

/-- Nothing observed: COUNT 0 and AMAX +0 (R92, R287). -/
def Stats.empty : Stats := ⟨0, 0, f32Zero, List.replicate 32 0⟩

/-- The histogram bin of a value with window base HLO (R92). -/
def histBin (hlo : Int) (x : F32) : Option Nat :=
  match f32Val x with
  | .nan => none
  | .inf _ => some 31
  | .fin _ m e =>
    if m = 0 then none
    else
      let k := ilog2 (dyNum m e) (dyDen e) - hlo
      some (if k < 0 then 0 else if k > 31 then 31 else k.toNat)

/-- One observed valid element with its overflow event (R91, R92). Counters saturate (R93). -/
def Stats.observe (hlo : Int) (s : Stats) (x : F32) (ovf : Bool) : Stats :=
  { count := satAdd 32 s.count 1
    clip := satAdd 32 s.clip (if ovf then 1 else 0)
    amax := amaxOf s.amax x
    bins := match histBin hlo x with
      | some b => updAt (fun c => satAdd 32 c 1) b s.bins
      | none => s.bins }

/-- Merging two records (R93). -/
def Stats.merge (a b : Stats) : Stats :=
  { count := satAdd 32 a.count b.count
    clip := satAdd 32 a.clip b.clip
    amax := amaxOf a.amax b.amax
    bins := List.zipWith (satAdd 32) a.bins b.bins }

/-- The clip-share test (R94). -/
def clipExceeds (s : Stats) (t : Nat) : Bool := decide (s.count ≠ 0) && decide (s.clip * 65536 > t * s.count)

/-- The 192-byte record of R287. -/
def Stats.record (s : Stats) (hlo : Nat) : List Word :=
  [place s.clip 32 ||| place s.count 0, place (hlo % 256) 32 ||| place s.amax.toNat 0, 0, 0] ++
  (List.range 16).map (fun j => place (s.bins.getD (2 * j) 0) 0 ||| place (s.bins.getD (2 * j + 1) 0) 32) ++ [0, 0, 0, 0]

/-- The statistics that a record in memory holds (R287). -/
def Stats.ofRecord (ws : List Word) : Stats :=
  { count := fld (wordAt ws 0) 31 0
    clip := fld (wordAt ws 0) 63 32
    amax := BitVec.ofNat 32 (fld (wordAt ws 1) 31 0)
    bins := (List.range 32).map (fun b =>
      let w := wordAt ws (4 + b / 2)
      if b % 2 = 0 then fld w 31 0 else fld w 63 32) }

end Sys2Proof.Machine
end

