-- ==== Sys2Proof/Machine/State.lean ====
section
/-! DEFINITION. The state of one K3 instance as plain data: always-on domain, reset and bring-up, functions, contexts, objects,
queues, gangs, cores with their tile memory, OPU, fabric and stream engine, stack ports, panel links, MC, test ports, memory;
and the queue of waiting commands. Types and the state after reset only: every operation lives in the files beside it. -/

namespace Sys2Proof.Machine

/-- The faults a command can end in. K3 has no exception entry and the manual gives every command an effect, so no meaning
raises one; the type keeps one reason, for a state whose tables name a unit the configuration does not have. -/
inductive Fault where
  /-- raised by no command; kept so that the type is inhabited (safe) -/
  | impossible
  deriving DecidableEq, Repr

/-- The refusals: a command of the table that has no meaning yet (raised by exec's arms only; safe). -/
inductive Refusal where
  /-- exec's arm of a row that is not modelled (safe) -/
  | notModelled (mnemonic : String)
  deriving DecidableEq, Repr

/-! ## Status, rings, records -/

/-- The status codes of R273. -/
inductive Status where
  | done | skipped | tackRegress | badOpcode | badParam | badHandle | notOwner | planeBusy | storeBusy | queueOverrun
  | malformed | xlateFault | permFault | outOfHeap | outOfSpool | tableFull | scaleSkew | fabricPhase | tackBroken
  | stallWatchdog | functionReset | partitionCleared | flushed | queueClosed | coreRetired
  deriving DecidableEq, Repr

/-- One ring of R265. -/
structure Ring where
  cfg : Word
  head : BitVec 32
  tail : BitVec 32
  lost : BitVec 32
  lostFlag : Bool
  deriving DecidableEq, Repr

/-- A ring after reset (R265). -/
def Ring.zero : Ring := ⟨0, 0, 0, 0, false⟩

/-- A fault record before its PHASE is put in (R271), with what is halted until it is written. -/
structure FaultRec where
  words : List Word
  deriving DecidableEq, Repr

/-! ## Functions (R240, R427 to R447) -/

/-- Per-function state. -/
structure FuncSt where
  intEn : Bool
  intMask : Word
  intPend : Word
  causeVec : Word
  /-- CTX_VEC bytes by context slot -/
  ctxVec : List (Nat × Byte)
  resetDone : Bool
  inReset : Bool
  faultRing : Ring
  ctlRing : Ring
  /-- fault records held for a full or disabled ring, oldest first (R268) -/
  held : List FaultRec
  vecBase : Nat
  vecCount : Nat
  /-- QoS entry W0 as written, and as in force since the last window (R444) -/
  qos : Word
  qosNow : Word
  /-- window number to queue number + 1 -/
  windows : List (Nat × Nat)
  /-- partly assembled words of windows that hold no queue (R248) -/
  asm : List (Nat × List Word)
  deriving DecidableEq, Repr

/-! ## Packets and queues -/

/-- An object by type and slot (R360, R361). -/
structure ObjRef where
  typ : Nat
  slot : Nat
  deriving DecidableEq, Repr

/-- Where a packet that entered R254 stands. -/
inductive Stage where
  /-- steps 1 to 3 not yet passed (it waits at step 2 or 3) -/
  | entered
  /-- steps 1 to 9 passed; step 10 still to end -/
  | atTen
  /-- steps 1 to 9 passed; waiting to be multicast at step 10 -/
  | multicast
  /-- left R254 -/
  | left
  deriving DecidableEq, Repr

/-- How a packet left R254. -/
inductive Fate where
  | open | accepted | skipped | refused | flushed | closed
  deriving DecidableEq, Repr

/-- A tack action kept with a packet (R257). -/
structure TackAct where
  ref : ObjRef
  gen : BitVec 8
  value : Word
  add : Bool
  deriving DecidableEq, Repr

/-- A packet that has entered R254 and has not retired. -/
structure Pkt where
  uid : Nat
  q : QRef
  seq : BitVec 32
  /-- index in the pattern, 0xFFFF for a packet from the ring (R269) -/
  subidx : Nat
  /-- header W0, W1 and body words; references are resolved in place at step 5 -/
  words : List Word
  func : Nat
  ctx : Nat
  stage : Stage
  fate : Fate
  /-- the `REPLAY` a replayed packet belongs to (R262) -/
  parent : Option Nat
  /-- the hold of a wait at step 3, and the value awaited (R367, R372) -/
  waitHold : Option ObjRef
  waitVal : Word
  /-- the tack reached the awaited value while the packet waited: the wait has ended, whatever the tack does next (R372, R375) -/
  waitEnded : Bool
  /-- the context's registers a retirement write is pending on (R252) -/
  pendReg : Option Nat
  pendPred : Option Nat
  sigTack : Option TackAct
  ownTack : Option TackAct
  /-- device reference counts held (R366) -/
  holds : List ObjRef
  /-- the result of an opcode marked R, once known (R277) -/
  value : Word
  predVal : Bool
  /-- members it was multicast to, and those that have not reported (R257) -/
  members : List Nat
  waiting : List Nat
  /-- members that finished their bundle copy, with the GEN each found first (R213, R296) -/
  copied : List (Nat × Nat)
  mixed : Bool
  mcastMismatch : Bool
  done : Bool
  status : Status
  core : Nat
  nfail : Nat
  detail : Word
  /-- the SUBIDX a REPLAY's reply names when a replayed packet failed (R262) -/
  replySub : Nat
  /-- its header could not be read when it was flushed or closed: it writes no reply (R402) -/
  quiet : Bool
  /-- spool entries by base offset (R222, R223) -/
  push : Option Nat
  pop : Option Nat
  /-- heap, bobbin and plane free: device time at the start of step 10 for QUERY and MARK -/
  time : Word
  /-- granules that the ACCW descriptors of its command can reach, as a member that copied them reported: page-table root, address, element
  mask; and whether a failure makes them indeterminate (R235) -/
  reach : List (Nat × Nat × Nat)
  spoiled : Bool
  deriving DecidableEq, Repr

/-- One open hardware loop of a replay (R264). -/
structure LoopFrame where
  body : Nat
  bodyVa : Nat
  remaining : Nat
  incs : List (Nat × Word)
  saved : List (Nat × Word)
  deriving DecidableEq, Repr

/-- A replay in progress in a queue (R262). -/
structure Replay where
  uid : Nat
  slot : Nat
  va : Nat
  count : Nat
  next : Nat
  /-- byte address of the packet `next` -/
  nextVa : Nat
  loops : List LoopFrame
  deriving DecidableEq, Repr

/-- STATE of Q_STATUS (R243). -/
inductive QState where
  | absent | running | stopped
  deriving DecidableEq, Repr

/-- One queue: a work queue, or a function's control queue (R243, R566). -/
structure Queue where
  live : Bool
  func : Nat
  ctx : Nat
  gang : Nat
  home : Nat
  depthLog2 : Nat
  readAhead : Nat
  window : Nat
  ringVa : Nat
  state : QState
  stopStatus : BitVec 8
  malformed : Bool
  overrun : Bool
  failed : Bool
  posted : BitVec 32
  accepted : BitVec 32
  retired : BitVec 32
  /-- count of ring packets that have entered R254 -/
  entered : BitVec 32
  /-- words of a partly assembled packet (R245) -/
  asm : List Word
  /-- the ring of a control queue, slot to packet words (R566) -/
  slots : List (Nat × List Word)
  /-- packets that entered R254 and have not retired, oldest first -/
  flight : List Pkt
  replay : Option Replay
  /-- slots of the seams whose open partition-scope episodes hold it (R331) -/
  seamHolds : List Nat
  deriving DecidableEq, Repr

/-! ## Contexts, gangs, objects -/

/-- A spool entry: offset from the spool base, size, the pushing and the binding packet (R222, R223). -/
structure SpoolEntry where
  off : Nat
  size : Nat
  pushUid : Nat
  pushSize : Nat
  popUid : Option Nat
  deriving DecidableEq, Repr

/-- The usage counters of the query record (R391). -/
structure Usage where
  accepted : Word
  sBusy : Word
  mBeats : Word
  vTicks : Word
  rdBytes : Word
  wrBytes : Word
  accBytes : Word
  deriving DecidableEq, Repr

/-- A context slot (R355). -/
structure Ctx where
  live : Bool
  owner : Nat
  root : Nat
  spoolBase : Nat
  spoolSize : Nat
  /-- allocated entries, lowest first -/
  spool : List SpoolEntry
  spoolPeak : Nat
  params : List (Nat × Word)
  preds : BitVec 32
  ring : Ring
  usage : Usage
  deriving DecidableEq, Repr

/-- A gang (R18, R423): key home × 64 + number. -/
structure Gang where
  live : Bool
  func : Nat
  home : Nat
  mask : BitVec 512
  deriving DecidableEq, Repr

/-- An open gang-scope or partition-scope episode (R329, R331). -/
structure Episode where
  partScope : Bool
  /-- gang scope: participants, and those that started -/
  cores : List Nat
  started : List Nat
  /-- partition scope: covered partitions as panel × 16 + index, participating queues -/
  covered : List Nat
  queues : List Nat
  /-- joining packets -/
  pkts : List Nat
  deriving DecidableEq, Repr

/-- What an object table entry holds beyond its counts. -/
inductive Payload where
  | none
  | memObj (va bytes : Nat) (heap : Option Nat)
  | imported (tack : Nat)
  | tack (value : Word) (grants : List Nat) (broken : Bool)
  | bobbin (next remain : BitVec 32)
  | seam (home : Nat) (scope : Option Bool) (epi : Option Episode)
  | pattern (va count : Nat)
  | heap (base blockLog2 nblock : Nat)
  deriving DecidableEq, Repr

/-- A table entry (R363, R365): generation, counts, owner (a context for memory objects, patterns and heaps, else a function). -/
structure Entry where
  live : Bool
  gen : BitVec 8
  href : Bool
  dref : Nat
  owner : Nat
  payload : Payload
  deriving DecidableEq, Repr

def Entry.zero : Entry := ⟨false, 0, false, 0, 0, .none⟩

/-- An object table (R363): the free queue is every number from `fresh` up, then `freed` in order. -/
structure Table where
  size : Nat
  entries : List (Nat × Entry)
  fresh : Nat
  freed : List Nat
  deriving DecidableEq, Repr

def Table.empty (size : Nat) : Table := ⟨size, [], 0, []⟩

/-- The object tables of R361; tacks and bobbins have one table per panel. -/
structure Objects where
  mem : Table
  seam : Table
  pattern : Table
  heap : Table
  tacks : List Table
  bobbins : List Table
  deriving DecidableEq, Repr

def Objects.empty : Objects :=
  ⟨.empty 1048576, .empty 4096, .empty 4096, .empty 1024, List.replicate 4 (.empty 8192), List.replicate 4 (.empty 1024)⟩

/-! ## Cores -/

/-- A segment of a region (R198, R199). -/
inductive SegState where
  | free | filling | full
  deriving DecidableEq, Repr

structure Seg where
  st : SegState
  valid : Nat
  m0 : Nat
  n0 : Nat
  k0 : Nat
  /-- sequence number of the first K-block, and the number of K-blocks -/
  bseq : Nat
  nblk : Nat
  /-- consumers (unit codes) that have marked it done -/
  doneBy : List Nat
  /-- every granule of the run in this segment has been requested -/
  issued : Bool
  /-- number of the producer's run, and whether this is the run's last segment -/
  run : Nat
  last : Bool
  deriving DecidableEq, Repr

def Seg.zero : Seg := ⟨.free, 0, 0, 0, 0, 0, 0, [], false, 0, false⟩

/-- The ring of segments of one region in tile memory (R192 to R201), shared by a command and one that takes it over (R196):
segments begun by the producer, and segments each consumer unit has marked done, since the ring was reserved. -/
structure RingSt where
  decl : Word
  segs : List Seg
  prod : Nat
  cons : List (Nat × Nat)
  deriving DecidableEq, Repr

/-- A command's place in one of its regions. -/
structure Region where
  decl : Word
  /-- segment of the ring at which this command's stream begins, once the command before it has produced all of its own -/
  base : Option Nat
  /-- stream channel: runs completed, segments of the present run begun (or taken from), granules of the present segment issued -/
  runIdx : Nat
  segIdx : Nat
  pos : Nat
  /-- the present run's first segment; for a consuming channel, the present serving's -/
  runSeg : Nat
  /-- consuming channel: every run of the serving is taken, its remaining segments are still to be passed -/
  closing : Bool
  /-- multicast: credits of members that reported a segment FREE (R219) -/
  credited : List (Nat × Nat)
  /-- footprint bytes already taken by earlier runs of the present serving (R569) -/
  taken : Nat
  /-- the ring was released (R197); its banks may already hold another command's -/
  gone : Bool
  deriving DecidableEq, Repr

/-- Why a core's streams are halted, and where they stand (R231). -/
structure Halt where
  uid : Nat
  /-- region of the stream, 16 for a COPY, FILL, ACC_CLEAR or STATS, 17 a statistics write -/
  region : Nat
  va : Nat
  /-- ACCESS code of R271 -/
  access : Nat
  gen : Nat
  /-- 0 stream, 1 bundle copy, 2 command block, 3 swatch copy, 4 fabric image -/
  what : Nat
  /-- multicast members already credited (R231) -/
  credited : List Nat
  deriving DecidableEq, Repr

/-- A read of a stream engine in flight. -/
structure CoreReq where
  id : Nat
  uid : Nat
  region : Nat
  /-- segment of the ring the data go to (for a stream packet, the granule number), and the granule's place in it -/
  seg : Nat
  gran : Nat
  va : Nat
  two : Bool
  zeroing : Bool
  /-- 0 waiting, 1 data here, 2 failed -/
  state : Nat
  data : List Byte
  /-- pieces to place: ring byte, offset in the data, length -/
  place : List (Nat × Nat × Nat)
  /-- ring bytes whose upper nibble ends an odd row of 4-bit elements (R39) -/
  pads : List Nat
  /-- requests of the other members of a multicast, as site and number -/
  links : List (Nat × Nat)
  deriving DecidableEq, Repr

/-- A command in a core: one packet as its sequencer, engine queues and units hold it. -/
structure Cmd where
  uid : Nat
  q : QRef
  seq : BitVec 32
  subidx : Nat
  tag : Nat
  func : Nat
  ctx : Nat
  root : Nat
  cls : Nat
  opc : Nat
  body : List Word
  rank : Nat
  nmem : Nat
  push : Option (Nat × Nat)
  pop : Option (Nat × Nat)
  /-- the command block as read (R282) -/
  block : Option (List Word)
  admitted : Bool
  /-- it was admitted with its banks and descriptor slots, and did not fail at admission (R195, R210) -/
  reserved : Bool
  regions : List (Nat × Region)
  /-- the copied bundle, overrides applied (R210, R281) -/
  descs : List (List Word)
  copied : Bool
  /-- swatch stores copied: bit 0 A, 1 B, 2 SW0, 3 SW1 -/
  swDone : List Nat
  /-- items received so far, and the bobbin range still to start; EMPTY seen (R322) -/
  items : List Nat
  takePending : Bool
  empty : Bool
  /-- a `FAB_LOAD` whose load has ended -/
  vDone : Bool
  /-- own granules of a COPY, FILL, ACC_CLEAR or STATS begun -/
  cursor : Nat
  fail : Option (Status × Word)
  stats : List Word
  portStats : List Word
  /-- ring segments at which drained tiles began (R286) -/
  tileSegs : List Nat
  /-- inner tiles filled, drained; kernel runs begun, ended -/
  filled : Nat
  drained : Nat
  krun : Nat
  kdone : Nat
  started : Bool
  released : Bool
  /-- number of its arrival in the core -/
  arr : Nat
  /-- the matrix command admitted just before it, when that one has ACC_HOLD = 1 (R123) -/
  heldBy : Option Nat
  /-- outstanding write granules (R217) -/
  acks : Nat
  statsWritten : Bool
  deriving DecidableEq, Repr

/-- The six states of an accumulator (R119). -/
inductive AccState where
  | free | loading | filling | full | draining | held
  deriving DecidableEq, Repr

structure Acc where
  st : AccState
  /-- OPU_DIM × OPU_DIM values, row by row; the empty list stands for all +0 -/
  vals : List F32
  /-- the queue of the command that holds it -/
  holder : Option QRef
  uid : Nat
  g : Nat
  m0 : Nat
  n0 : Nat
  /-- number of the tile in its command -/
  tile : Nat
  deriving DecidableEq, Repr

def Acc.zero : Acc := ⟨.free, [], none, 0, 0, 0, 0, 0⟩

/-- The tile being filled (R307, R312): command, item and tile counters, operand step, beat within it, accumulator. -/
structure Fill where
  uid : Nat
  item : Nat
  tile : Nat
  step : Nat
  beat : Nat
  acc : Nat
  deriving DecidableEq, Repr

/-- The tile being drained (R127 to R131). -/
structure Drain where
  uid : Nat
  acc : Nat
  row : Nat
  m0 : Nat
  n0 : Nat
  tile : Nat
  /-- segment the tile began in; scale codes gathered, by byte of the scale area -/
  seg : Nat
  codes : List (Nat × Nat)
  deriving DecidableEq, Repr

/-- The outer-product unit of a core. -/
structure Opu where
  accs : List Acc
  lastAcc : Nat
  /-- block-sum and scale-product registers, row by row (R97) -/
  bsum : List F32
  sprod : List F32
  fill : Option Fill
  /-- full accumulators in the order they were filled -/
  fullq : List Nat
  /-- the matrix command admitted last (R123) -/
  lastMat : Option Nat
  drain : Option Drain
  /-- side items held by side port A, side port B and the drain side read: (command × 2^20 + tile) × 2^20 + item code (0 zero
  points, 1 selectors, 2 row scales, 16 + b the scales of K-block b), as one byte or two per row -/
  sideA : List (Nat × List Byte)
  sideB : List (Nat × List Byte)
  sideD : List (Nat × List Byte)
  deriving DecidableEq, Repr

def Opu.zero : Opu :=
  { accs := List.replicate 4 Acc.zero, lastAcc := 3, bsum := [], sprod := [], fill := none, fullq := [], lastMat := none, drain := none
    sideA := [], sideB := [], sideD := [] }

/-- A word on the fabric's wires with its tag and fill bit (R159). -/
structure FWord where
  w : BitVec 32
  tag : BitVec 2
  full : Bool
  deriving DecidableEq, Repr

def FWord.empty : FWord := ⟨0, 0, false⟩

/-- A result on its way to a cell's output register or register (R153). -/
structure Due where
  due : Nat
  issued : Nat
  word : FWord
  out : Bool
  dst : Option Nat
  deriving DecidableEq, Repr

/-- One fabric cell: output register, R0 to R3, wire registers per input (newest first), express arrivals E, W, S, N. -/
structure CellSt where
  out : FWord
  regs : List (BitVec 32)
  wires : List (List FWord)
  exps : List FWord
  pend : List Due
  deriving DecidableEq, Repr

def CellSt.zero : CellSt :=
  ⟨.empty, List.replicate 4 0, List.replicate 4 [], List.replicate 4 .empty, []⟩

/-- One edge cell: the word it drives, words on their way in, positions taken and given, sends in flight (tick, tag). -/
structure EdgeSt where
  drive : FWord
  coming : List (Nat × FWord)
  sends : List (Nat × Nat)
  sendWord : FWord
  deriving DecidableEq, Repr

def EdgeSt.zero : EdgeSt := ⟨.empty, [], [], .empty⟩

/-- A plane (R179). -/
structure Plane where
  valid : Bool
  owner : Nat
  /-- the `FAB_LOAD` whose read of the image is halted (R185); `image` then holds what it has read -/
  loading : Option Nat
  image : List Byte
  /-- the last `FAB_LOAD` aimed at it failed (R186) -/
  failed : Bool
  deriving DecidableEq, Repr

def Plane.zero : Plane := ⟨false, 0, none, [], false⟩

/-- The vector fabric of a core. -/
structure Fab where
  planes : List Plane
  /-- the active plane (R183), and the arrival number + 1 of the kernel command that made it so -/
  active : Option Nat
  activeArr : Nat
  lastPlane : Option Nat
  run : Option Nat
  plane : Nat
  tick : Nat
  frozen : Bool
  cells : List CellSt
  edges : List EdgeSt
  /-- positions passed by port (input reads, output writes) -/
  portPos : List (Nat × Nat)
  /-- first segment of the present run's output ports, by region -/
  baseSeg : List (Nat × Nat)
  /-- pending block of a SMODE 1 output port: port to FP32 words gathered -/
  gather : List (Nat × List F32)
  /-- the resume record of the V engine (R185) -/
  loadHalt : Option Halt
  /-- last level of the return tag inputs by extension port, for the bus keepers (R176) -/
  keep : List (Nat × Nat)
  deriving DecidableEq, Repr

def Fab.zero : Fab := ⟨[.zero, .zero], none, 0, none, none, 0, 0, false, [], [], [], [], [], none, []⟩

/-- An armed fitting (R552). -/
structure Fitting where
  uid : Nat
  q : QRef
  func : Nat
  ctx : Nat
  root : Nat
  seq : BitVec 32
  subidx : Nat
  tag : Nat
  edge : Nat
  va : Nat
  tile : Bool
  deriving DecidableEq, Repr

/-- A leaf or pointer held by a translation cache (R403): context, span log2, virtual base, the entry, its level. -/
structure TlbEntry where
  ctx : Nat
  /-- page-table root of the walk that found the entry: a new root acts for packets accepted after it (R290) -/
  root : Nat
  log2 : Nat
  va : Nat
  pte : Word
  deriving DecidableEq, Repr

/-- The core domain of one site (R25). -/
structure Core where
  cmds : List Cmd
  /-- commands that have arrived -/
  arrived : Nat
  /-- bank to the command uid + 1 that holds it, and bank to its WIDTH code -/
  banks : List (Nat × Nat)
  aspects : List (Nat × Nat)
  /-- the rings of the reserved regions, by first bank; the command admitted last (R196) -/
  rings : List (Nat × RingSt)
  lastAdm : Option Nat
  /-- tile memory, key bank × bank bytes + byte; unlisted bytes are 0 after the wipe -/
  tmem : List (Nat × Byte)
  opu : Opu
  fab : Fab
  /-- swatch stores A, B, SW0, SW1 -/
  stores : List (List Byte)
  tlb : List TlbEntry
  halt : Option Halt
  reqs : List CoreReq
  nextReq : Nat
  fitting : Option Fitting
  /-- stall watchdog count (R237), and whether anything moved since the last cycle -/
  wdCount : Nat
  moved : Bool
  /-- being cleared by a partition clear (R442) -/
  clearing : Bool
  deriving DecidableEq, Repr

def Core.zero : Core :=
  { cmds := [], arrived := 0, banks := [], aspects := [], rings := [], lastAdm := none, tmem := [], opu := .zero, fab := .zero
    stores := List.replicate 4 [], tlb := [], halt := none, reqs := [], nextReq := 0, fitting := none, wdCount := 0, moved := false
    clearing := false }

/-- The states of a core site in the health record (R488). -/
inductive SiteState where
  | active | spare | gusset | retired | failed | defective
  deriving DecidableEq, Repr

/-- A core site (R481, R488, R496): key panel × 144 + site. -/
structure Site where
  st : SiteState
  /-- logical index + 1, 0 for none -/
  index : Nat
  rowA : Nat
  rowB : Nat
  colA : Nat
  colB : Nat
  ceWin : Nat
  ceTotal : Nat
  /-- counters 1 and 2 by physical row and column: window counts, and totals since READY -/
  rowCe : List (Nat × Nat)
  colCe : List (Nat × Nat)
  rowTotal : List (Nat × Nat)
  colTotal : List (Nat × Nat)
  /-- microcode pages fetched, mismatches of the present page; fetched whole -/
  pages : Nat
  misses : Nat
  fetched : Bool
  /-- BIST left something it cannot repair (R550) -/
  bistBad : Bool
  /-- marked retired by the service record -/
  svcRetired : Bool
  deriving DecidableEq, Repr

def Site.zero : Site := ⟨.spare, 0, 0x7F, 0x7F, 0x7F, 0x7F, 0, 0, [], [], [], [], 0, 0, false, false, false⟩

/-! ## Stack ports -/

/-- Who made a request to a stack port: a read of a core, a write unit's granule (with its address, ACCESS and GEN), a page walk, or the
port's own accumulate unit. -/
inductive ReqSrc where
  | core (site : Nat) (req : Nat)
  | coreWrite (site uid va access gen : Nat)
  /-- a page walk of a panel, by its number (R404) -/
  | walk (panel id : Nat)
  | unit
  deriving DecidableEq, Repr

/-- The granule operations of a stack port (R407, R520). -/
inductive PortOp where
  | read | write | accum | zeroRead | clear
  deriving DecidableEq, Repr

/-- A request at a stack port. `addr` is the stack-local byte address of its granule before remapping. -/
structure PortReq where
  id : Nat
  src : ReqSrc
  op : PortOp
  addr : Nat
  two : Bool
  func : Nat
  /-- the context whose translation it went through (R405) -/
  ctx : Nat
  core : Nat
  /-- byte enables of a write, element mask of an accumulate or zeroing read -/
  mask : Nat
  data : List Byte
  /-- subchannel and tag on the wire, and the part of a split pair: 0 whole, 1 first, 2 second granule (R520) -/
  sub : Nat
  tag : Nat
  part : Nat
  deriving DecidableEq, Repr

/-- A granule in an accumulate unit's buffer (R409). -/
structure BufGran where
  addr : Nat
  data : List Byte
  deriving DecidableEq, Repr

/-- A live remap entry (R416): unit base, slot, the old place while it is copied, copy pointer. -/
structure Remap where
  unit : Nat
  coarse : Bool
  slot : Nat
  copying : Bool
  ptr : Nat
  /-- slot copied from, when a fine unit moves from slot to slot (R494) -/
  fromSlot : Option Nat
  uid : Nat
  deriving DecidableEq, Repr

structure StackPort where
  ready : Bool
  lost : Bool
  trained : Bool
  fullLast : Bool
  retained : Bool
  /-- the bytes its own controller reports (R393) -/
  cap : Nat
  waiting : List PortReq
  accq : List PortReq
  outR : List PortReq
  outW : List PortReq
  nextId : Nat
  buf : List BufGran
  remaps : List Remap
  /-- slots not to be used again before the next bring-up (R483) -/
  usedSlots : List (Bool × Nat)
  last : Nat
  /-- the last core granted, by function -/
  lastCore : List (Nat × Nat)
  credits : List (Nat × Nat)
  capCount : List (Nat × Nat)
  ceWin : Nat
  ceTotal : Nat
  ueTotal : Nat
  /-- counter 4: 4 KiB unit to window count, at most 256, and to its total (R484, R485) -/
  unitCe : List (Nat × Nat)
  unitTotal : List (Nat × Nat)
  deriving DecidableEq, Repr

def StackPort.zero : StackPort :=
  ⟨false, false, false, false, false, 0, [], [], [], [], 0, [], [], [], 255, [], [], [], 0, 0, 0, [], []⟩

/-! ## Panels, links -/

/-- What a page walk found: a leaf or an absent entry with the log₂ of its span, or PERM_FAULT with its W4 (R400). -/
inductive WalkEnd where
  | leaf (shift : Nat) (pte : Word)
  | absent (shift : Nat)
  | bad (w4 : Word)
  deriving DecidableEq, Repr

/-- A page walk in flight (R404): for which command and access of which core; the level to be read and its table, the pointers met so far, and
how it ended, once it has. -/
structure Walk where
  id : Nat
  site : Nat
  uid : Nat
  region : Nat
  ctx : Nat
  root : Nat
  va : Nat
  access : Nat
  /-- GEN of the descriptor whose granule it is (R231) -/
  gen : Nat
  level : Nat
  tbl : Nat
  ptrs : List TlbEntry
  res : Option WalkEnd
  deriving DecidableEq, Repr

structure Panel where
  /-- arbiter of the dispatch unit: the function granted last, the queue granted last by function, credits by weighted function (R29,
  R445) -/
  dispLast : Nat
  dispQueue : List (Nat × Nat)
  dispCredits : List (Nat × Nat)
  tlb : List TlbEntry
  wcache : List TlbEntry
  walks : List Walk
  nextWalk : Nat
  /-- pointers of its other arbiters, by arbiter code; one that is not listed points to the highest index (R29, R31) -/
  lasts : List (Nat × Nat)
  deriving DecidableEq, Repr

def Panel.zero : Panel := ⟨255, [], [], [], [], [], 0, []⟩

/-- A replacement in progress in one direction of a link (R502): module, the lane replaced or none for the module, the `RETIRE` packet
that asked for it. -/
structure Repair where
  module : Nat
  lane : Option Nat
  uid : Option Nat
  deriving DecidableEq, Repr

/-- One direction of one panel link: `up` runs toward the higher-numbered panel. -/
structure LinkDir where
  /-- modules out of service; failing physical lanes by module; modules with their lane order reversed (R500, R501) -/
  out : List Nat
  badLanes : List (Nat × List Nat)
  rev : List Nat
  /-- receiving end: next MSEQ expected by module, next LSEQ to deliver, DATA flits held by LSEQ, mismatches in succession by module,
  NAKs owed by module with the last good MSEQ (R530, R532) -/
  rxMseq : List (Nat × Nat)
  rxLseq : Nat
  held : List (Nat × List Word)
  fails : List (Nat × Nat)
  nak : List (Nat × Nat)
  /-- slots freed and not yet returned as credit, by class; messages delivered, oldest first: slot header and 8 words (R529, R531) -/
  freeReq : Nat
  freeDat : Nat
  delivered : List (List Word)
  /-- sending end: messages waiting; next MSEQ by module; next LSEQ; last module that took a flit; credits by class; DATA flits kept for
  replay by module; flits to be sent again; the flits driven last, each with its module (R530 to R532) -/
  outbox : List (List Word)
  txMseq : List (Nat × Nat)
  txLseq : Nat
  lastMod : Nat
  crdReq : Nat
  crdDat : Nat
  replay : List (Nat × List (List Word))
  resend : List (Nat × List Word)
  driven : List (Nat × List Word)
  /-- errors by module × 68 + physical lane in the present 2^20 flits, and the flits counted (R502) -/
  laneErr : List (Nat × Nat)
  flits : Nat
  /-- modules that stay in service unusable, for want of a spare (R503) -/
  dead : List Nat
  repairing : Option Repair
  deriving DecidableEq, Repr

/-- A direction right after training: credits 1,024 per class (R531). -/
def LinkDir.zero : LinkDir :=
  { out := [], badLanes := [], rev := [], rxMseq := [], rxLseq := 0, held := [], fails := [], nak := [], freeReq := 0, freeDat := 0
    delivered := [], outbox := [], txMseq := [], txLseq := 0, lastMod := 25, crdReq := 1024, crdDat := 1024, replay := [], resend := []
    driven := [], laneErr := [], flits := 0, dead := [], repairing := none }

structure Link where
  up : LinkDir
  down : LinkDir
  formed : Bool
  lost : Bool
  /-- counter 5, window and total (R486) -/
  replayWin : Nat
  replayTotal : Nat
  /-- the _state inputs of its modules, by end (0 the lower panel's, 1 the higher's) × 26 + module (R525) -/
  phy : List (Nat × Nat)
  deriving DecidableEq, Repr

def Link.zero : Link := ⟨.zero, .zero, false, false, 0, 0, []⟩

/-- The lane and module map of one direction (R470, R501). -/
structure DirMap where
  out : List Nat
  badLanes : List (Nat × List Nat)
  rev : List Nat
  deriving DecidableEq, Repr

/-- The lane and module map of a link, as the cache keeps it (R470). -/
structure LinkMap where
  up : DirMap
  down : DirMap
  deriving DecidableEq, Repr

/-! ## Always-on domain, pins, options, bring-up -/

/-- The always-on domain (R24, R451, R452). -/
structure Aon where
  resetCount : BitVec 32
  cause : Nat
  phase : Nat
  loadAborts : Nat
  lastLc : Nat
  source : Nat
  aOk : Bool
  bOk : Bool
  crc : BitVec 32
  linkCache : List (Nat × LinkMap)
  /-- the root-clock monitor of every panel: 5 missing, 6 out of range, not listed while it does not hold; windows in range since (R455,
  R537) -/
  monitor : List (Nat × Nat)
  goodWindows : List (Nat × Nat)
  /-- the last reset event is not yet one k3_aonclk period old: a lower code still replaces its cause (R450) -/
  fresh : Bool
  deriving DecidableEq, Repr

/-- The pins K3 samples: the panels whose k3_pwrok, k3_rst_n and k3_pwr_alert_n are low, and the codes on the k3_hold_i inputs of panel 0
(R509, R510). -/
structure Pins where
  pwrLow : List Nat
  rstLow : List Nat
  holdIn : List (Nat × Nat)
  alertLow : List Nat
  deriving DecidableEq, Repr

/-- The configuration in force (R461 to R464). -/
structure Options where
  grade : Nat
  cclkMhz : Nat
  powerCap : Nat
  lifecycle : Nat
  safe : Bool
  extEn : Bool
  peerEn : Bool
  vfEn : Bool
  minMcFw : Nat
  minUcode : Nat
  serial : Word
  /-- the copy in force, for DEFECT_MAP, REPAIR and IDENTITY -/
  copy : List Byte
  deriving DecidableEq, Repr

/-- Bring-up and reset control. -/
structure Boot where
  inReset : Bool
  /-- RESET_DEVICE or key hold in progress: its cause, 0 for none -/
  hold : Nat
  phase : Nat
  ready : Bool
  warm : Bool
  error : Nat
  linkFull : Nat
  fetchFailed : Nat
  gussets : Nat
  elapsedMs : Nat
  targetReady : Bool
  keyArmed : Bool
  /-- a shared array failed BIST: bring-up has stopped in phase 2 (R550) -/
  stuck : Bool
  /-- the option store never became ready: no boot area, service record or chain is read (R458) -/
  noStore : Bool
  /-- device time ticks since the last millisecond of ELAPSED_MS -/
  subMs : Nat
  deriving DecidableEq, Repr

/-- A staged change of the change table (R334, R491): packet SEQ, insert or retire, kind and identifier. -/
structure Change where
  panel : Nat
  insert : Bool
  kind : Nat
  ident : Word
  seq : BitVec 32
  deriving DecidableEq, Repr

/-- A read of host memory that the MC makes for a packet: its function, packet, next address, bytes left and bytes read. `first`: the
image that the first reading of a KIND 1 `FW_LOAD` verified; `reply`: for an `SPDM`, where the response goes and how much may (R477, R561). -/
structure McRead where
  func : Nat
  uid : Nat
  addr : Nat
  left : Nat
  got : List Byte
  first : Option (List Byte)
  reply : Option (Nat × Nat)
  deriving DecidableEq, Repr

/-- An image that is in service from the retirement of its `FW_LOAD` (R477): packet, microcode or not, version, body. -/
structure NewImage where
  uid : Nat
  isUc : Bool
  version : Nat
  body : List Byte
  deriving DecidableEq, Repr

/-- The management controller (R475, R477, R484, R539, R558). -/
structure Mc where
  /-- versions in service, whether an image of each kind has been verified, bodies -/
  mcFw : Nat
  ucode : Nat
  fwOk : Bool
  ucOk : Bool
  fwBody : List Byte
  ucBody : List Byte
  npages : Nat
  /-- the image region of its SRAM: the microcode body written there last, as pages (R475) -/
  region : List Byte
  /-- the MC firmware image of the boot area: version and body -/
  bootFw : Option (Nat × List Byte)
  coming : List NewImage
  /-- reads of host memory the MC makes, the first in progress -/
  reads : List McRead
  windowStart : Word
  changes : List Change
  /-- KIND 2 quiesce: the packet and the new image; KIND 3 refetch: the packet, its site and the new image -/
  quiesce : Option (Nat × List Byte)
  single : Option (Nat × Nat × List Byte)
  /-- a fatal record was written: device reset after 10 ms (R504) -/
  fatal : Bool
  /-- k3_pkgpwr samples of the present window: sum and count; edge share s; alert in force -/
  pwrSum : Nat
  pwrCount : Nat
  share : Nat
  alert : Bool
  /-- SEED of the device identity, certificate slot 0, service record copy applied -/
  identity : List Byte
  slot0 : List Byte
  svcCopy : List Byte
  /-- counter 6 records sent this window: (code, panel) -/
  sent : List (Nat × Nat)
  /-- clears in progress: (panel × 16 + partition, packet uid) -/
  clears : List (Nat × Nat)
  /-- BRINGUP_STATUS at READY (R562) -/
  readyStatus : Word
  deriving DecidableEq, Repr

/-- A function reset in progress (R435 to R438): the function (all functions when it is 0), whether the bridge started it, the acknowledgements
it owes the bridge, the `FUNC_RESET` packets that complete with it, its counts, its start and whether a host request was abandoned. -/
structure FReset where
  func : Nat
  bridge : Bool
  acks : List Nat
  pkts : List Nat
  discarded : Nat
  aborted : Nat
  waiters : Nat
  start : Word
  abandoned : Bool
  deriving DecidableEq, Repr

/-- A memory grant (R427). `wipe`: the wipe was asked for; `purged`: the purge is done. -/
structure Grant where
  w0 : Word
  w1 : Word
  wipe : Bool
  purged : Bool
  deriving DecidableEq, Repr

def Grant.zero : Grant := ⟨0, 0, false, false⟩

/-- What an initiator request is for (R512, R513). -/
inductive HostUse where
  | streamRead (site req : Nat)
  | streamWrite (site uid va access gen : Nat)
  | reply (func : Nat) (ring : RingRef)
  | faultRec (func : Nat) (words : List Word)
  /-- a fault record whose ring has been reconfigured since -/
  | faultOld (func : Nat) (words : List Word)
  | mcRead (uid : Nat)
  | msg
  | mcWrite
  | accRead (granule : Nat)
  | accWrite (granule : Nat)
  /-- a page walk's read (R404, R413) -/
  | walkRead (panel id : Nat)
  /-- a write of a dispatch unit or of the aperture to a host page (R402, R410, R414) -/
  | unitWrite
  deriving DecidableEq, Repr

/-- An initiator request outstanding or abandoned (R512). -/
structure HostReq where
  tag : Nat
  /-- number of its issue (R514) -/
  seq : Nat
  func : Nat
  /-- the context whose translation it went through, 0x3FF for none (R405) -/
  ctx : Nat
  op : Nat
  addr : Nat
  data : List Byte
  be : List Bool
  use : HostUse
  abandoned : Bool
  deriving DecidableEq, Repr

/-- A granule of the host-coupled accumulate buffer: whether it is modified, and the function that operated on it last (R410, R412). -/
structure HeldGran where
  addr : Nat
  data : List Byte
  dirty : Bool
  func : Nat
  deriving DecidableEq, Repr

/-- The host port. -/
structure HostPort where
  reqs : List HostReq
  nextSeq : Nat
  /-- writes the bridge has answered that wait for an earlier write of their function (R514) -/
  late : List HostReq
  /-- the last response on the target channel: error flag and data (R511) -/
  response : Option (Bool × List Byte)
  /-- the functions of the k3_flr_ack pulses given since the last k3_flr_req, oldest first (R516) -/
  flrAcks : List Nat
  /-- fault records whose write the bridge refused, waiting for the 1 ms retry: function, host address and words -/
  retry : List (Nat × Nat × List Word)
  /-- the host-coupled accumulate buffer: granules held exclusively (R412, R517) -/
  accBuf : List HeldGran
  accq : List PortReq
  /-- the last snoop answer: dirty and data -/
  snoop : Option (Bool × List Byte)
  deriving DecidableEq, Repr

/-- The test port of one partition: the shift stages of the boundary segment and of the BIST status register (the bit nearest k3_tst_so
first; empty until they first capture), the update latches in cell order, the mode in
force, k3_tst_trst_n low, k3_tst_so; and what BIST left in the BIST status register: repair log, spares used, site codes, failed
shared arrays, DONE (R543 to R551). -/
structure TestPort where
  segment : List Bool
  status : List Bool
  latches : List Bool
  mode : Bool
  trst : Bool
  so : Bool
  log : List Nat
  nlog : Nat
  codes : List (Nat × Nat)
  shared : List Nat
  done : Bool
  deriving DecidableEq, Repr

def TestPort.zero : TestPort := ⟨[], [], [], false, false, false, [], 0, [], [], false⟩

/-- Everything in the device but memory, parameters and the command queue. -/
structure Dev where
  aon : Aon
  pins : Pins
  opts : Options
  boot : Boot
  mc : Mc
  /-- the device time counter (R451) -/
  time : Word
  funcs : List (Nat × FuncSt)
  ctls : List (Nat × Queue)
  queues : List (Nat × Queue)
  ctxs : List (Nat × Ctx)
  gangs : List (Nat × Gang)
  objs : Objects
  /-- partition entries by panel × 16 + index, PART_STATUS bits -/
  parts : List (Nat × Word)
  partStatus : Word
  grants : List (Nat × Grant)
  /-- logical index to site key + 1 -/
  logical : List (Nat × Nat)
  /-- logical index to the site it held last, while it is vacant (R13, R490) -/
  lastSite : List (Nat × Nat)
  sites : List (Nat × Site)
  /-- core domains by site key -/
  cores : List (Nat × Core)
  panels : List (Nat × Panel)
  ports : List (Nat × StackPort)
  links : List (Nat × Link)
  host : HostPort
  test : List (Nat × TestPort)
  /-- function resets in progress -/
  resets : List FReset
  nextUid : Nat
  /-- MODEL FIELD: counter of draws from the free values of Config -/
  freeCtr : Nat
  deriving DecidableEq, Repr

/-- Memory outside the block: stack bytes by place (port key × 2^40 + stack-local address), poisoned granules (place / 64),
and host memory. Byte lists are canonical: addresses strictly rising, no zero byte listed. -/
structure MemSys where
  stack : List Host.Cell
  poison : List (Nat × Unit)
  host : List Host.Cell
  /-- granules whose controller, and host granules whose bridge, answered the last request with an error (R406, R513) -/
  bad : List (Nat × Unit)
  hostBad : List (Nat × Unit)
  deriving DecidableEq, Repr

/-- The state of the block. -/
structure State where
  params : Params
  mem : MemSys
  dev : Dev
  /-- commands waiting, first in, first out -/
  pending : List Instr
  deriving DecidableEq, Repr

/-! ## Reset values -/

/-- A function after a device reset (R432, R439, R265, R431, R444): 64 vectors for function 0. -/
def FuncSt.reset (f : Nat) : FuncSt :=
  { intEn := false, intMask := 0, intPend := 0, causeVec := 0x80, ctxVec := [], resetDone := false, inReset := false
    faultRing := .zero, ctlRing := .zero, held := [], vecBase := 0, vecCount := if f = 0 then 64 else 0
    qos := 0, qosNow := 0, windows := [], asm := [] }

/-- A function's control queue (R566). -/
def Queue.control (f : Nat) : Queue :=
  { live := true, func := f, ctx := 0x3FF, gang := 0, home := 0, depthLog2 := 4, readAhead := 16, window := 0xFFFF, ringVa := 0
    state := .running, stopStatus := 0, malformed := false, overrun := false, failed := false
    posted := 0, accepted := 0, retired := 0, entered := 0, asm := [], slots := [], flight := [], replay := none, seamHolds := [] }

/-- A work queue number that no queue holds. -/
def Queue.none : Queue := { Queue.control 0 with live := false, state := .absent, ctx := 0, depthLog2 := 8, readAhead := 1, window := 0 }

/-- A context slot that is free (R355). -/
def Ctx.none : Ctx :=
  { live := false, owner := 0, root := 0, spoolBase := 0, spoolSize := 0, spool := [], spoolPeak := 0, params := [], preds := 0
    ring := .zero, usage := ⟨0, 0, 0, 0, 0, 0, 0⟩ }

def Gang.none : Gang := ⟨false, 0, 0, 0⟩

/-- The always-on domain at power-up (R452: AON columns). -/
def Aon.powerUp : Aon := ⟨0, 0, 0, 0, 0, 0, false, false, 0, [], [], [], false⟩

/-- Options before the first load completes. -/
def Options.none : Options := ⟨0, 0, 0, 0, false, false, false, false, 0, 0, 0, []⟩

/-- Boot control at release: phase 0, not ready (R449, R452). -/
def Boot.release : Boot :=
  { inReset := false, hold := 0, phase := 0, ready := false, warm := false, error := 0, linkFull := 0, fetchFailed := 0, gussets := 0
    elapsedMs := 0, targetReady := false, keyArmed := false, stuck := false, noStore := false, subMs := 0 }

/-- The MC after a device reset: no image verified yet, s = 32 from READY (R242, R540). -/
def Mc.reset : Mc :=
  { mcFw := 0, ucode := 0, fwOk := false, ucOk := false, fwBody := [], ucBody := [], npages := 0, region := [], bootFw := none, coming := [], reads := [], windowStart := 0
    changes := [], quiesce := none, single := none, fatal := false, pwrSum := 0, pwrCount := 0, share := 32, alert := false
    identity := [], slot0 := [], svcCopy := [], sent := [], clears := [], readyStatus := 0 }

def HostPort.reset : HostPort :=
  { reqs := [], nextSeq := 0, late := [], response := none, flrAcks := [], retry := [], accBuf := [], accq := [], snoop := none }

/-- The partition table after reset (R422): partition 0 of each panel enabled over all ROWS rows, owner function 0. -/
def partsReset (p : Params) : List (Nat × Word) :=
  (List.range p.panels).map (fun i => (16 * i, 0x8000000000000000#64 ||| BitVec.ofNat 64 p.rows))

/-- Everything but the always-on domain, the pins, the test logic and the link cache, after a device reset (R451). -/
def Dev.reset (p : Params) (aon : Aon) (pins : Pins) (test : List (Nat × TestPort)) : Dev :=
  { aon := aon, pins := pins, opts := .none, boot := .release, mc := .reset, time := 0, funcs := [], ctls := [], queues := [], ctxs := []
    gangs := [], objs := .empty, parts := partsReset p, partStatus := 0, grants := [], logical := [], lastSite := [], sites := [], cores := []
    panels := [], ports := [], links := [], host := .reset, test := test, resets := [], nextUid := 0, freeCtr := 0 }

/-- Memory with nothing listed: every byte reads 0. -/
def MemSys.empty : MemSys := ⟨[], [], [], [], []⟩

/-- The instance with parameters `p` right after its first release: always-on domain at power-up values, supplies in range,
reset ports high, bring-up at phase 0. -/
def State.resetOf (p : Params) : State :=
  { params := p, mem := .empty, dev := Dev.reset p .powerUp ⟨[], [], [], []⟩ [], pending := [] }

/-- The state after reset: the reference configuration K3-256/20 of R8. -/
def State.reset : State := State.resetOf Params.k3_256_20

end Sys2Proof.Machine
end

