-- ==== Sys2Proof/Machine/Access.lean ====
section
/-! DEFINITION. Reading and rewriting one part of the device: every table of `Dev` has one reader, one writer and one modifier. -/

namespace Sys2Proof.Machine

namespace Dev

def fn (d : Dev) (f : Nat) : FuncSt := Tbl.get (FuncSt.reset f) f d.funcs
def setFn (d : Dev) (f : Nat) (x : FuncSt) : Dev := { d with funcs := Tbl.set f x d.funcs }
def modFn (d : Dev) (f : Nat) (g : FuncSt → FuncSt) : Dev := d.setFn f (g (d.fn f))

def queue (d : Dev) : QRef → Queue
  | .ctl f => Tbl.get (Queue.control f) f d.ctls
  | .work n => Tbl.get Queue.none n d.queues
def setQueue (d : Dev) (q : QRef) (x : Queue) : Dev :=
  match q with
  | .ctl f => { d with ctls := Tbl.set f x d.ctls }
  | .work n => { d with queues := Tbl.set n x d.queues }
def modQueue (d : Dev) (q : QRef) (g : Queue → Queue) : Dev := d.setQueue q (g (d.queue q))

def ctx (d : Dev) (c : Nat) : Ctx := Tbl.get Ctx.none c d.ctxs
def setCtx (d : Dev) (c : Nat) (x : Ctx) : Dev := { d with ctxs := Tbl.set c x d.ctxs }
def modCtx (d : Dev) (c : Nat) (g : Ctx → Ctx) : Dev := d.setCtx c (g (d.ctx c))

def gang (d : Dev) (home g : Nat) : Gang := Tbl.get Gang.none (64 * home + g) d.gangs
def setGang (d : Dev) (home g : Nat) (x : Gang) : Dev := { d with gangs := Tbl.set (64 * home + g) x d.gangs }

def part (d : Dev) (panel i : Nat) : Word := Tbl.get 0 (16 * panel + i) d.parts
def grant (d : Dev) (g : Nat) : Grant := Tbl.get Grant.zero g d.grants
def setGrant (d : Dev) (g : Nat) (x : Grant) : Dev := { d with grants := Tbl.set g x d.grants }

def site (d : Dev) (k : Nat) : Site := Tbl.get Site.zero k d.sites
def setSite (d : Dev) (k : Nat) (x : Site) : Dev := { d with sites := Tbl.set k x d.sites }
def modSite (d : Dev) (k : Nat) (g : Site → Site) : Dev := d.setSite k (g (d.site k))

/-- The core domain of a site. -/
def core (d : Dev) (k : Nat) : Core := Tbl.get Core.zero k d.cores
def setCore (d : Dev) (k : Nat) (x : Core) : Dev := { d with cores := Tbl.set k x d.cores }
def modCore (d : Dev) (k : Nat) (g : Core → Core) : Dev := d.setCore k (g (d.core k))

/-- The site that holds a logical core index, if the index is not vacant (R12, R13). -/
def siteOf (d : Dev) (idx : Nat) : Option Nat :=
  match Tbl.get 0 idx d.logical with
  | 0 => none
  | k + 1 => some k

def panel (d : Dev) (p : Nat) : Panel := Tbl.get Panel.zero p d.panels
def setPanel (d : Dev) (p : Nat) (x : Panel) : Dev := { d with panels := Tbl.set p x d.panels }
def modPanel (d : Dev) (p : Nat) (g : Panel → Panel) : Dev := d.setPanel p (g (d.panel p))

/-- Stack port by key panel × 16 + port. -/
def port (d : Dev) (k : Nat) : StackPort := Tbl.get StackPort.zero k d.ports
def setPort (d : Dev) (k : Nat) (x : StackPort) : Dev := { d with ports := Tbl.set k x d.ports }
def modPort (d : Dev) (k : Nat) (g : StackPort → StackPort) : Dev := d.setPort k (g (d.port k))

def link (d : Dev) (l : Nat) : Link := Tbl.get Link.zero l d.links
def setLink (d : Dev) (l : Nat) (x : Link) : Dev := { d with links := Tbl.set l x d.links }

def testPort (d : Dev) (p : Nat) : TestPort := Tbl.get TestPort.zero p d.test
def setTest (d : Dev) (p : Nat) (x : TestPort) : Dev := { d with test := Tbl.set p x d.test }

/-- In service: READY and out of reset (R468, R471). -/
def inService (d : Dev) : Bool := d.boot.ready && !d.boot.inReset

/-- A fresh number for a draw from the free values. -/
def draw (d : Dev) : Dev := { d with freeCtr := d.freeCtr + 1 }

end Dev

namespace State

/-- The state with its device replaced. -/
def withDev (s : State) (d : Dev) : State := { s with dev := d }

/-- The state with its device rewritten. -/
def upd (s : State) (g : Dev → Dev) : State := { s with dev := g s.dev }

end State

/-- The answer of every meaning: a next state. -/
abbrev Out := Host.Outcome State Fault Refusal

/-- Site key of a panel and a site number. -/
def siteKey (panel site : Nat) : Nat := 144 * panel + site
def keyPanel (k : Nat) : Nat := k / 144
def keySite (k : Nat) : Nat := k % 144

/-- Port key of a panel and a port number. -/
def portKey (panel port : Nat) : Nat := 16 * panel + port

/-- Logical index of the core in service at a site. -/
def siteIndex (d : Dev) (k : Nat) : Option Nat := match (d.site k).index with | 0 => none | i + 1 => some i

/-- The partition of a site: panel × 16 + index of the enabled entry whose rows hold it (R423). -/
def partOf (d : Dev) (k : Nat) : Option Nat :=
  (List.range 16).findSome? (fun i =>
    let e := d.part (keyPanel k) i
    let row := keySite k / 12
    if bitOf e 63 && decide (fld e 7 4 ≤ row) && decide (row < fld e 7 4 + fld e 3 0) then some (16 * keyPanel k + i) else none)

/-- The owner of a core's site (R423). -/
def ownerOf (d : Dev) (k : Nat) : Option Nat :=
  (partOf d k).map (fun pi => fld (d.part (pi / 16) (pi % 16)) 55 48)

/-- The present members of a gang: logical indices of its mask that hold a core in service, ascending (R317). -/
def present (d : Dev) (g : Gang) : List Nat :=
  (List.range 512).filter (fun i => g.mask.getLsbD i && (d.siteOf i).isSome)

/-- The numbers below `n` in rotating order from the one after `last` (R29). -/
def rotation (last n : Nat) : List Nat := (List.range n).map (fun i => (last + 1 + i) % n)

/-- The grant of R31: the first requester in rotating order after the last winner. -/
def rotate (req : Nat → Bool) (last n : Nat) : Option Nat := (rotation last n).find? req

/-- The same over the list of the requesters' indices. -/
def turn (xs : List Nat) (last n : Nat) : Option Nat :=
  xs.foldl (fun b x => match b with
    | none => some x
    | some y => if (x + n - 1 - last) % n < (y + n - 1 - last) % n then some x else some y) none

namespace Status

/-- The codes of R273. -/
def code : Status → Nat
  | .done => 0x00 | .skipped => 0x01 | .tackRegress => 0x04 | .badOpcode => 0x21 | .badParam => 0x22 | .badHandle => 0x23
  | .notOwner => 0x24 | .planeBusy => 0x25 | .storeBusy => 0x26 | .queueOverrun => 0x27 | .malformed => 0x28
  | .xlateFault => 0x61 | .permFault => 0x62 | .outOfHeap => 0x63 | .outOfSpool => 0x64 | .tableFull => 0x65
  | .scaleSkew => 0x81 | .fabricPhase => 0x82 | .tackBroken => 0xA1 | .stallWatchdog => 0xA3 | .functionReset => 0xC1
  | .partitionCleared => 0xC2 | .flushed => 0xC3 | .queueClosed => 0xC4 | .coreRetired => 0xE1

/-- The packet did its work or was skipped (R273: codes below 0x20). -/
def good (s : Status) : Bool := decide (s.code < 0x20)

/-- The status stops the queue when an accepted packet retires with it (R256). -/
def stops (s : Status) : Bool := !s.good && s != .flushed && s != .queueClosed

/-- The higher of two status codes (R258). -/
def higher (a b : Status) : Status := if a.code < b.code then b else a

end Status

end Sys2Proof.Machine
end

