-- ==== Sys2Proof/Machine/Memory.lean ====
section
/-! DEFINITION. Byte memory in canonical form, device physical addresses, stack interleave and remapping (R392 to R394, R416,
R417), the initiator channel (R512 to R514), and granule reads and writes of stack and host memory with poison (R406). -/

namespace Sys2Proof.Machine

/-! ## Canonical byte memory -/

namespace Memory

/-- What an unlisted address reads as: 0, as the wipe of phase 4 leaves every stack granule (R468). -/
def unlisted : Byte := 0

/-- One byte. -/
def get (a : Nat) : List Host.Cell → Byte
  | [] => unlisted
  | (b, v) :: t => if b = a then v else if b < a then get a t else unlisted

/-- One byte written; writing what an unlisted address reads as removes the entry. -/
def set (a : Nat) (v : Byte) : List Host.Cell → List Host.Cell
  | [] => if v = unlisted then [] else [(a, v)]
  | (b, w) :: t =>
    if b < a then (b, w) :: set a v t
    else if b = a then (if v = unlisted then t else (a, v) :: t)
    else if v = unlisted then (b, w) :: t else (a, v) :: (b, w) :: t

/-- Every address of the list lies above `lo`, addresses rise, and no byte is the unlisted one. -/
def wfFrom (lo : Nat) : List Host.Cell → Bool
  | [] => true
  | (b, v) :: t => decide (lo ≤ b) && (v != unlisted) && wfFrom (b + 1) t

/-- The canonical form. -/
def wf (m : List Host.Cell) : Bool := wfFrom 0 m

/-- `n` bytes from `a`. -/
def read (a : Nat) : Nat → List Host.Cell → List Byte
  | 0, _ => []
  | n + 1, m => get a m :: read (a + 1) n m

/-- Bytes written from `a` upward. -/
def write (a : Nat) : List Byte → List Host.Cell → List Host.Cell
  | [], m => m
  | v :: vs, m => write (a + 1) vs (set a v m)

/-- Bytes written from `a` upward where the enable is set. -/
def writeEn (a : Nat) : List Byte → List Bool → List Host.Cell → List Host.Cell
  | v :: vs, e :: es, m => writeEn (a + 1) vs es (if e then set a v m else m)
  | _, _, m => m

end Memory

/-! ## Device physical addresses -/

/-- C of a panel: the smallest capacity its ports report (R393). -/
def panelCap (p : Params) (d : Dev) (panel : Nat) : Nat :=
  match (List.range p.stackPorts).map (fun q => (d.port (portKey panel q)).cap) with
  | [] => 0
  | c :: cs => cs.foldl min c

/-- U of R393: ⌊(C − ⌈r × C⌉) / 2 MiB⌋ × 2 MiB. -/
def usable (p : Params) (d : Dev) (panel : Nat) : Nat :=
  let c := panelCap p d panel
  (c - ceilDiv c p.reserveDen) / 2097152 * 2097152

/-- Device memory is host memory in a host-coupled instance without stacks (R413). -/
def hostBacked (p : Params) : Bool := p.stackPorts == 0

/-- Panels that are brought up: panel 0 alone in the safe configuration (R462). -/
def livePanels (p : Params) (d : Dev) : Nat := if d.opts.safe then 1 else p.panels

/-- Is a device physical address backed (R392, R413). -/
def backed (p : Params) (d : Dev) (pa : Nat) : Bool :=
  decide (pa < 2 ^ 46) &&
  (hostBacked p ||
    (decide (pa / 2 ^ 42 < livePanels p d) && decide (pa % 2 ^ 42 < p.stackPorts * usable p d (pa / 2 ^ 42))))

/-- The stack port and stack-local address of a device physical address (R394). -/
def stackLoc (p : Params) (pa : Nat) : Nat × Nat :=
  let a := pa % 2 ^ 42
  let c := a / 4096
  (portKey (pa / 2 ^ 42) (c % p.stackPorts), c / p.stackPorts * 4096 + a % 4096)

/-- The device physical address of a stack-local address of a port: the inverse of R394. -/
def physOf (p : Params) (key addr : Nat) : Nat :=
  (key / 16) * 2 ^ 42 + (addr / 4096 * p.stackPorts + key % 16) * 4096 + addr % 4096

/-- Live coarse remap slots of an instance (R416). -/
def coarseSlots (p : Params) : Nat := if p.panels = 4 then 8 else 4
def fineSlots (p : Params) : Nat := if p.panels = 4 then 2048 else 1024

/-- Stack-local address of a remap slot (R416): coarse slots from U, fine slots after them. -/
def slotAddr (p : Params) (u : Nat) (coarse : Bool) (slot : Nat) : Nat :=
  if coarse then u + slot * 268435456 else u + coarseSlots p * 268435456 + slot * 4096

def unitBytes (coarse : Bool) : Nat := if coarse then 268435456 else 4096

/-- Where a stack-local address is served from: a live fine entry, else a live coarse entry, else itself; during a copy,
requests at or above the pointer go to the old place (R416, R417). -/
def served (p : Params) (d : Dev) (key addr : Nat) : Nat :=
  let u := usable p d (key / 16)
  let hit (c : Bool) := (d.port key).remaps.find? (fun r => r.coarse == c && decide (r.unit ≤ addr) && decide (addr < r.unit + unitBytes c))
  let through (r : Remap) (old : Nat) : Nat :=
    let off := addr - r.unit
    if r.copying && decide (r.ptr ≤ off) then
      match r.fromSlot with
      | some s => slotAddr p u r.coarse s + off
      | none => old
    else slotAddr p u r.coarse r.slot + off
  let base := match hit true with
    | some r => through r addr
    | none => addr
  match hit false with
  | some r => through r base
  | none => base

/-- The place key of a stack byte. -/
def placeOf (key addr : Nat) : Nat := key * 2 ^ 40 + addr

/-- Where a device physical granule lives: in a stack place, or in host memory (R413). -/
inductive Loc where
  | stack (key addr : Nat)
  | host (addr : Nat)
  deriving DecidableEq, Repr

/-- The location of a device physical address. -/
def locate (p : Params) (pa : Nat) : Loc :=
  if hostBacked p then .host pa else let (k, a) := stackLoc p pa; .stack k a

/-! ## Granules -/

/-- The granule address of a byte address. -/
def gran (a : Nat) : Nat := a / 64 * 64

/-- The accumulate unit's copy of a granule, if it is buffered (R409). -/
def buffered (d : Dev) (key addr : Nat) : Option (List Byte) :=
  ((d.port key).buf.find? (fun g => g.addr == addr)).map (·.data)

/-- A granule of stack memory as its port serves it. -/
def stackGran (s : State) (key addr : Nat) : List Byte :=
  match buffered s.dev key addr with
  | some data => data
  | none => Memory.read (placeOf key (served s.params s.dev key addr)) 64 s.mem.stack

/-- A stack granule's place, by granule. -/
def granKey (s : State) (key addr : Nat) : Nat := placeOf key (served s.params s.dev key addr) / 64

/-- A read of a stack granule fails: it is poisoned, or its port's controller left service (R406, R524). -/
def isPoisoned (s : State) (key addr : Nat) : Bool :=
  (s.dev.port key).lost || s.mem.poison.any (fun e => e.1 == granKey s key addr)

/-- An access of a dispatch unit or of the aperture to a stack granule is answered as uncorrectable. DESIGN CHOICE (log entry 9): such an access is
made whole in one step, so its answer is the status that the controller gave the last request to the granule. -/
def unreadable (s : State) (key addr : Nat) : Bool :=
  isPoisoned s key addr || s.mem.bad.any (fun e => e.1 == granKey s key addr)

/-- The same for a host granule: the answer is the bridge's last one (R413, R513). -/
def hostUnreadable (s : State) (a : Nat) : Bool := s.mem.hostBad.any (fun e => e.1 == a / 64)

/-- Bytes with an enable mask laid over old bytes. -/
def overlay (old data : List Byte) (en : Nat) : List Byte :=
  (List.range old.length).map (fun i => if en.testBit i then byteAt data i else byteAt old i)

/-- All 64 byte enables. -/
def fullMask : Nat := 2 ^ 64 - 1

/-- A granule that has been replaced whole: neither poisoned nor bad any more (R406). -/
def MemSys.clean (m : MemSys) (g : Nat) : MemSys := { m with poison := Tbl.del g m.poison, bad := Tbl.del g m.bad }

/-- A stack granule written with byte enables: into the buffer when it is buffered, else into the stack; a full write clears
poison, a partial write leaves it (R406). A port whose controller left service stores nothing (R524). -/
def putGran (s : State) (key addr : Nat) (data : List Byte) (en : Nat) : State :=
  let place := placeOf key (served s.params s.dev key addr)
  let clean (m : MemSys) : MemSys := if en = fullMask then m.clean (place / 64) else m
  if (s.dev.port key).lost then s
  else match buffered s.dev key addr with
  | some old =>
    { s with
      dev := s.dev.modPort key (fun q => { q with buf := q.buf.map (fun g => if g.addr == addr then ⟨addr, overlay old data en⟩ else g) })
      mem := clean s.mem }
  | none =>
    { s with mem := clean { s.mem with stack := Memory.writeEn place data ((List.range 64).map (fun i => en.testBit i)) s.mem.stack } }

/-! ## The initiator channel (R512 to R514) -/

/-- The tag of a request that waits for one of the 1,024 tags (R513). -/
def noTag : Nat := 1024

/-- One more request on the initiator channel, behind every earlier one (R514). -/
def Dev.issueFor (d : Dev) (func ctx op addr : Nat) (data : List Byte) (be : List Bool) (use : HostUse) : Dev :=
  let tag := (lowest noTag (fun t => d.host.reqs.all (fun r => r.tag != t))).getD noTag
  { d with host := { d.host with reqs := d.host.reqs ++ [⟨tag, d.host.nextSeq, func, ctx, op, addr, data, be, use, false⟩], nextSeq := d.host.nextSeq + 1 } }

/-- A request that went through no context's translation. -/
def Dev.issue (d : Dev) (func op addr : Nat) (data : List Byte) (be : List Bool) (use : HostUse) : Dev :=
  d.issueFor func 0x3FF op addr data be use

/-- A request that stores bytes: WR or WROWN. -/
def HostReq.stores (r : HostReq) : Bool := r.op == 1 || r.op == 5

/-- The byte at a host address is written by a request. -/
def HostReq.writes (r : HostReq) (a : Nat) : Bool := r.stores && decide (r.addr ≤ a) && r.be.getD (a - r.addr) false

/-! ## Host memory -/

/-- The host port's accumulate buffer copy of a host granule, if it holds it (R412). -/
def heldGran (d : Dev) (a : Nat) : Option (List Byte) := (d.host.accBuf.find? (fun g => g.addr == gran a)).map (·.data)

/-- A byte of host memory as K3's own requests leave it: the granule the port holds exclusively, the newest of its writes under way, else host
memory (R412, R514). -/
def hostByte (s : State) (a : Nat) : Byte :=
  match heldGran s.dev a with
  | some data => byteAt data (a % 64)
  | none => match (s.dev.host.late ++ s.dev.host.reqs).reverse.find? (fun r => r.writes a && !r.abandoned) with
    | some r => byteAt r.data (a - r.addr)
    | none => Memory.get a s.mem.host

/-- `n` bytes of host memory as K3's own requests leave them. -/
def hostRead (s : State) (a : Nat) : Nat → List Byte
  | 0 => []
  | n + 1 => hostByte s a :: hostRead s (a + 1) n

/-- Bytes inside one granule written over a granule that the port holds exclusively. -/
def heldPut (d : Dev) (a : Nat) (bs : List Byte) (be : List Bool) : Dev :=
  { d with host := { d.host with accBuf := d.host.accBuf.map (fun g =>
      if g.addr == gran a then
        { g with dirty := true, data := (List.range 64).map (fun i => if a % 64 ≤ i ∧ be.getD (i - a % 64) false then byteAt bs (i - a % 64) else byteAt g.data i) }
      else g) } }

/-- Bytes inside one granule written to host memory by a dispatch unit or the aperture, for a function and a context: into the granule the port
holds exclusively, else as a write on the initiator channel (R410, R412). -/
def hostPiece (s : State) (func ctx a : Nat) (coh : Bool) (bs : List Byte) (be : List Bool) : State :=
  match (if coh then heldGran s.dev a else none) with
  | some _ => { s with dev := heldPut s.dev a bs be }
  | none => { s with dev := s.dev.issueFor func ctx (if coh then 5 else 1) a bs be .unitWrite }

/-- A byte of host memory set at once: what an indeterminate element holds (R235). -/
def hostSet (s : State) (a : Nat) (v : Byte) : State :=
  match heldGran s.dev a with
  | some _ => { s with dev := heldPut s.dev a [v] [true] }
  | none => { s with mem := { s.mem with host := Memory.set a v s.mem.host } }

/-! ## Device physical memory -/

/-- A byte of device physical memory. -/
def physByte (s : State) (pa : Nat) : Byte :=
  match locate s.params pa with
  | .stack k a => byteAt (stackGran s k (gran a)) (a % 64)
  | .host a => hostByte s a

/-- `n` bytes of device physical memory. -/
def physRead (s : State) (pa : Nat) : Nat → List Byte
  | 0 => []
  | n + 1 => physByte s pa :: physRead s (pa + 1) n

/-- An access of a dispatch unit or of the aperture to the granule of a device physical address is answered as uncorrectable, or rejected. -/
def physUnreadable (s : State) (pa : Nat) : Bool :=
  match locate s.params pa with
  | .stack k l => unreadable s k (gran l)
  | .host a => hostUnreadable s a

/-- Bytes inside one granule of device physical memory written, with their enables, for a function and a context. -/
def physPiece (s : State) (func ctx pa : Nat) (bs : List Byte) (be : List Bool) : State :=
  match locate s.params pa with
  | .stack k a =>
    putGran s k (gran a) (List.replicate (a % 64) 0 ++ bs) (((List.range bs.length).filter (fun i => be.getD i false)).foldl (fun m i => m ||| 2 ^ (a % 64 + i)) 0)
  | .host a => hostPiece s func ctx a true bs be

end Sys2Proof.Machine
end

