-- ==== Sys2Proof/Machine/Translate.lean ====
section
/-! DEFINITION. Page tables, walks, permissions, grants and the translation caches (R395 to R405, R426), and the accesses a
dispatch unit makes (R402). -/

namespace Sys2Proof.Machine

/-- The kinds of access of R398, with the ACCESS code of R271. -/
inductive Acc3 where
  | read | write | accum | zeroRead | desc
  deriving DecidableEq, Repr

/-- ACCESS of R271. -/
def Acc3.code : Acc3 → Nat
  | .read => 1 | .write => 2 | .accum => 3 | .zeroRead => 4 | .desc => 5

/-- The access kind an ACCESS code names; code 0 and codes above 5 stand for a read. -/
def Acc3.ofCode : Nat → Acc3
  | 2 => .write | 3 => .accum | 4 => .zeroRead | 5 => .desc | _ => .read

/-- A translation fault of R400: XLATE_FAULT or PERM_FAULT, with W4 and the faulting address. -/
structure XFault where
  perm : Bool
  w4 : Word
  va : Nat
  acc : Acc3
  deriving DecidableEq, Repr

/-- One level of the radix tree of R395: VA bits [shift + bits − 1 : shift], and whether a leaf is permitted or required. -/
structure Level where
  shift : Nat
  bits : Nat
  leafOk : Bool
  tableOk : Bool
  deriving DecidableEq, Repr

/-- Levels 4 to 0 of R395. -/
def levels : List Level := [⟨48, 4, false, true⟩, ⟨39, 9, false, true⟩, ⟨30, 9, true, true⟩, ⟨21, 9, true, true⟩, ⟨16, 5, true, false⟩]

/-- Size and alignment of the table below a level (R395). -/
def subTableBytes (l : Level) : Nat := if l.shift = 21 then 256 else 4096

/-! ## Entries (R396, R397) -/

def pteV (w : Word) : Bool := bitOf w 0
def pteLeaf (w : Word) : Bool := bitOf w 1
def pteRd (w : Word) : Bool := bitOf w 2
def pteWr (w : Word) : Bool := bitOf w 3
def pteCoh (w : Word) : Bool := bitOf w 6
def pteAcc (w : Word) : Bool := bitOf w 7
def pteAddr (w : Word) : Nat := fld w 51 8 * 256
def pteTarget (w : Word) : Nat := fld w 63 62

/-- A range of device physical addresses that lies in one panel is backed throughout. -/
def backedRange (p : Params) (d : Dev) (a n : Nat) : Bool := backed p d a && backed p d (a + n - 1)

/-- Is a valid entry read at level `l` malformed (R397). -/
def pteMalformed (p : Params) (d : Dev) (l : Level) (w : Word) : Bool :=
  let span := 2 ^ l.shift
  fld w 61 52 != 0 || fld w 5 4 != 0 ||
  (if pteLeaf w then
    !l.leafOk || decide (1 < pteTarget w) || !aligned span (pteAddr w) ||
    (pteTarget w == 0 && !backedRange p d (pteAddr w) span) ||
    (pteAcc w && pteTarget w == 1 && (!p.hostCoupled || !pteCoh w)) ||
    (pteCoh w && (!p.hostCoupled || pteTarget w == 0))
  else
    !l.tableOk || pteTarget w != 0 || pteAcc w || pteCoh w || pteWr w || pteRd w ||
    !aligned (subTableBytes l) (pteAddr w) || decide (2 ^ 46 ≤ pteAddr w) || !backed p d (pteAddr w))

/-! ## Grants (R426, R427) -/

def Grant.state (g : Grant) : Nat := fld g.w0 63 62
def Grant.keep (g : Grant) : Bool := bitOf g.w0 61
def Grant.owner (g : Grant) : Nat := fld g.w0 53 46
def Grant.base (g : Grant) : Nat := fld g.w0 45 21 * 2097152
def Grant.bytes (g : Grant) : Nat := fld g.w1 24 0 * 2097152

/-- The GRANTED ranges of a function. -/
def grantsOf (d : Dev) (f : Nat) : List (Nat × Nat) :=
  (d.grants.filter (fun e => e.2.state == 1 && e.2.owner == f)).map (fun e => (e.2.base, e.2.bytes))

/-- The first address at or above `a` that no range of the list covers, after at most `fuel` extensions. -/
def coveredTo (rs : List (Nat × Nat)) (a : Nat) : Nat → Nat
  | 0 => a
  | fuel + 1 =>
    match rs.find? (fun r => decide (r.1 ≤ a) && decide (a < r.1 + r.2)) with
    | some r => coveredTo rs (r.1 + r.2) fuel
    | none => a

/-- A range meets a FENCED grant, which no function reaches (R429). -/
def inFence (d : Dev) (a n : Nat) : Bool := d.grants.any (fun e => e.2.state == 2 && overlaps e.2.base e.2.bytes a n)

/-- A range lies wholly inside the grants of a function; function 0 is held back by a fence alone (R426, R429). -/
def inGrants (d : Dev) (f a n : Nat) : Bool :=
  if f = 0 then !inFence d a n else (let rs := grantsOf d f; decide (a + n ≤ coveredTo rs a rs.length))

/-! ## The walk (R395, R400, R404, R426) -/

/-- The answer of a walk: how it ended, and the table pointers met on the way. -/
structure WalkRes where
  fin : WalkEnd
  ptrs : List TlbEntry
  deriving DecidableEq, Repr

/-- The 8-byte entry at a device physical address; none when its granule cannot be read (R406, R413). -/
def readEntry (s : State) (pa : Nat) : Option Word :=
  if physUnreadable s pa then none else some (BitVec.ofNat 64 (leNat (physRead s pa 8)))

/-- A held entry for the page or table of span 2^log2 that contains `va` (R403). -/
def tlbFind (es : List TlbEntry) (ctx root log2 va : Nat) : Option TlbEntry :=
  es.find? (fun e => e.ctx == ctx && e.root == root && e.log2 == log2 && e.va == va / 2 ^ log2 * 2 ^ log2)

/-- What the entry read at a level says: the walk ends, or it goes on in the table that the entry points to. None stands for a granule that
could not be read (R397, R400, R406, R426). -/
def readLevel (p : Params) (d : Dev) (own : Nat) (l : Level) : Option Word → WalkEnd ⊕ Word
  | none => .inl (.bad 0)
  | some w =>
    if !pteV w then .inl (.absent l.shift)
    else if pteMalformed p d l w then .inl (.bad w)
    else if pteLeaf w then
      .inl (if pteTarget w == 0 && !inGrants d own (pteAddr w) (2 ^ l.shift) then .bad w else .leaf l.shift w)
    else .inr w

/-- Address of the entry of `va` in a level's table. -/
def entryAddr (l : Level) (tbl va : Nat) : Nat := tbl + va / 2 ^ l.shift % 2 ^ l.bits * 8

/-- The pointer that an entry gives, as the walk cache holds it. -/
def pointer (ctx root : Nat) (l : Level) (va : Nat) (w : Word) : TlbEntry := ⟨ctx, root, l.shift, va / 2 ^ l.shift * 2 ^ l.shift, w⟩

/-- A walk through the remaining levels from a table at `tbl`, using held table pointers. `own` is the context's owner. -/
def walkLevels (s : State) (wc : List TlbEntry) (own ctx root va : Nat) : List Level → Nat → List TlbEntry → WalkRes
  | [], _, ptrs => ⟨.bad 0, ptrs⟩
  | l :: ls, tbl, ptrs =>
    match tlbFind wc ctx root l.shift va with
    | some e => walkLevels s wc own ctx root va ls (pteAddr e.pte) ptrs
    | none =>
      if !inGrants s.dev own (entryAddr l tbl va) 8 then ⟨.bad 0, ptrs⟩
      else match readLevel s.params s.dev own l (readEntry s (entryAddr l tbl va)) with
        | .inl e => ⟨e, ptrs⟩
        | .inr w => walkLevels s wc own ctx root va ls (pteAddr w) (pointer ctx root l va w :: ptrs)

/-- Addresses of the entries that such a walk reads. -/
def walkReads (s : State) (wc : List TlbEntry) (own ctx root va : Nat) : List Level → Nat → List Nat
  | [], _ => []
  | l :: ls, tbl =>
    match tlbFind wc ctx root l.shift va with
    | some e => walkReads s wc own ctx root va ls (pteAddr e.pte)
    | none =>
      if !inGrants s.dev own (entryAddr l tbl va) 8 then []
      else entryAddr l tbl va :: (match readLevel s.params s.dev own l (readEntry s (entryAddr l tbl va)) with
        | .inl _ => []
        | .inr w => walkReads s wc own ctx root va ls (pteAddr w))

/-- A walk may begin: the address has 52 bits, and the root is backed (R400). -/
def walkable (p : Params) (d : Dev) (root va : Nat) : Bool := decide (va < 2 ^ 52) && backed p d root

/-- A walk of a context's tables from `root` (R400). -/
def walk (s : State) (wc : List TlbEntry) (ctx root va : Nat) : WalkRes :=
  if walkable s.params s.dev root va then walkLevels s wc (s.dev.ctx ctx).owner ctx root va levels root [] else ⟨.bad 0, []⟩

/-! ### A walk in flight (R404) -/

/-- The next entry that a walk must read, past the levels whose pointers are held: the level number and its table. -/
def skipHeld (wc : List TlbEntry) (ctx root va : Nat) : List Level → Nat → Nat → Nat × Nat
  | [], n, tbl => (n, tbl)
  | l :: ls, n, tbl =>
    match tlbFind wc ctx root l.shift va with
    | some e => skipHeld wc ctx root va ls (n + 1) (pteAddr e.pte)
    | none => (n, tbl)

/-- A walk moved to its next read: the walk, and the address of the entry it reads; none when it has ended. -/
def Walk.next (d : Dev) (wc : List TlbEntry) (w : Walk) : Walk × Option Nat :=
  let (n, tbl) := skipHeld wc w.ctx w.root w.va (levels.drop w.level) w.level w.tbl
  match levels[n]? with
  | none => ({ w with res := some (.bad 0) }, none)
  | some l =>
    if !inGrants d (d.ctx w.ctx).owner (entryAddr l tbl w.va) 8 then ({ w with res := some (.bad 0) }, none)
    else ({ w with level := n, tbl := tbl }, some (entryAddr l tbl w.va))

/-- The entry that a walk read, or none when its granule could not be read: the walk ends or goes on a level further. -/
def Walk.take (p : Params) (d : Dev) (w : Walk) (e : Option Word) : Walk :=
  match levels[w.level]? with
  | none => { w with res := some (.bad 0) }
  | some l =>
    match readLevel p d (d.ctx w.ctx).owner l e with
    | .inl x => { w with res := some x }
    | .inr v => { w with ptrs := pointer w.ctx w.root l w.va v :: w.ptrs, tbl := pteAddr v, level := w.level + 1 }

/-- Does a leaf permit the access (R398). -/
def permits (pte : Word) : Acc3 → Bool
  | .read | .desc => pteRd pte
  | .write => pteWr pte && !pteAcc pte
  | .accum | .zeroRead => pteRd pte && pteWr pte && pteAcc pte

/-- Where a translated access goes: device physical, or host with its coherence bit. -/
inductive Target where
  | phys (pa : Nat)
  | host (addr : Nat) (coh : Bool)
  deriving DecidableEq, Repr

/-- The target of `va` under a leaf of span 2^log2. -/
def targetOf (pte : Word) (log2 va : Nat) : Target :=
  let a := pteAddr pte + va % 2 ^ log2
  if pteTarget pte = 1 then .host a (pteCoh pte) else .phys a

/-- A leaf applied to an access: its target, or PERM_FAULT with the leaf as W4 (R398, R400). -/
def useLeaf (pte : Word) (log2 va : Nat) (k : Acc3) : Except XFault Target :=
  if permits pte k then .ok (targetOf pte log2 va) else .error ⟨true, pte, va, k⟩

/-- A held leaf for the page that contains `va`, of any page size. -/
def leafFind (es : List TlbEntry) (ctx root va : Nat) : Option TlbEntry :=
  match tlbFind es ctx root 16 va with
  | some e => some e
  | none => match tlbFind es ctx root 21 va with
    | some e => some e
    | none => tlbFind es ctx root 30 va

/-- Translation without caches in between: a walk, then the permission check. -/
def translate (s : State) (wc : List TlbEntry) (ctx root va : Nat) (k : Acc3) : Except XFault Target :=
  match (walk s wc ctx root va).fin with
  | .leaf n w => useLeaf w n va k
  | .absent n => .error ⟨false, BitVec.ofNat 64 n, va, k⟩
  | .bad w4 => .error ⟨true, w4, va, k⟩

/-- A cache of at most `n` entries with one more entry; when it is full, the entry at a free position leaves (R403). -/
def cacheAdd (n ctr : Nat) (e : TlbEntry) (es : List TlbEntry) : List TlbEntry :=
  let es := es.filter (fun x => !(x.ctx == e.ctx && x.root == e.root && x.log2 == e.log2 && x.va == e.va))
  if es.length < n then e :: es else e :: es.eraseIdx (Config.freeNat ctr % es.length)

/-- Entries of context `ctx` whose span overlaps a VA range are gone; size 0 stands for the whole context (R405). -/
def cachePurge (ctx va n : Nat) (es : List TlbEntry) : List TlbEntry :=
  es.filter (fun e => !(e.ctx == ctx && (n == 0 || overlaps e.va (2 ^ e.log2) va n)))

/-- The removal of R405 in every cache of the instance; walks of the context under way are made anew, since they may hold a removed pointer. -/
def Dev.purge (d : Dev) (ctx va n : Nat) : Dev :=
  { d with
    cores := Tbl.mapv (fun c => { c with tlb := cachePurge ctx va n c.tlb }) d.cores
    panels := Tbl.mapv (fun q => { q with tlb := cachePurge ctx va n q.tlb, wcache := cachePurge ctx va n q.wcache, walks := q.walks.filter (fun w => w.ctx != ctx) }) d.panels }

/-! ## Accesses of a dispatch unit (R402): done whole at once -/

/-- Translation of an access of the dispatch unit of `panel`: a leaf held by the panel's shared cache, else a walk from the panel's walk cache
(R403). -/
def dXlate (s : State) (panel ctx va : Nat) (k : Acc3) : Except XFault Target :=
  match leafFind (s.dev.panel panel).tlb ctx (s.dev.ctx ctx).root va with
  | some e => useLeaf e.pte e.log2 va k
  | none => translate s (s.dev.panel panel).wcache ctx (s.dev.ctx ctx).root va k

/-- `n` bytes inside one granule at a target; none where the granule cannot be read (R406, R413). -/
def readTarget (s : State) (t : Target) (n : Nat) : Option (List Byte) :=
  match t with
  | .phys pa => if physUnreadable s pa then none else some (physRead s pa n)
  | .host a _ => if hostUnreadable s a then none else some (hostRead s a n)

/-- Bytes inside one granule written at a target with their enables, for a function and a context. -/
def writePiece (s : State) (func ctx : Nat) (t : Target) (bs : List Byte) (be : List Bool) : State :=
  match t with
  | .phys pa => physPiece s func ctx pa bs be
  | .host a coh => hostPiece s func ctx a coh bs be

/-- Bytes inside one granule written at a target. -/
def writeTarget (s : State) (func ctx : Nat) (t : Target) (bs : List Byte) : State := writePiece s func ctx t bs (bs.map (fun _ => true))

/-- The pieces of a range, cut at granule boundaries: address and length. `fuel` bounds their number. -/
def pieces (va n : Nat) : Nat → List (Nat × Nat)
  | 0 => []
  | fuel + 1 =>
    if n = 0 then []
    else
      let k := min n (64 - va % 64)
      (va, k) :: pieces (va + k) (n - k) fuel

/-- Read of a range by a dispatch unit: the bytes, or the first fault. -/
def dRead (s : State) (panel ctx va n : Nat) : Except XFault (List Byte) :=
  (pieces va n (n / 64 + 2)).foldlM (fun bs pc => do
    let t ← dXlate s panel ctx pc.1 .read
    match readTarget s t pc.2 with
    | some x => pure (bs ++ x)
    | none => .error ⟨true, 0, pc.1, .read⟩) []

/-- The check of a write of a range by a dispatch unit: every granule must translate. -/
def dCheck (s : State) (panel ctx va n : Nat) : Except XFault Unit :=
  (pieces va n (n / 64 + 2)).forM (fun pc => do
    match ← dXlate s panel ctx pc.1 .write with
    | .host _ _ => pure ()
    | .phys pa => match locate s.params pa with
      | .host _ => pure ()
      | .stack k _ => if (s.dev.port k).lost then .error ⟨true, 0, pc.1, .write⟩ else pure ())

/-- Bytes laid at consecutive virtual addresses, granule piece by granule piece; a piece that does not translate is left. -/
def dPut (s : State) (panel ctx : Nat) (bs : List Byte) : List (Nat × Nat) → State
  | [] => s
  | (va, k) :: rest =>
    let s' := match dXlate s panel ctx va .write with
      | .ok t => writeTarget s (s.dev.ctx ctx).owner ctx t (bs.take k)
      | .error _ => s
    dPut s' panel ctx (bs.drop k) rest

/-- Write of a range by a dispatch unit: nothing is written unless every granule translates. -/
def dWrite (s : State) (panel ctx va : Nat) (bs : List Byte) : Except XFault State := do
  dCheck s panel ctx va bs.length
  pure (dPut s panel ctx bs (pieces va bs.length (bs.length / 64 + 2)))

end Sys2Proof.Machine
end

