-- ==== Sys2Proof/Machine/Records.lean ====
section
/-! DEFINITION. Rings, reply and fault records, interrupt causes and requests on the host port's initiator channel
(R265 to R272, R432 to R434, R438, R506, R512, R515). -/

namespace Sys2Proof.Machine

/-! ## The initiator channel (R512, R513) -/

/-- A request leaves the channel; the first request that waits for a tag takes the tag it frees. -/
def Dev.retireReq (d : Dev) (tag : Nat) : Dev :=
  let reqs := d.host.reqs.filter (fun r => r.tag != tag || r.tag == noTag)
  let rec give : List HostReq → List HostReq
    | [] => []
    | r :: rs => if r.tag == noTag then { r with tag := tag } :: rs else r :: give rs
  { d with host := { d.host with reqs := give reqs } }

/-- A write of whole bytes on the initiator channel. -/
def Dev.issueWrite (d : Dev) (func addr : Nat) (data : List Byte) (use : HostUse) : Dev :=
  d.issue func 1 addr data (data.map (fun _ => true)) use

/-! ## Interrupt causes (R432 to R434) -/

/-- The vector byte of cause i. -/
def causeByte (f : FuncSt) (i : Nat) : Nat := fld f.causeVec (8 * i + 7) (8 * i)

/-- A cause with its vector byte: nothing when EN is 0 or the vector is at or above NVEC, else the pending bit is set (R434). -/
def FuncSt.raiseByte (f : FuncSt) (b : Nat) : FuncSt :=
  if b.testBit 7 && decide (b % 64 < f.vecCount) then { f with intPend := f.intPend ||| placeB true (b % 64) } else f

/-- Cause i of CAUSE_VEC. -/
def Dev.raise (d : Dev) (f i : Nat) : Dev := d.modFn f (fun x => x.raiseByte (causeByte x i))

/-- The context-reply cause of a context of function f. -/
def Dev.raiseCtx (d : Dev) (f c : Nat) : Dev := d.modFn f (fun x => x.raiseByte (Tbl.get 0 c x.ctxVec).toNat)

/-! ## Rings (R265 to R268) -/

def Ring.enabled (r : Ring) : Bool := bitOf r.cfg 0
def Ring.size (r : Ring) : Nat := 2 ^ (fld r.cfg 11 8 + 6)
def Ring.base (r : Ring) : Nat := fld r.cfg 63 12 * 4096
/-- R268: full when (TAIL − HEAD) mod 2^32 is the size or more. -/
def Ring.full (r : Ring) : Bool := decide (r.size ≤ (r.tail - r.head).toNat)
/-- PHASE of the record at index TAIL (R267). -/
def Ring.phase (r : Ring) : Nat := (r.tail.toNat / r.size + 1) % 2
/-- Can a record be written. -/
def Ring.open_ (r : Ring) : Bool := r.enabled && !r.full

/-- The ring a reference names. -/
def Dev.ring (d : Dev) (f : Nat) : RingRef → Ring
  | .fault => (d.fn f).faultRing
  | .control => (d.fn f).ctlRing
  | .context c => (d.ctx c).ring

/-- The ring rewritten. -/
def Dev.setRing (d : Dev) (f : Nat) (k : RingRef) (r : Ring) : Dev :=
  match k with
  | .fault => d.modFn f (fun x => { x with faultRing := r })
  | .control => d.modFn f (fun x => { x with ctlRing := r })
  | .context c => d.modCtx c (fun x => { x with ring := r })

/-- A record put at TAIL of an open ring: bytes at BASE + size × index, TAIL advanced. -/
def Dev.putRecord (d : Dev) (f : Nat) (k : RingRef) (bytes : Nat) (ws : List Word) (use : HostUse) : Dev :=
  let r := d.ring f k
  (d.issueWrite f (r.base + bytes * (r.tail.toNat % r.size)) (wordsToBytes ws) use).setRing f k { r with tail := r.tail + 1 }

/-! ## Replies (R266, R269) -/

/-- The contents of a reply record without PHASE and LOST_FLAG. -/
structure Reply where
  seq : Nat
  tag : Nat
  status : Nat
  mixed : Bool
  mismatch : Bool
  queue : Nat
  subidx : Nat
  gen : Nat
  core : Nat
  nfail : Nat
  detail : Word
  value : Word
  deriving DecidableEq, Repr

/-- The four words of R269. -/
def Reply.words (r : Reply) (phase : Nat) (lost : Bool) : List Word :=
  [ place (r.seq % 2 ^ 32) 32 ||| place (r.tag % 65536) 16 ||| place (r.status % 256) 8 ||| place (phase % 2) 7 |||
      placeB lost 6 ||| placeB r.mixed 5 ||| placeB r.mismatch 4,
    place (r.queue % 4096) 52 ||| place (r.subidx % 65536) 36 ||| place (r.gen % 65536) 20 ||| place (r.core % 1024) 10 |||
      place (min r.nfail 1023) 0,
    r.detail, r.value ]

/-- A reply written to a ring, or dropped and counted in LOST (R268). -/
def Dev.reply (d : Dev) (f : Nat) (k : RingRef) (r : Reply) : Dev :=
  let g := d.ring f k
  if g.open_ then
    let d' := d.putRecord f k 32 (r.words g.phase g.lostFlag) (.reply f k)
    d'.setRing f k { d'.ring f k with lostFlag := false }
  else d.setRing f k { g with lost := BitVec.ofNat 32 (satAdd 32 g.lost.toNat 1), lostFlag := true }

/-! ## Fault records (R268, R271, R272, R506) -/

/-- A fault record without its PHASE and TIME. -/
structure FInfo where
  status : Status
  kind : Nat
  ctx : Nat := 0x3FF
  queue : Nat := 0xFFF
  core : Nat := 0x3FF
  access : Nat := 0
  gen : Nat := 0
  seq : Nat := 0
  subidx : Nat := 0
  tag : Nat := 0
  va : Nat := 0
  w4 : Word := 0
  w5 : Word := 0
  w6 : Word := 0
  w7 : Word := 0
  deriving DecidableEq, Repr

/-- The eight words of R271 with PHASE 0. -/
def FInfo.words (i : FInfo) (time : Word) : List Word :=
  [ place i.status.code 56 ||| place (i.kind % 16) 52 ||| place (i.ctx % 1024) 41 ||| place (i.queue % 4096) 29 |||
      place (i.core % 1024) 19 ||| place (i.access % 8) 16 ||| place (i.gen % 65536) 0,
    place (i.seq % 2 ^ 32) 32 ||| place (i.subidx % 65536) 16 ||| place (i.tag % 65536) 0,
    place (i.va % 2 ^ 52) 0, time, i.w4, i.w5, i.w6, i.w7 ]

/-- The first held fault record written when the fault ring is open; its interrupt cause 0 is raised (R268, R433). -/
def Dev.writeHeld (d : Dev) (f : Nat) : Dev :=
  match (d.fn f).held with
  | [] => d
  | r :: rs =>
    let g := (d.fn f).faultRing
    if g.open_ then
      let ws := updAt (fun w => setFld w 51 51 g.phase) 0 r.words
      ((d.putRecord f .fault 64 ws (.faultRec f ws)).modFn f (fun x => { x with held := rs })).raise f 0
    else d

/-- A fault record sent: written at once when no record is held before it and the ring is open, else held (R268). -/
def Dev.fault (d : Dev) (f : Nat) (i : FInfo) : Dev :=
  let d' := d.modFn f (fun x => { x with held := x.held ++ [⟨i.words d.time⟩] })
  if (d.fn f).held.isEmpty then d'.writeHeld f else d'

/-- A record of KIND 6 to 11 for function 0 (R506). -/
def Dev.health (d : Dev) (i : FInfo) : Dev := d.fault 0 i

/-- A fault of a translation as the record's kind, status, access and W4 (R400, R402). -/
def XFault.info (x : XFault) : FInfo :=
  { status := if x.perm then .permFault else .xlateFault, kind := if x.perm then 2 else 1,
    access := x.acc.code, va := x.va, w4 := x.w4 }

end Sys2Proof.Machine
end

