-- ==== Sys2Proof/Machine/Spares.lean ====
section
/-! DEFINITION. Units by identifier (R489), counter 6 and the records of spares (R487, R493), and the change table: staged changes, those
that take effect at once, and how a change is applied or dropped (R334, R335, R490 to R493). -/

namespace Sys2Proof.Machine

/-! ## Identifiers (R489) -/

def idCore (idx : Nat) : Word := place (idx % 1024) 0
def idRow (idx row : Nat) : Word := place (row % 128) 16 ||| place (idx % 1024) 0
/-- Kind 4 layout: coarse flag, panel and port of a port key, stack-local address. -/
def idRange (coarse : Bool) (key addr : Nat) : Word :=
  placeB coarse 63 ||| place (key / 16 % 4) 60 ||| place (key % 16) 56 ||| place (addr % 2 ^ 40) 0
/-- Kind 5 and 6 layouts. -/
def idLane (link : Nat) (up : Bool) (module lane : Nat) : Word :=
  place (link % 4) 16 ||| placeB up 15 ||| place (module % 32) 8 ||| place (lane % 128) 0

/-! ## Records -/

/-- A KIND 6 record and the health cause, for counter `code` of a unit kind (R487). -/
def healthRecord (d : Dev) (code kind core : Nat) (ident : Word) (n : Nat) : Dev :=
  (d.health { status := .done, kind := 6, core := core, w4 := ident
              w5 := place kind 60 ||| place code 56 ||| place (min n (2 ^ 32 - 1)) 0 }).raise 0 3

/-- A KIND 9 record (R493): unit kind, outcome 0 retirement, 1 insertion, 2 removal, 3 dropped. -/
def spareRecord (d : Dev) (kind outcome core : Nat) (ident : Word) (seq : Nat) : Dev :=
  d.health { status := if outcome = 2 then .coreRetired else .done, kind := 9, core := core, w4 := ident
             w5 := place kind 60 ||| place outcome 0, w6 := BitVec.ofNat 64 seq }

/-! ## Sites -/

/-- Spare sites of a panel not in service. -/
def sparesOf (p : Params) (d : Dev) (panel : Nat) : Nat :=
  ((List.range p.sites).filter (fun i => (d.site (siteKey panel i)).st == .spare)).length

/-- The index of a site becomes vacant and its core's domain is cleared (R13). -/
def vacate (d : Dev) (k : Nat) (st : SiteState) : Dev :=
  match siteIndex d k with
  | none => d.modSite k (fun x => { x with st := st })
  | some idx =>
    ({ d with logical := Tbl.set idx 0 d.logical, lastSite := Tbl.set idx k d.lastSite }.modSite k
      (fun x => { x with st := st, index := 0 })).modCore k (fun c => { Core.zero with nextReq := c.nextReq })

/-- Counter 6 after a spare of the panel went: its KIND 6 record when none is left, once per window (R486, R487). DESIGN CHOICE (log entry 64): its
unit kind is 1, a core. -/
def spareGone (p : Params) (d : Dev) (panel : Nat) : Dev :=
  if sparesOf p d panel = 0 ∧ !d.mc.sent.contains (6, panel) then
    healthRecord { d with mc := { d.mc with sent := d.mc.sent ++ [(6, panel)] } } 6 1 0x3FF (BitVec.ofNat 64 panel) 0
  else d

/-! ## The change table -/

namespace Change
/-- The logical index that a change names. -/
def index (c : Change) : Nat := if c.insert then fld c.ident 41 32 else fld c.ident 9 0
/-- The site that an insertion names. -/
def spare (c : Change) : Nat := siteKey (fld c.ident 17 16) (fld c.ident 7 0)
/-- A pending retirement names the core with this index: kinds 1 to 3. -/
def retires (c : Change) (idx : Nat) : Bool := !c.insert && decide (1 ≤ c.kind) && decide (c.kind ≤ 3) && c.index == idx
end Change

/-- The site that a logical index has, or had last. -/
def homeSite (d : Dev) (idx : Nat) : Option Nat :=
  match d.siteOf idx with
  | some k => some k
  | none => (d.lastSite.find? (fun e => e.1 == idx)).map (·.2)

/-- The partition whose episode applies a change: that of its core's site, or of the last site of the index to fill (R334, R491). -/
def changePart (d : Dev) (c : Change) : Option Nat := (homeSite d c.index).bind (partOf d)

/-- Some gang bound to a work queue holds the index in its mask (R334, R491). -/
def gangBound (d : Dev) (idx : Nat) : Bool := d.queues.any (fun e => e.2.live && (d.gang e.2.home e.2.gang).mask.getLsbD idx)

/-- An OPU row or column retired at a site: the first free of the two places (R95, R96). -/
def retireLine (x : Site) (row : Bool) (n : Nat) : Site :=
  if row then (if x.rowA = 0x7F then { x with rowA := n } else { x with rowB := n })
  else (if x.colA = 0x7F then { x with colA := n } else { x with colB := n })

/-- A change is dropped with a KIND 9 record (R492, R493). -/
def dropChange (d : Dev) (c : Change) : Dev := spareRecord d c.kind 3 c.index c.ident c.seq.toNat

/-- One change applied: its effect and its KIND 9 record. A change whose unit is gone, or whose spare was taken, is dropped. -/
def applyChange (p : Params) (d : Dev) (c : Change) : Dev :=
  if c.insert then
    if (d.siteOf c.index).isSome || (d.site c.spare).st != .spare then dropChange d c
    else
      let d1 := { d with logical := Tbl.set c.index (c.spare + 1) d.logical }.modSite c.spare (fun x => { x with st := .gusset, index := c.index + 1 })
      spareGone p (spareRecord d1 1 1 c.index c.ident c.seq.toNat) (keyPanel c.spare)
  else
    match d.siteOf c.index with
    | none => dropChange d c
    | some k =>
      let d1 := if c.kind = 1 then vacate d k .retired else d.modSite k (fun x => retireLine x (c.kind == 2) (fld c.ident 22 16))
      spareRecord d1 c.kind 0 c.index c.ident c.seq.toNat

/-- The staged changes that satisfy a test applied in the order in which they were staged. -/
def applyWhere (p : Params) (f : Dev → Change → Bool) (d : Dev) : Dev :=
  d.mc.changes.foldl (fun d c =>
    if f d c then applyChange p { d with mc := { d.mc with changes := d.mc.changes.erase c } } c else d) d

/-- Changes on indices that no gang bound to a work queue holds take effect at once (R334, R491). -/
def applyIdle (p : Params) (d : Dev) : Dev := applyWhere p (fun d c => !gangBound d c.index) d

end Sys2Proof.Machine
end

