-- ==== Sys2Proof/Machine/Touch.lean ====
section
/-! DEFINITION. What the accesses of a dispatch unit leave behind (R402 to R404): the grants of the stack ports that serve them (R444 to R446), the
caches their walks fill (R403), and the count of an uncorrectable response (R406, R505). -/

namespace Sys2Proof.Machine

/-- One uncorrectable response of a stack port: counted, with its KIND 7 record (R406, R505, R506). -/
def countUe (p : Params) (d : Dev) (key addr : Nat) : Dev :=
  let q := d.port key
  (d.setPort key { q with ueTotal := satAdd 32 q.ueTotal 1 }).health
    { status := .permFault, kind := 7, w4 := idRange false key (addr / 4096 * 4096), w5 := BitVec.ofNat 64 (physOf p key addr) }

/-! ## Arbitration among functions at a stack port (R29, R444 to R446) -/

/-- Weight of a function at a stack port: SW of an entry in force with EN = 1, else 0 (R445). -/
def portWeight (d : Dev) (f : Nat) : Nat := let q := (d.fn f).qosNow; if bitOf q 63 then fld q 47 40 else 0

/-- A weighted function at its cap requests nothing until the next window (R446). -/
def capped (d : Dev) (q : StackPort) (f : Nat) : Bool :=
  let cap := fld (d.fn f).qosNow 31 16
  decide (0 < portWeight d f) && cap != 0 && decide (cap ≤ Tbl.get 0 f q.capCount)

/-- Functions with EN = 1 and a weight, of those the device has state for. -/
def weightedFns (d : Dev) : List Nat := (d.funcs.map (·.1)).filter (fun f => decide (0 < portWeight d f))

/-- The function granted, and the port with its credits and pointer moved (R445). -/
def pickFn (d : Dev) (q : StackPort) (req : Nat → Bool) (n : Nat → Nat) : Option (Nat × StackPort) :=
  let w (f : Nat) : Bool := req f && decide (0 < portWeight d f)
  let anyW := (List.range 256).any w
  let q1 := if anyW && (List.range 256).all (fun f => !w f || Tbl.get 0 f q.credits == 0) then
      { q with credits := (weightedFns d).foldl (fun t f => Tbl.set f (portWeight d f) t) q.credits } else q
  let elig (f : Nat) : Bool := if anyW then w f && decide (0 < Tbl.get 0 f q1.credits) else req f
  (rotate elig q1.last 256).map (fun f =>
    (f, { q1 with
      last := f
      credits := if 0 < portWeight d f then Tbl.set f (Tbl.get 0 f q1.credits - n f) q1.credits else q1.credits
      capCount := if 0 < portWeight d f then Tbl.set f (Tbl.get 0 f q1.capCount + n f) q1.capCount else q1.capCount }))

/-- A granule operation of a function at the port that serves a device physical address: one grant (R445). Host memory has no weights (R446). -/
def chargeGran (p : Params) (d : Dev) (f pa : Nat) : Dev :=
  match locate p pa with
  | .host _ => d
  | .stack key _ => match pickFn d (d.port key) (· == f) (fun _ => 1) with
    | some (_, q) => d.setPort key q
    | none => d

/-- An uncorrectable response to the granule of a device physical address. -/
def ueAt (p : Params) (d : Dev) (pa : Nat) : Dev :=
  match locate p pa with
  | .host _ => d
  | .stack key a => countUe p d key a

/-! ## Arbiters of a dispatch unit (R29 to R31) -/

/-- Arbiters of the dispatch unit of a panel, by code: the bobbin unit, the tack store, the allocator, the walk slots. -/
def arbBobbin : Nat := 0
def arbTack : Nat := 1
def arbAlloc : Nat := 2
def arbWalk : Nat := 3

/-- An arbiter of a panel grants the requester of an index: its pointer moves there (R29). -/
def Dev.won (d : Dev) (panel code i : Nat) : Dev := d.modPanel panel (fun q => { q with lasts := Tbl.set code i q.lasts })

/-- The pointer of an arbiter with `n` requesters: after reset the highest index (R31). -/
def Dev.lastWon (d : Dev) (panel code n : Nat) : Nat := Tbl.get (n - 1) code (d.panel panel).lasts

/-! ## Caches (R403) -/

/-- Entries of a core's own cache and of the panel's shared and walk caches. -/
def coreCacheSize : Nat := 64
def panelCacheSize : Nat := 4096
def walkCacheSize : Nat := 256

/-- The leaf of a walk, as the caches hold it. -/
def leafEntry (ctx root va log2 : Nat) (pte : Word) : TlbEntry := ⟨ctx, root, log2, va / 2 ^ log2 * 2 ^ log2, pte⟩

/-- The caches of a panel after a walk. -/
def cachePanel (d : Dev) (panel : Nat) (leaf : Option TlbEntry) (ptrs : List TlbEntry) : Dev :=
  let d1 := d.modPanel panel (fun q => { q with
    wcache := ptrs.foldl (fun es e => cacheAdd walkCacheSize d.freeCtr e es) q.wcache
    tlb := match leaf with | some e => cacheAdd panelCacheSize (d.freeCtr + 1) e q.tlb | none => q.tlb })
  { d1 with freeCtr := d1.freeCtr + 2 }

/-! ## One access -/

/-- What an access to one granule leaves behind, and whether it went through. -/
def touchGran (s : State) (panel ctx va : Nat) (k : Acc3) : Dev × Bool :=
  let d := s.dev
  let root := (d.ctx ctx).root
  let own := (d.ctx ctx).owner
  let (d1, leaf) : Dev × Option (Nat × Word) :=
    match leafFind (d.panel panel).tlb ctx root va with
    | some e => (d, some (e.log2, e.pte))
    | none =>
      let wc := (d.panel panel).wcache
      let r := walk s wc ctx root va
      let reads := if walkable s.params d root va then walkReads s wc own ctx root va levels root else []
      let d1 := reads.foldl (fun d pa => chargeGran s.params d own pa) d
      let d2 := match reads.getLast? with
        | some pa => if physUnreadable s pa then ueAt s.params d1 pa else d1
        | none => d1
      match r.fin with
      | .leaf n w => (cachePanel d2 panel (some (leafEntry ctx root va n w)) r.ptrs, some (n, w))
      | _ => (cachePanel d2 panel none r.ptrs, none)
  match leaf with
  | none => (d1, false)
  | some (n, w) =>
    match useLeaf w n va k with
    | .error _ => (d1, false)
    | .ok (.host a _) => (d1, !hostUnreadable s a || k == .write)
    | .ok (.phys pa) =>
      let d2 := chargeGran s.params d1 own pa
      let lost := match locate s.params pa with | .stack key _ => (d.port key).lost | .host _ => false
      if (if k == .write then lost else physUnreadable s pa) then (ueAt s.params d2 pa, false) else (d2, true)

/-- What an access of the dispatch unit of `panel` to a range leaves behind: granule by granule, up to the first that fails. -/
def touchAll (panel ctx : Nat) (k : Acc3) : List (Nat × Nat) → State → State
  | [], s => s
  | pc :: rest, s =>
    let (d, ok) := touchGran s panel ctx pc.1 k
    if ok then touchAll panel ctx k rest (s.withDev d) else s.withDev d

/-- The same for `n` bytes from `va`. -/
def dTouch (s : State) (panel ctx va n : Nat) (k : Acc3) : State := touchAll panel ctx k (pieces va n (n / 64 + 2)) s

end Sys2Proof.Machine
end

