-- ==== Sys2Proof/Machine/Objects.lean ====
section
/-! DEFINITION. Object tables, handles, reference counts, freeing, tacks and the device allocator (chapter "Contexts, objects,
tacks and the device allocator"). -/

namespace Sys2Proof.Machine

/-! ## Tables (R361, R363) -/

/-- The number of a free entry, and the table without it in its free queue; none when the table is full. -/
def Table.take (t : Table) : Option (Nat × Table) :=
  if t.fresh < t.size then some (t.fresh, { t with fresh := t.fresh + 1 })
  else match t.freed with
    | [] => none
    | s :: ss => some (s, { t with freed := ss })

def Table.get (t : Table) (i : Nat) : Entry := Tbl.get Entry.zero i t.entries
def Table.put (t : Table) (i : Nat) (e : Entry) : Table := { t with entries := Tbl.set i e t.entries }

/-- An entry freed: its generation advances and it joins the tail of the free queue (R363, R365). -/
def Table.free (t : Table) (i : Nat) : Table :=
  { t.put i { Entry.zero with gen := (t.get i).gen + 1 } with freed := t.freed ++ [i] }

/-- A created entry: live, HREF 1, DREF 0, its generation kept. -/
def Table.make (t : Table) (i owner : Nat) (p : Payload) : Table :=
  t.put i ⟨true, (t.get i).gen, true, 0, owner, p⟩

/-- Entries per table of a panel (R361). -/
def perPanel (typ : Nat) : Nat := if typ = 2 then 8192 else 1024

/-- The table of an object reference and its index there (R361). A handle word of 0 has type 0 and names nothing (R276). -/
def Objects.table (o : Objects) (r : ObjRef) : Table × Nat :=
  match r.typ with
  | 0 => (.empty 0, 0)
  | 2 => (o.tacks.getD (r.slot / 8192) (.empty 0), r.slot % 8192)
  | 3 => (o.bobbins.getD (r.slot / 1024) (.empty 0), r.slot % 1024)
  | 4 => (o.seam, r.slot)
  | 5 => (o.pattern, r.slot)
  | 6 => (o.heap, r.slot)
  | _ => (o.mem, r.slot)

/-- The tables with the table of a reference replaced. -/
def Objects.setTable (o : Objects) (r : ObjRef) (t : Table) : Objects :=
  match r.typ with
  | 0 => o
  | 2 => { o with tacks := updAt (fun _ => t) (r.slot / 8192) o.tacks }
  | 3 => { o with bobbins := updAt (fun _ => t) (r.slot / 1024) o.bobbins }
  | 4 => { o with seam := t }
  | 5 => { o with pattern := t }
  | 6 => { o with heap := t }
  | _ => { o with mem := t }

/-- The entry of an object. -/
def Dev.entry (d : Dev) (r : ObjRef) : Entry := let (t, i) := d.objs.table r; t.get i

/-- The entry of an object rewritten. -/
def Dev.modEntry (d : Dev) (r : ObjRef) (f : Entry → Entry) : Dev :=
  let (t, i) := d.objs.table r
  { d with objs := d.objs.setTable r (t.put i (f (t.get i))) }

/-- The type of object an entry holds (R361). -/
def Payload.typ : Payload → Nat
  | .none => 0 | .memObj .. => 1 | .tack .. => 2 | .bobbin .. => 3 | .seam .. => 4 | .pattern .. => 5 | .heap .. => 6 | .imported .. => 7

/-- The handle of an object (R360). -/
def Dev.handle (d : Dev) (r : ObjRef) : Word :=
  place (r.typ % 16) 28 ||| place (d.entry r).gen.toNat 20 ||| place (r.slot % 2 ^ 20) 0

/-- A create: the new object and the device, or none when the table is full (R363). `panel` chooses a tack or bobbin table. -/
def Dev.create (d : Dev) (typ panel owner : Nat) (p : Payload) : Option (ObjRef × Dev) :=
  let per := if typ = 2 ∨ typ = 3 then perPanel typ * panel else 0
  let (t, _) := d.objs.table ⟨typ, per⟩
  match t.take with
  | none => none
  | some (i, t') => some (⟨typ, per + i⟩, { d with objs := d.objs.setTable ⟨typ, per⟩ (t'.make i owner p) })

/-! ## Handle checks (R362) -/

/-- Types owned by a context; the others are owned by a function (R361). -/
def ctxOwned (typ : Nat) : Bool := typ == 1 || typ == 5 || typ == 6

/-- SLOT lies within the table (R361): the instance has tack and bobbin tables for its own panels only. -/
def slotInTable (panels typ slot : Nat) : Bool :=
  match typ with
  | 2 => decide (slot < 8192 * panels)
  | 3 => decide (slot < 1024 * panels)
  | 4 | 5 => decide (slot < 4096)
  | 6 => decide (slot < 1024)
  | _ => decide (slot < 1048576)

/-- The check of one handle for the types its word accepts, in the order of R362; `func` and `ctx` are the packet's. -/
def checkHandle (p : Params) (d : Dev) (types : List Nat) (func ctx : Nat) (h : Nat) : Except Status ObjRef :=
  let typ := h / 2 ^ 28 % 16
  let r : ObjRef := ⟨typ, h % 2 ^ 20⟩
  let e := d.entry r
  if !types.contains typ then .error .badHandle
  else if !(slotInTable p.panels typ r.slot && e.live && e.payload.typ == typ) then .error .badHandle
  else if e.gen.toNat != h / 2 ^ 20 % 256 then .error .badHandle
  else if !e.href then .error .badHandle
  else if e.owner != (if ctxOwned typ then ctx else func) then .error .notOwner
  else .ok r

/-- The tack behind a tack handle: the tack itself, or the tack an import entry holds (R381). -/
def tackOf (d : Dev) (r : ObjRef) : ObjRef :=
  match (d.entry r).payload with
  | .imported t => ⟨2, t⟩
  | _ => r

/-- Value and broken state of a tack (R371, R382). -/
def tackVal (d : Dev) (r : ObjRef) : Word × Bool :=
  match (d.entry (tackOf d r)).payload with
  | .tack v _ b => (v, b)
  | _ => (0, false)

/-- A tack with current value c has reached v (R372). -/
def reached (c v : Word) : Bool := decide (0 ≤ signedDiff c v)

/-- A tack's value replaced. -/
def setTack (d : Dev) (r : ObjRef) (v : Word) : Dev :=
  d.modEntry (tackOf d r) (fun e => match e.payload with
    | .tack _ g b => { e with payload := .tack v g b }
    | _ => e)

/-! ## Heaps (R383 to R389) -/

/-- The magic of R384. -/
def heapMagic : Word := 0x4B33484541500001#64

/-- Blocks of metadata (R384). -/
def metaBlocks (blockLog2 nblock : Nat) : Nat := ceilDiv (64 + ceilDiv nblock 4) (2 ^ blockLog2)

/-- The allocator is in the dispatch unit of panel 0 (R387). -/
def heapPanel : Nat := 0

/-- Bytes 8 to 15 of the header (R384). -/
def heapShape (blockLog2 nblock : Nat) : Word := place blockLog2 58 ||| place nblock 0

/-- The code of block i in bitmap bytes (R384). -/
def blockCode (bm : List Byte) (i : Nat) : Nat := (byteAt bm (i / 4)).toNat / 4 ^ (i % 4) % 4

/-- One bitmap byte with the code of block i set. -/
def setCode (b : Byte) (i c : Nat) : Byte :=
  BitVec.ofNat 8 (b.toNat - b.toNat / 4 ^ (i % 4) % 4 * 4 ^ (i % 4) + c * 4 ^ (i % 4))

/-- A block's code rewritten in memory. -/
def putCode (s : State) (ctx base i c : Nat) : Except XFault State := do
  let a := base + 64 + i / 4
  let old ← dRead s heapPanel ctx a 1
  dWrite s heapPanel ctx a [setCode (byteAt old 0) i c]

/-- The three fields of a header that are checked: magic, block size and NBLOCK (R388). -/
def headerOk (ws : List Word) (blockLog2 nblock : Nat) : Bool :=
  wordAt ws 0 == heapMagic && fld (wordAt ws 1) 63 58 == blockLog2 && fld (wordAt ws 1) 24 0 == nblock

/-- The header of a heap read and checked against its entry: the free block count, or none on a mismatch (R388). -/
def heapHeader (s : State) (ctx base blockLog2 nblock : Nat) : Except XFault (Option Nat) := do
  let h ← dRead s heapPanel ctx base 64
  let ws := bytesToWords 3 h
  pure (if headerOk ws blockLog2 nblock then some (wordAt ws 2).toNat else none)

/-- The lowest run of n blocks coded free (R385): start of the present run, blocks seen so far in it, next block, fuel. -/
def freeRun (bm : List Byte) (n start len next : Nat) : Nat → Option Nat
  | 0 => none
  | fuel + 1 =>
    if blockCode bm next = 0 then
      (if n ≤ len + 1 then some start else freeRun bm n start (len + 1) (next + 1) fuel)
    else freeRun bm n (next + 1) 0 (next + 1) fuel

/-- Blocks after a first block that belong to its allocation: coded 0b10 up to the next block coded otherwise (R386). -/
def laterBlocks (bm : List Byte) (i : Nat) : Nat → Nat
  | 0 => 0
  | fuel + 1 => if blockCode bm i = 2 then 1 + laterBlocks bm (i + 1) fuel else 0

/-- Codes of consecutive blocks written from block i. -/
def putCodes (s : State) (ctx base i : Nat) : List Nat → Except XFault State
  | [] => .ok s
  | c :: cs => do
    let s' ← putCode s ctx base i c
    putCodes s' ctx base (i + 1) cs

/-- The free block count rewritten. -/
def putFree (s : State) (ctx base n : Nat) : Except XFault State :=
  dWrite s heapPanel ctx (base + 16) (leBytes 8 n)

/-- The answer of an allocator request: a fault of its metadata, a refusal that changes nothing, or a result. -/
inductive HeapRes (α : Type) where
  | fault (x : XFault)
  | bad
  | none
  | ok (a : α)

/-- ALLOC of n blocks (R385): the first block's address, or `none` when no run exists. -/
def heapAlloc (s : State) (ctx base blockLog2 nblock n : Nat) : HeapRes (State × Nat) :=
  match heapHeader s ctx base blockLog2 nblock with
  | .error x => .fault x
  | .ok .none => .bad
  | .ok (some free) =>
    match dRead s heapPanel ctx (base + 64) (ceilDiv nblock 4), dCheck s heapPanel ctx base (64 + ceilDiv nblock 4) with
    | .error x, _ => .fault x
    | _, .error x => .fault x
    | .ok bm, .ok _ =>
      match freeRun bm n 0 0 0 nblock with
      | .none => .none
      | some i =>
        match putCodes s ctx base i (1 :: List.replicate (n - 1) 2) with
        | .error x => .fault x
        | .ok s' => match putFree s' ctx base (free - n) with
          | .error x => .fault x
          | .ok s'' => .ok (s'', base + i * 2 ^ blockLog2)

/-- FREE of the allocation whose first block is at address a (R386). -/
def heapFree (s : State) (ctx base blockLog2 nblock a : Nat) : HeapRes State :=
  match heapHeader s ctx base blockLog2 nblock with
  | .error x => .fault x
  | .ok .none => .bad
  | .ok (some free) =>
    if a < base ∨ base + nblock * 2 ^ blockLog2 ≤ a ∨ !aligned (2 ^ blockLog2) (a - base) then .bad
    else
      match dRead s heapPanel ctx (base + 64) (ceilDiv nblock 4), dCheck s heapPanel ctx base (64 + ceilDiv nblock 4) with
      | .error x, _ => .fault x
      | _, .error x => .fault x
      | .ok bm, .ok _ =>
        let i := (a - base) / 2 ^ blockLog2
        if blockCode bm i != 1 then .bad
        else
          let n := 1 + laterBlocks bm (i + 1) (nblock - i - 1)
          match putCodes s ctx base i (List.replicate n 0) with
          | .error x => .fault x
          | .ok s' => match putFree s' ctx base (free + n) with
            | .error x => .fault x
            | .ok s'' => .ok s''

/-- Blocks of the live allocation that begins at address a, read without a fault; 0 when a begins none (R389). -/
def allocBlocks (s : State) (ctx base blockLog2 nblock a : Nat) : Nat :=
  if a < base ∨ base + nblock * 2 ^ blockLog2 ≤ a ∨ !aligned (2 ^ blockLog2) (a - base) then 0
  else
    match dRead s heapPanel ctx (base + 64) (ceilDiv nblock 4) with
    | .error _ => 0
    | .ok bm =>
      let i := (a - base) / 2 ^ blockLog2
      if blockCode bm i = 1 then 1 + laterBlocks bm (i + 1) (nblock - i - 1) else 0

/-- The live heaps of a context: slot, base, log₂ of the block size, NBLOCK. -/
def heapsOf (d : Dev) (ctx : Nat) : List (Nat × Nat × Nat × Nat) :=
  d.objs.heap.entries.filterMap (fun e =>
    match e.2.payload with
    | .heap b l n => if e.2.live && e.2.owner == ctx then some (e.1, b, l, n) else none
    | _ => none)

/-- The heap a new memory object is backed by: its range is exactly one live allocation of a heap of its context (R389). -/
def backingHeap (s : State) (ctx va bytes : Nat) : Option Nat :=
  ((heapsOf s.dev ctx).find? (fun h =>
    let (_, b, l, n) := h
    let k := allocBlocks s ctx b l n va
    decide (0 < k) && bytes == k * 2 ^ l)).map (·.1)

/-! ## Counting and freeing (R365, R366, R389, R390) -/

/-- DREF raised by one. -/
def addRef (d : Dev) (r : ObjRef) : Dev := d.modEntry r (fun e => { e with dref := e.dref + 1 })

/-- DREF lowered by one. -/
def subRef (d : Dev) (r : ObjRef) : Dev := d.modEntry r (fun e => { e with dref := e.dref - 1 })

/-- An entry is to be freed: live with both counts 0 (R365). -/
def idle (d : Dev) (r : ObjRef) : Bool := (d.entry r).live && !(d.entry r).href && (d.entry r).dref == 0

/-- The table entry freed, whatever it held. -/
def freeEntry (d : Dev) (r : ObjRef) : Dev :=
  let (t, i) := d.objs.table r
  { d with objs := d.objs.setTable r (t.free i) }

/-- A reference lowered and its entry freed when both counts are 0: for objects that hold no other object. -/
def dropLeaf (d : Dev) (r : ObjRef) : Dev :=
  let d' := subRef d r
  if idle d' r then freeEntry d' r else d'

/-- An idle object's entry freed, with what it holds: an import drops its tack, a heap-backed object its allocation and its heap
(R365, R381, R389). -/
def settle (s : State) (r : ObjRef) : State :=
  if idle s.dev r then
    let e := s.dev.entry r
    let s1 := s.upd (fun d => freeEntry d r)
    match e.payload with
    | .imported t => s1.upd (fun d => dropLeaf d ⟨2, t⟩)
    | .memObj va _ (some h) =>
      let s2 := match (s1.dev.entry ⟨6, h⟩).payload with
        | .heap b l n => (match heapFree s1 e.owner b l n va with | .ok s' => s' | _ => s1)
        | _ => s1
      s2.upd (fun d => dropLeaf d ⟨6, h⟩)
    | _ => s1
  else s

/-- DREF lowered by one, and the entry freed when both counts are 0 (R365). -/
def dropRef (s : State) (r : ObjRef) : State := settle (s.upd (fun d => subRef d r)) r

/-- Every reference of a list dropped. -/
def dropRefs (s : State) (rs : List ObjRef) : State := rs.foldl dropRef s

/-- HREF set to 0 (R368), and the entry freed when DREF is 0. -/
def releaseObj (s : State) (r : ObjRef) : State := settle (s.upd (fun d => d.modEntry r (fun e => { e with href := false }))) r

/-- The live objects of a table that satisfy a test, as references. -/
def liveOf (typ base : Nat) (t : Table) (f : Entry → Bool) : List ObjRef :=
  (t.entries.filter (fun e => e.2.live && f e.2)).map (fun e => ⟨if typ = 0 then e.2.payload.typ else typ, base + e.1⟩)

end Sys2Proof.Machine
end

