-- ==== Sys2Proof/Machine/Operands.lean ====
section
/-! DEFINITION. Operand layouts: packet headers and references (R250 to R253), the opcode table's lengths (R289 to R306), the work
layout (R279 to R283), TILING and items (R307 to R316), region records (R192), port bindings (R285) and descriptors (R203). -/

namespace Sys2Proof.Machine

/-! ## Headers (R250) -/

def hOpc (w0 : Word) : Nat := fld w0 63 56
def hCls (w0 : Word) : Nat := fld w0 55 52
/-- Number of granules of the packet. -/
def hGran (w0 : Word) : Nat := fld w0 51 50 + 1
def hRply (w0 : Word) : Nat := fld w0 49 48
def hSeq (w0 : Word) : Nat := fld w0 47 16
def hTag (w0 : Word) : Nat := fld w0 15 0
def hPsel (w1 : Word) : Nat := fld w1 63 59
def hPneg (w1 : Word) : Bool := bitOf w1 58
def hPen (w1 : Word) : Bool := bitOf w1 57
def hWen (w1 : Word) : Bool := bitOf w1 56
def hWait (w1 : Word) : Nat := fld w1 55 48
def hSen (w1 : Word) : Bool := bitOf w1 47
def hSadd (w1 : Word) : Bool := bitOf w1 46
def hSig (w1 : Word) : Nat := fld w1 45 38

namespace Pkt
def w0 (p : Pkt) : Word := wordAt p.words 0
def w1 (p : Pkt) : Word := wordAt p.words 1
/-- Body word Bi. -/
def b (p : Pkt) (i : Nat) : Word := wordAt p.words (2 + i)
/-- Number of body words. -/
def nbody (p : Pkt) : Nat := 8 * hGran p.w0 - 2
/-- PMASK bit i. -/
def pmask (p : Pkt) (i : Nat) : Bool := decide (i < 30) && bitOf p.w1 i
def isCtl (p : Pkt) : Bool := match p.q with | .ctl _ => true | .work _ => false
end Pkt

/-- QUEUE of a record: the instance queue number, 0xFFF for the control queue (R566). -/
def qnum : QRef → Nat
  | .ctl _ => 0xFFF
  | .work n => n

/-! ## The opcode tables (R289, R294, R297, R298, R301, R302, R306) -/

/-- One row of a class table: class, opcode, permitted LEN codes, permitted bits of each body word (a word not listed must be 0),
result word, function 0 only, handle words with the types they accept and whether they are held. -/
structure OpRow where
  cls : Nat
  opc : Nat
  lens : List Nat := [0]
  masks : List (Nat × Word) := []
  result : Bool := false
  f0 : Bool := false
  handles : List (Nat × List Nat × Bool) := []
  deriving DecidableEq, Repr

/-- All bits of a word. -/
def allW : Word := BitVec.allOnes 64
/-- Bits [n − 1 : 0]. -/
def lowW (n : Nat) : Word := BitVec.ofNat 64 (2 ^ n - 1)

def rowCtxCreate : OpRow := { cls := 0, opc := 0x01, masks := [(0, allW), (1, allW), (2, allW)], result := true }
def rowCtxConfig : OpRow := { cls := 0, opc := 0x02, masks := [(0, 0x703FF#64), (1, allW), (2, allW), (3, allW)] }
def rowCtxDestroy : OpRow := { cls := 0, opc := 0x03, masks := [(0, 0x3FF#64)] }
def rowQueueCreate : OpRow := { cls := 0, opc := 0x04, masks := [(0, 0xFFFFFFFFFF800000#64), (1, allW)], result := true }
def rowQueueDestroy : OpRow := { cls := 0, opc := 0x05, masks := [(0, 0xFF#64)] }
def rowGangCreate : OpRow :=
  { cls := 0, opc := 0x06, lens := [1], masks := (0, 3#64) :: (List.range 8).map (fun i => (i + 1, allW)), result := true }
def rowGangDestroy : OpRow := { cls := 0, opc := 0x07, masks := [(0, 0xFF#64)] }
def rowResume : OpRow := { cls := 0, opc := 0x08, masks := [(0, 0x3FF#64)] }
def rowFwLoad : OpRow := { cls := 0, opc := 0x09, masks := [(0, allW), (1, allW)], f0 := true }
def rowResetDevice : OpRow := { cls := 0, opc := 0x0A, f0 := true }
def rowFuncReset : OpRow := { cls := 0, opc := 0x0B, masks := [(0, 0xFF#64)], f0 := true }
def rowPartClear : OpRow := { cls := 0, opc := 0x0C, masks := [(0, 0xF3#64)], f0 := true }
def rowRetire : OpRow := { cls := 0, opc := 0x0D, masks := [(0, 0xF#64), (1, allW)], f0 := true }
def rowInsert : OpRow := { cls := 0, opc := 0x0E, masks := [(0, 0xF#64), (1, allW)], f0 := true }
def rowHealth : OpRow := { cls := 0, opc := 0x0F, masks := [(0, allW)] }
def rowSpdm : OpRow := { cls := 0, opc := 0x10, masks := [(0, allW), (1, allW), (2, allW), (3, allW)], result := true }
def rowCopy : OpRow := { cls := 1, opc := 0x01, masks := [(0, allW), (1, allW), (2, allW)] }
def rowFill : OpRow := { cls := 1, opc := 0x02, masks := [(0, allW), (1, allW), (2, allW)] }
def rowAccClear : OpRow := { cls := 1, opc := 0x03, masks := [(0, allW), (1, allW)] }
def rowStats : OpRow := { cls := 1, opc := 0x04, masks := [(0, allW), (1, allW), (2, allW), (3, allW), (4, 0xFF#64)] }
def rowDescWrite : OpRow := { cls := 1, opc := 0x05, lens := [3], masks := (List.range 26).map (fun i => (i, allW)) }
/-- Every word of the work layout is defined (R279); its fields are checked by `WorkL.ok`. -/
def workMasks : List (Nat × Word) := (List.range 30).map (fun i => (i, allW))
def holdHandles : List (Nat × List Nat × Bool) := [(27, [1], true), (28, [1], true), (29, [1], true)]
def rowMatmul : OpRow := { cls := 2, opc := 0x01, lens := [3], masks := workMasks, handles := (23, [3], true) :: holdHandles }
def rowFabLoad : OpRow := { cls := 3, opc := 0x01, masks := [(0, allW), (1, 1#64)] }
def rowFabRun : OpRow := { cls := 3, opc := 0x02, lens := [3], masks := workMasks, handles := holdHandles }
def rowChain : OpRow := { cls := 4, opc := 0x01, lens := [3], masks := workMasks, handles := (23, [3], true) :: holdHandles }
def rowBar : OpRow := { cls := 5, opc := 0x01, masks := [(0, 7#64)] }
def rowSeam : OpRow := { cls := 5, opc := 0x02, masks := [(0, allW), (1, 1#64)], handles := [(0, [4], true)] }
def rowTackWait : OpRow := { cls := 5, opc := 0x03, masks := [(0, allW), (1, allW)], handles := [(0, [2, 7], true)] }
def rowTackSignal : OpRow :=
  { cls := 5, opc := 0x04, masks := [(0, allW), (1, allW)], result := true, handles := [(0, [2, 7], true)] }
def rowTackAdd : OpRow :=
  { cls := 5, opc := 0x05, masks := [(0, allW), (1, allW)], result := true, handles := [(0, [2, 7], true)] }
def rowBobbinSet : OpRow :=
  { cls := 5, opc := 0x06, masks := [(0, allW), (1, lowW 32), (2, lowW 32)], handles := [(0, [3], true)] }
def rowObjCreate : OpRow := { cls := 6, opc := 0x01, masks := [(0, allW), (1, allW)], result := true }
def rowObjRelease : OpRow := { cls := 6, opc := 0x02, masks := [(0, allW)], handles := [(0, [1, 2, 3, 4, 5, 6, 7], false)] }
def rowTackCreate : OpRow := { cls := 6, opc := 0x03, masks := [(0, 3#64), (1, allW)], result := true }
def rowTackExport : OpRow := { cls := 6, opc := 0x04, masks := [(0, allW), (1, 0xFF#64)], handles := [(0, [2], false)] }
def rowTackImport : OpRow := { cls := 6, opc := 0x05, masks := [(0, 0xFF#64), (1, lowW 32)], result := true }
def rowBobbinCreate : OpRow := { cls := 6, opc := 0x06, masks := [(0, 3#64)], result := true }
def rowSeamCreate : OpRow := { cls := 6, opc := 0x07, masks := [(0, 3#64)], result := true }
def rowHeapSetup : OpRow := { cls := 6, opc := 0x08, masks := [(0, allW), (1, allW), (2, allW)], result := true }
def rowAlloc : OpRow := { cls := 6, opc := 0x09, masks := [(0, allW), (1, allW)], result := true, handles := [(0, [6], true)] }
def rowFree : OpRow := { cls := 6, opc := 0x0A, masks := [(0, allW), (1, allW)], handles := [(0, [6], true)] }
def rowXlateInval : OpRow := { cls := 6, opc := 0x0B, masks := [(0, allW), (1, allW)] }
def rowQuery : OpRow := { cls := 6, opc := 0x0C, masks := [(0, allW)] }
def rowPatternDefine : OpRow := { cls := 7, opc := 0x01, masks := [(0, allW), (1, allW)], result := true }
def rowReplay : OpRow := { cls := 7, opc := 0x02, masks := [(0, allW)], handles := [(0, [5], true)] }
def rowPatch : OpRow := { cls := 7, opc := 0x03, lens := [0, 1, 2, 3], masks := (0, 0x1FFF#64) :: (List.range 29).map (fun i => (i + 1, allW)) }
def rowLoop : OpRow :=
  { cls := 7, opc := 0x04, masks := [(0, allW), (1, 0xFFFFFFFFF#64), (2, allW), (3, allW), (4, allW), (5, allW)] }
def rowEndloop : OpRow := { cls := 7, opc := 0x05 }
def rowPredCmp : OpRow := { cls := 7, opc := 0x06, masks := [(0, 0x71F#64), (1, allW), (2, allW)] }
def rowPredClip : OpRow := { cls := 7, opc := 0x07, masks := [(0, allW), (1, allW), (2, allW), (3, 0x1FFFFF#64)] }
def rowMark : OpRow := { cls := 8, opc := 0x01, result := true }
def rowFitting : OpRow := { cls := 8, opc := 0x02, masks := [(0, 0x3FF#64), (1, 0x800000FFFFFFFFFF#64), (2, allW)] }

/-- Every opcode that the command reference defines (R251). -/
def opRows : List OpRow :=
  [rowCtxCreate, rowCtxConfig, rowCtxDestroy, rowQueueCreate, rowQueueDestroy, rowGangCreate, rowGangDestroy, rowResume,
   rowFwLoad, rowResetDevice, rowFuncReset, rowPartClear, rowRetire, rowInsert, rowHealth, rowSpdm] ++
  [rowCopy, rowFill, rowAccClear, rowStats, rowDescWrite, rowMatmul, rowFabLoad, rowFabRun, rowChain, rowBar, rowSeam,
   rowTackWait, rowTackSignal, rowTackAdd, rowBobbinSet] ++
  [rowObjCreate, rowObjRelease, rowTackCreate, rowTackExport, rowTackImport, rowBobbinCreate, rowSeamCreate, rowHeapSetup,
   rowAlloc, rowFree, rowXlateInval, rowQuery] ++
  [rowPatternDefine, rowReplay, rowPatch, rowLoop, rowEndloop, rowPredCmp, rowPredClip, rowMark, rowFitting]

/-- The row of a class and opcode, if it is defined. -/
def rowOf (cls opc : Nat) : Option OpRow := opRows.find? (fun r => r.cls == cls && r.opc == opc)

/-- The class and opcode of a packet are a row's. -/
def Pkt.isOp (p : Pkt) (r : OpRow) : Bool := hCls p.w0 == r.cls && hOpc p.w0 == r.opc

/-- Does the opcode use the work layout (R279). -/
def OpRow.work (r : OpRow) : Bool := r == rowMatmul || r == rowFabRun || r == rowChain

/-- Is the opcode multicast to the gang (R275, R288, R306). -/
def OpRow.multi (r : OpRow) : Bool :=
  r.work || r == rowCopy || r == rowFill || r == rowAccClear || r == rowStats || r == rowFabLoad || r == rowBar || r == rowSeam ||
  r == rowMark || r == rowFitting

/-- Index of the result word: the last body word (R277). -/
def resultIdx (r : OpRow) : Nat := if r.lens = [1] then 13 else 5

/-- Reserved words and bits are 0 (R274): every body word but the result word fits its mask. -/
def bodyOk (r : OpRow) (p : Pkt) : Bool :=
  (List.range p.nbody).all (fun i => (r.result && i == resultIdx r) || (p.b i &&& ~~~(Tbl.get 0 i r.masks)) == 0)

/-- The result word is well formed (R277): reserved bits 0, and REN 0 on the control queue. -/
def resultOk (r : OpRow) (p : Pkt) : Bool :=
  !r.result || (let w := p.b (resultIdx r); fld w 63 9 == 0 && !(p.isCtl && bitOf w 8))

/-- The register a result is to be written to (R277). -/
def resultReg (r : OpRow) (p : Pkt) : Option Nat :=
  if r.result && bitOf (p.b (resultIdx r)) 8 then some (fld (p.b (resultIdx r)) 7 0) else none

/-! ## Step 1 of R254 -/

/-- The checks of step 1 on a packet of a queue kind (`control`): the refusal, or none. -/
def step1 (control : Bool) (p : Pkt) : Option Status :=
  match rowOf (hCls p.w0) (hOpc p.w0) with
  | none => some .badOpcode
  | some r =>
    if (r.cls == 0) != control then some .badOpcode
    else if !r.lens.contains (hGran p.w0 - 1) then some .badParam
    else if fld p.w1 37 30 != 0 then some .badParam
    else if control && p.w1 != 0 then some .badParam
    else if (fld p.w1 29 0) / 2 ^ p.nbody != 0 then some .badParam
    else if (hWen p.w1 && hWait p.w1 == 255) || (hSen p.w1 && hSig p.w1 == 255) then some .badParam
    else none

/-! ## The work layout (R279, R280) -/

/-- CTRL and the body words of a work packet, field by field. -/
structure WorkL where
  ndesc : Nat
  nreg : Nat
  nva : Nat
  plane : Nat
  pop : Bool
  accInit : Nat
  accHold : Bool
  orientA : Bool
  orientB : Bool
  hlo : Nat
  bundle : Nat
  vas : List Word
  cblock : Nat
  mext : Nat
  next : Nat
  kext : Nat
  kbeg : Nat
  kcnt : Nat
  iter : Nat
  push : Nat
  stats : Nat
  swa : Nat
  swb : Nat
  sw0 : Nat
  sw1 : Nat
  bobbin : Nat
  fa : FDesc
  fb : FDesc
  fo : FDesc
  tiling : Word
  resv : Bool
  deriving DecidableEq, Repr

/-- The work layout read from body words (R279, R280). `ndesc`, `nreg` are the counts, 1 added. -/
def WorkL.ofBody (b : List Word) : WorkL :=
  let c := wordAt b 0
  let n (i : Nat) : Nat := (wordAt b i).toNat
  { ndesc := fld c 63 58 + 1, nreg := fld c 57 54 + 1, nva := fld c 53 50, plane := fld c 49 49, pop := bitOf c 48
    accInit := fld c 47 46, accHold := bitOf c 45, orientA := bitOf c 44, orientB := bitOf c 43, hlo := fld c 39 32
    bundle := n 1, vas := (List.range 8).map (fun i => wordAt b (2 + i)), cblock := n 10
    mext := n 11, next := n 12, kext := n 13, kbeg := n 14, kcnt := n 15, iter := n 16, push := n 17, stats := n 18
    swa := n 19, swb := n 20, sw0 := n 21, sw1 := n 22, bobbin := n 23
    fa := .ofNat (fld (wordAt b 24) 31 0), fb := .ofNat (fld (wordAt b 24) 63 32), fo := .ofNat (fld (wordAt b 25) 31 0)
    tiling := wordAt b 26
    resv := fld c 42 40 != 0 || fld c 31 0 != 0 || fld (wordAt b 25) 63 32 != 0 }

/-- HLO as a signed number (R280). -/
def hloInt (h : Nat) : Int := sext 8 h

/-- ACC_INIT codes (R118): 0 ZERO, 1 LOAD, 2 RETAIN, 3 reserved. -/
def accLoad : Nat := 1
def accRetain : Nat := 2

/-! ## TILING and items (R307 to R312) -/

structure Tiling where
  otm : Nat
  otn : Nat
  kstep : Nat
  olo : Bool
  fold : Bool
  ilo : Bool
  kord : Bool
  grp : Nat
  take : Nat
  pmode : Bool
  pinN : Nat
  resv : Nat
  deriving DecidableEq, Repr

/-- The TILING word with OTM, OTN and GRP at their values after the added 1 (R308, R310). -/
def Tiling.ofWord (w : Word) : Tiling :=
  { otm := fld w 63 60 + 1, otn := fld w 59 56 + 1, kstep := fld w 55 48, olo := bitOf w 47, fold := bitOf w 46
    ilo := bitOf w 45, kord := bitOf w 44, grp := fld w 43 28 + 1, take := fld w 27 25, pmode := bitOf w 24
    pinN := fld w 23 14, resv := fld w 13 0 }

/-- MT, NT of R310. -/
def tilesM (dim : Nat) (w : WorkL) : Nat := ceilDiv w.mext ((Tiling.ofWord w.tiling).otm * dim)
def tilesN (dim : Nat) (w : WorkL) : Nat := ceilDiv w.next ((Tiling.ofWord w.tiling).otn * dim)

/-- The item count GRP × MT × NT. -/
def itemCount (dim : Nat) (w : WorkL) : Nat := (Tiling.ofWord w.tiling).grp * tilesM dim w * tilesN dim w

/-- Item v: its group and outer-tile origin (R310). -/
def itemAt (dim : Nat) (w : WorkL) (v : Nat) : Nat × Nat × Nat :=
  let t := Tiling.ofWord w.tiling
  let mt := tilesM dim w
  let nt := tilesN dim w
  let mp := if t.fold then mt else t.grp * mt
  let np := if t.fold then t.grp * nt else nt
  let (a, c) := if t.olo then (v % mp, v / mp) else (v / np, v % np)
  let (g, i, j) := if t.fold then (c / nt, a, c % nt) else (a / mt, a % mt, c)
  (g, i * t.otm * dim, j * t.otn * dim)

/-- The operand step length (R312). -/
def stepLen (w : WorkL) : Nat :=
  let k := (Tiling.ofWord w.tiling).kstep * 32
  if k = 0 ∨ w.kcnt ≤ k then w.kcnt else k

/-- The number of operand steps S. -/
def stepCount (w : WorkL) : Nat := ceilDiv w.kcnt (stepLen w)

/-- First K index of the i-th operand step taken, by KORD. -/
def stepStart (w : WorkL) (i : Nat) : Nat :=
  let s := if (Tiling.ofWord w.tiling).kord then stepCount w - 1 - i else i
  w.kbeg + s * stepLen w

/-- End of the i-th operand step's K range, cut at min(KEXT, KBEG + KCNT) (R313). -/
def stepEnd (w : WorkL) (i : Nat) : Nat := min (stepStart w i + stepLen w) (min w.kext (w.kbeg + w.kcnt))

/-- The inner tiles of an item in ILO order: origins of those that are computed (R311). -/
def innerTiles (dim : Nat) (w : WorkL) (m0 n0 : Nat) : List (Nat × Nat) :=
  let t := Tiling.ofWord w.tiling
  let all := if t.ilo then (List.range t.otn).flatMap (fun j => (List.range t.otm).map (fun i => (m0 + i * dim, n0 + j * dim)))
    else (List.range t.otm).flatMap (fun i => (List.range t.otn).map (fun j => (m0 + i * dim, n0 + j * dim)))
  all.filter (fun x => decide (x.1 < w.mext) && decide (x.2 < w.next))

/-- The items of the member of rank r under pinned assignment (R326). -/
def pinnedItems (dim : Nat) (w : WorkL) (r : Nat) : List Nat :=
  let t := Tiling.ofWord w.tiling
  let n := itemCount dim w
  if t.pmode then (List.range (ceilDiv n (max 1 t.pinN))).filterMap (fun i => let v := r + i * t.pinN; if v < n then some v else none)
  else
    let b := ceilDiv n (max 1 t.pinN)
    (List.range b).filterMap (fun i => let v := r * b + i; if v < n then some v else none)

/-- Fields that must be 0 for an opcode (R283). -/
def zeroFields (row : OpRow) (w : WorkL) (b : List Word) : Bool :=
  if row == rowMatmul then w.plane == 0 && w.iter == 0 && w.sw0 == 0 && w.sw1 == 0
  else if row == rowFabRun then
    w.mext == 0 && w.next == 0 && w.kext == 0 && w.kbeg == 0 && w.kcnt == 0 && w.swa == 0 && w.swb == 0 && w.bobbin == 0 &&
    wordAt b 24 == 0 && wordAt b 25 == 0 && w.tiling == 0 && w.accInit == 0 && !w.accHold && !w.orientA && !w.orientB && w.hlo == 0
  else true

/-- TILING under R309, R122, R125 and R327 for a gang of `n` present members (n ≥ 1). -/
def tilingOk (dim n : Nat) (w : WorkL) : Bool :=
  let t := Tiling.ofWord w.tiling
  let items := itemCount dim w
  let pinned := w.bobbin == 0
  let single := pinned && t.otm == 1 && t.otn == 1 && decide (items ≤ t.pinN)
  t.resv == 0 &&
  (pinned || (!t.pmode && t.pinN == 0)) &&
  (!pinned || (t.take == 0 && t.pinN != 0)) &&
  !(decide (0 < t.kstep * 32) && decide (t.kstep * 32 < w.kcnt) && (t.otm != 1 || t.otn != 1)) &&
  decide (items ≤ 2 ^ 32 - 1) &&
  (!w.accHold || single) && (w.accInit != accRetain || single) &&
  (!pinned || t.pinN == n)

/-- Step 6 for a work packet (R36, R51, R46, R65, R72, R73, R101, R118, R122, R281, R283, R309, R327, R565). -/
def workOk (dim n : Nat) (row : OpRow) (b : List Word) : Bool :=
  let w := WorkL.ofBody b
  !w.resv && decide (w.nva ≤ 8) && decide (w.nva ≤ w.ndesc) &&
  (List.range 8).all (fun i => if i < w.nva then fld (wordAt w.vas i) 63 52 == 0 else wordAt w.vas i == 0) &&
  aligned 64 w.bundle && aligned 64 w.cblock && aligned 64 w.stats && aligned 64 w.swa && aligned 64 w.swb && aligned 64 w.sw0 && aligned 64 w.sw1 &&
  zeroFields row w b &&
  (row == rowMatmul || (decide (1 ≤ w.iter) && decide (w.iter < 2 ^ 32))) &&
  (row == rowFabRun ||
    (decide (w.accInit < 3) && aligned 32 w.kbeg && decide (1 ≤ w.kcnt) && decide (w.kbeg + w.kcnt ≤ w.kext) &&
     w.fa.ok .feeder && w.fb.ok .feeder && w.fo.ok .drain && pairOk w.fa w.fb &&
     (w.swa == 0 || w.fa.fmt.isCodebook) && (w.swb == 0 || w.fb.fmt.isCodebook) && tilingOk dim n w))

/-! ## Region records (R192) and port bindings (R285) -/

/-- A region record, field by field; `nb` and `ns` have their 1 added. -/
structure RegRec where
  bank : Nat
  nb : Nat
  width : Nat
  cont : Bool
  prod : Nat
  cons0 : Nat
  cons1 : Nat
  ns : Nat
  segb : Nat
  resv : Nat
  deriving DecidableEq, Repr

def RegRec.ofWord (w : Word) : RegRec :=
  { bank := fld w 63 58, nb := fld w 57 52 + 1, width := fld w 51 49, cont := bitOf w 48, prod := fld w 47 44
    cons0 := fld w 43 40, cons1 := fld w 39 36, ns := fld w 35 28 + 1, segb := fld w 27 12 * 64, resv := fld w 11 0 }

/-- Bank word width in bytes (R188). -/
def RegRec.bytes (r : RegRec) : Nat := 4 * 2 ^ r.width
def RegRec.consumes (r : RegRec) (u : Nat) : Bool := r.cons0 == u || r.cons1 == u
/-- The consumers of a region. -/
def RegRec.consumers (r : RegRec) : List Nat := [r.cons0, r.cons1].filter (· != 0)

/-- A port binding of R285. -/
structure PortBind where
  fdesc : FDesc
  region : Nat
  en : Bool
  swst : Nat
  sregion : Nat
  off : Nat
  stride : Nat
  count : Nat
  resv : Nat
  deriving DecidableEq, Repr

def PortBind.ofWords (w0 w1 : Word) : PortBind :=
  { fdesc := .ofNat (fld w0 63 32), region := fld w0 31 28, en := bitOf w0 27, swst := fld w0 26 26, sregion := fld w0 25 22
    off := fld w1 63 40, stride := fld w1 39 32, count := fld w1 31 0, resv := fld w0 21 0 }

/-- Port binding n of a command block of 64-bit words. -/
def portBind (block : List Word) (n : Nat) : PortBind := .ofWords (wordAt block (16 + 2 * n)) (wordAt block (17 + 2 * n))

/-! ## Descriptors (R203) -/

structure Desc where
  kind : Nat
  gen : Nat
  fmt : Nat
  layout : Nat
  mc : Nat
  ndim : Nat
  kdim : Nat
  region : Nat
  bseq : Nat
  pair : Nat
  rlen : Nat
  va : Nat
  text : List Nat
  ext : List Nat
  org : List Nat
  stride : List Nat
  mcmask : Nat
  mcbase : Nat
  resv : Bool
  deriving DecidableEq, Repr

/-- A descriptor from its eight words (R203). `ndim` has its 1 added; STRIDE0 stands as 0. -/
def Desc.ofWords (ws : List Word) : Desc :=
  let w := wordAt ws
  { kind := fld (w 0) 63 60, gen := fld (w 0) 59 44, fmt := fld (w 0) 43 40, layout := fld (w 0) 39 38, mc := fld (w 0) 37 36
    ndim := fld (w 0) 35 34 + 1, kdim := fld (w 0) 33 32, region := fld (w 0) 31 28, bseq := fld (w 0) 27 20
    pair := fld (w 0) 19 14, rlen := fld (w 0) 13 0, va := fld (w 1) 51 0
    text := [fld (w 2) 31 0, fld (w 2) 63 32, fld (w 3) 31 0, fld (w 3) 63 32]
    ext := [fld (w 7) 15 0, fld (w 7) 31 16, fld (w 7) 47 32, fld (w 7) 63 48]
    org := [fld (w 5) 47 46, fld (w 5) 49 48, fld (w 5) 51 50, fld (w 5) 53 52]
    stride := [0, fld (w 4) 45 0, fld (w 5) 45 0, fld (w 6) 45 0]
    mcmask := fld (w 4) 63 48, mcbase := fld (w 5) 63 54
    resv := fld (w 1) 63 52 != 0 || fld (w 4) 47 46 != 0 || fld (w 6) 63 46 != 0 }

namespace Desc
def dim (xs : List Nat) (d : Nat) : Nat := xs.getD d 0
/-- The element format; a reserved code is refused at copy (R209). -/
def efmt (x : Desc) : Fmt := (Fmt.ofCode x.fmt).getD .bf16
def bits (x : Desc) : Nat := x.efmt.bits
/-- Kinds that fill a region (R205). -/
def fills (x : Desc) : Bool := x.kind == 0 || x.kind == 3 || x.kind == 4 || x.kind == 6
/-- Kinds that drain a region. -/
def drains (x : Desc) : Bool := x.kind == 1 || x.kind == 2 || x.kind == 5
/-- Row pitch p of R206 and R207, in bytes. -/
def pitch (x : Desc) : Nat := if x.rlen = 0 then ceilDiv (dim x.ext 0 * x.bits) 8 else x.rlen * 8
/-- Stored rows of the window: EXT3 × EXT2 × EXT1. -/
def rows (x : Desc) : Nat := dim x.ext 3 * dim x.ext 2 * dim x.ext 1
/-- The footprint of R208. -/
def footprint (x : Desc) : Nat := x.rows * x.pitch
end Desc

end Sys2Proof.Machine
end

