-- ==== Sys2Proof/Machine/Ops.lean ====
section
/-! DEFINITION. Shared operations of queues and acceptance: stopping a queue, the packet that comes next, the steps of R254 and how
a packet leaves them (R252 to R256, R261 to R264, R366, R367, R402), the spool (R222, R223). -/

namespace Sys2Proof.Machine

/-! ## Packets in flight -/

/-- The packet of a queue with this number rewritten. -/
def Dev.modPkt (d : Dev) (q : QRef) (uid : Nat) (f : Pkt → Pkt) : Dev :=
  d.modQueue q (fun x => { x with flight := x.flight.map (fun p => if p.uid == uid then f p else p) })

/-- The packet of a queue with this number. -/
def Dev.pkt (d : Dev) (q : QRef) (uid : Nat) : Option Pkt := (d.queue q).flight.find? (fun p => p.uid == uid)

/-- The object of handle word B0. -/
def objB0 (p : Pkt) : ObjRef := ⟨fld (p.b 0) 31 28, fld (p.b 0) 19 0⟩

/-- Every queue that exists: control queues written so far, and live work queues, by reference (R30). -/
def Dev.queueRefs (d : Dev) : List QRef :=
  (Tbl.keys (fun q => q.live) d.queues).map QRef.work ++ (d.ctls.map (·.1)).map QRef.ctl

/-- Accepted and not yet retired (R255): a `REPLAY` whose packets are still being accepted has not ended step 10. -/
def Pkt.counts (p : Pkt) : Bool := p.stage == .left && (p.fate == .accepted || p.fate == .skipped)

/-- The packet has not left R254, apart from a `REPLAY` that waits for its own packets (R262). -/
def Pkt.inside (p : Pkt) : Bool := p.stage != .left && !(p.stage == .atTen && p.isOp rowReplay)

/-- The packet is the replay in progress. -/
def Pkt.replaying (p : Pkt) : Bool := p.stage == .atTen && p.isOp rowReplay

/-- A replayed packet that is still inside R254 when its replay ends: it is not accepted any more (R262). It goes silently, and what it holds is
dropped with the references of completed packets. -/
def dropped (p : Pkt) : Pkt :=
  if p.parent.isSome && p.stage != .left then
    { p with stage := .left, fate := .refused, done := true, quiet := true, holds := p.holds ++ p.waitHold.toList, waitHold := none
             pendReg := none, pendPred := none, sigTack := none, ownTack := none }
  else p

/-- The spool entries of a context after packets of a queue were dropped: what they pushed is gone, what they bound is free (R222, R223). -/
def unbind (uids : List Nat) (x : Ctx) : Ctx :=
  { x with spool := (x.spool.filter (fun e => !uids.contains e.pushUid)).map (fun e =>
      if (match e.popUid with | some u => uids.contains u | none => false) then { e with popUid := none } else e) }

/-- Packets of a replay that are inside R254. -/
def droppedUids (x : Queue) : List Nat := (x.flight.filter (fun p => p.parent.isSome && p.stage != .left)).map (·.uid)

/-- The replay in progress ends: its packet ends step 10, behind the packets it replayed, and completes (R262). -/
def endReplay (d : Dev) (q : QRef) : Dev :=
  match (d.queue q).replay with
  | none => d
  | some r =>
    let d0 := if (droppedUids (d.queue q)).isEmpty then d else d.modCtx (d.queue q).ctx (unbind (droppedUids (d.queue q)))
    let d1 := d0.modQueue q (fun x => { x with
      replay := none
      accepted := x.accepted + 1
      flight := (x.flight.filter (fun p => p.uid != r.uid)).map dropped ++
        (x.flight.filter (fun p => p.uid == r.uid)).map (fun p => { p with stage := .left, fate := .accepted, done := true }) })
    let c := (d.queue q).ctx
    d1.modCtx c (fun x => { x with usage := { x.usage with accepted := x.usage.accepted + 1 } })

/-- A queue stops with a status: FAILED where the case sets it, STOP_STATUS only when it was RUNNING, no packet of a replay after it
(R256, R262). -/
def stopQueue (d : Dev) (q : QRef) (st : Nat) (failed : Bool) : Dev :=
  let x := d.queue q
  if x.state == .absent then d
  else
    let d1 := d.setQueue q { x with
      failed := x.failed || failed
      state := .stopped
      stopStatus := if x.state == .running then BitVec.ofNat 8 st else x.stopStatus }
    endReplay d1 q

/-- A packet leaves R254 refused: it completes, drops a wait's hold, and stops its queue (R254, R256, R367). -/
def refusePkt (s : State) (q : QRef) (uid : Nat) (st : Status) (detail : Word) : State :=
  let hold := (s.dev.pkt q uid).bind (·.waitHold)
  let s1 := match hold with | some r => dropRef s r | none => s
  s1.upd (fun d => stopQueue (d.modPkt q uid (fun p =>
    { p with stage := .left, fate := .refused, done := true, status := st, detail := detail, waitHold := none, holds := [],
             pendReg := none, pendPred := none, sigTack := none, ownTack := none })) q st.code true)

/-- Counts of an accepted packet: Q_ACCEPTED for a ring packet, ACCEPTED of its context for every one (R243, R391). -/
def countAccepted (d : Dev) (q : QRef) (p : Pkt) : Dev :=
  let d1 := if p.parent.isNone then d.modQueue q (fun x => { x with accepted := x.accepted + 1 }) else d
  if p.isCtl then d1 else d1.modCtx p.ctx (fun x => { x with usage := { x.usage with accepted := x.usage.accepted + 1 } })

/-- A packet ends step 4 or step 10: it leaves R254 accepted or skipped. `f` sets its results. -/
def leavePkt (d : Dev) (q : QRef) (uid : Nat) (fate : Fate) (f : Pkt → Pkt) : Dev :=
  match d.pkt q uid with
  | none => d
  | some p => countAccepted (d.modPkt q uid (fun p => f { p with stage := .left, fate := fate })) q p

/-! ## The fault records of a dispatch unit (R402) -/

/-- A fault of an access that a dispatch unit made for a packet. -/
def dFault (d : Dev) (q : QRef) (p : Pkt) (x : XFault) : Dev :=
  d.fault p.func { x.info with ctx := if p.isCtl then 0x3FF else p.ctx, queue := qnum q, seq := p.seq.toNat, subidx := p.subidx,
                               tag := hTag p.w0 }

/-! ## The next packet of a queue -/

/-- A new packet as it enters R254. -/
def newPkt (q : QRef) (x : Queue) (uid : Nat) (seq : BitVec 32) (subidx : Nat) (words : List Word) (parent : Option Nat) : Pkt :=
  { uid := uid, q := q, seq := seq, subidx := subidx, words := words, func := x.func, ctx := x.ctx, stage := .entered, fate := .open
    parent := parent, waitHold := none, waitVal := 0, waitEnded := false, pendReg := none, pendPred := none, sigTack := none, ownTack := none, holds := []
    value := 0, predVal := false, members := [], waiting := [], copied := [], mixed := false, mcastMismatch := false, done := false
    status := .done, core := 0x3FF, nfail := 0, detail := 0, replySub := subidx, quiet := false, push := none, pop := none, time := 0
    reach := [], spoiled := false }

/-- Slots of a queue's ring (R243, R566). -/
def Queue.depth (x : Queue) : Nat := 2 ^ x.depthLog2

/-- The first word of a packet and as many granules as it names, read by the dispatch unit (R263, R402). -/
def readPacket (s : State) (panel ctx va : Nat) : Except XFault (List Word) := do
  let g ← dRead s panel ctx va 64
  let n := hGran (BitVec.ofNat 64 (leNat (g.take 8)))
  let rest ← dRead s panel ctx (va + 64) (64 * (n - 1))
  pure (bytesToWords (8 * n) (g ++ rest))

/-- What that read leaves behind. -/
def packetTouch (s : State) (panel ctx va : Nat) : State :=
  let s1 := dTouch s panel ctx va 64 .read
  match dRead s panel ctx va 64 with
  | .error _ => s1
  | .ok g => dTouch s1 panel ctx (va + 64) (64 * (hGran (BitVec.ofNat 64 (leNat (g.take 8))) - 1)) .read

/-- A ring slot's packet: from the dispatch unit for a control queue (R566), from device memory for a work queue. -/
def readSlot (s : State) (q : QRef) (x : Queue) (idx : BitVec 32) : Except XFault (List Word) :=
  match q with
  | .ctl _ => .ok (Tbl.get [] (idx.toNat % x.depth) x.slots)
  | .work _ => readPacket s x.home x.ctx (x.ringVa + 256 * (idx.toNat % x.depth))

/-- What reading a ring slot leaves behind. -/
def slotTouch (s : State) (q : QRef) (x : Queue) (idx : BitVec 32) : State :=
  match q with
  | .ctl _ => s
  | .work _ => packetTouch s x.home x.ctx (x.ringVa + 256 * (idx.toNat % x.depth))

/-- What reading a queue's next packet leaves behind. -/
def nextTouch (s : State) (q : QRef) : State :=
  let x := s.dev.queue q
  match x.replay with
  | some r => packetTouch s x.home x.ctx r.nextVa
  | none => slotTouch s q x x.entered

/-- Is bring-up stopped at ERROR 3, where the control queue accepts `FW_LOAD` and `RESET_DEVICE` only (R471). -/
def Dev.error3 (d : Dev) : Bool := d.boot.error == 3 && !d.boot.inReset

/-- The instance accepts packets of this queue at all: in service, or function 0's control queue at ERROR 3; the function is not in
reset (R436, R471). -/
def unitOpen (d : Dev) (q : QRef) : Bool :=
  (d.inService || (d.error3 && q == .ctl 0)) && !(d.fn (d.queue q).func).inReset

/-- A packet inside R254 may go on: its queue is RUNNING (R255, R256). -/
def mayGoOn (d : Dev) (q : QRef) : Bool := unitOpen d q && (d.queue q).state == .running

/-- Acceptance of the queue's next packet may begin (R255): no quiesce stops the work queues (R478), and no partition-scope episode holds the
queue (R331). -/
def mayBegin (d : Dev) (q : QRef) : Bool :=
  let x := d.queue q
  mayGoOn d q && (match q with | .ctl _ => true | .work _ => d.mc.quiesce.isNone && x.seamHolds.isEmpty) &&
  !(x.flight.any Pkt.inside) && decide ((x.flight.filter Pkt.counts).length < x.readAhead)

/-! ## The arbiter of a dispatch unit (R29, R34, R445) -/

/-- Dispatch weight of a function: DW of an entry in force with EN = 1, else 0 (R444, R445). -/
def dispWeight (d : Dev) (f : Nat) : Nat := let q := (d.fn f).qosNow; if bitOf q 63 then fld q 55 48 else 0

/-- Functions weighted at dispatch, of those the device has state for. -/
def dispWeighted (d : Dev) : List Nat := (d.funcs.map (·.1)).filter (fun f => decide (0 < dispWeight d f))

/-- Index of a queue in an arbiter (R30). -/
def queueIndex : QRef → Nat
  | .work n => n
  | .ctl f => 4096 + f

/-- Acceptance of one packet of the queue starts at its home panel: the function is charged one credit, after a reload of every credit when
its own is used up, and the pointers move to it (R445). -/
def dispCharge (d : Dev) (q : QRef) : Dev :=
  let x := d.queue q
  let f := x.func
  let w := dispWeight d f
  d.modPanel x.home (fun n =>
    let c0 := if 0 < w ∧ Tbl.get 0 f n.dispCredits = 0 then
        (dispWeighted d).foldl (fun t g => Tbl.set g (dispWeight d g) t) n.dispCredits else n.dispCredits
    { n with
      dispLast := f
      dispQueue := Tbl.set f (queueIndex q) n.dispQueue
      dispCredits := if 0 < w then Tbl.set f (Tbl.get 0 f c0 - 1) c0 else c0 })

/-- A queue homed at the panel asks its dispatch unit for an acceptance start (R255, R445). -/
def requests (d : Dev) (panel : Nat) (q : QRef) : Bool :=
  let x := d.queue q
  x.home == panel && mayBegin d q && (x.replay.isSome || x.entered != x.posted)

/-- The queue that the arbiter of a panel grants in a cycle in which every queue that may begin requests: a weighted function with credit
left where a weighted function requests, else any; then the functions and the queues of the one chosen in turn (R445). -/
def dispPick (d : Dev) (panel : Nat) : Option QRef :=
  let qs := d.queueRefs.filter (requests d panel)
  let n := d.panel panel
  let fs := qs.map (fun q => (d.queue q).func)
  let ws := fs.filter (fun f => decide (0 < dispWeight d f))
  let live := ws.filter (fun f => Tbl.get 0 f n.dispCredits != 0)
  (turn (if ws.isEmpty then fs else if live.isEmpty then ws else live) n.dispLast 256).bind (fun f =>
    let mine := qs.filter (fun q => (d.queue q).func == f)
    (turn (mine.map queueIndex) (Tbl.get 4351 f n.dispQueue) 4352).bind (fun i => mine.find? (fun q => queueIndex q == i)))

/-- What the dispatch unit finds for a queue: nothing to do, a packet inside R254 to go on with, a fault of a ring or pattern read,
or the words of the packet that enters next with its SEQ, SUBIDX and `REPLAY`. -/
inductive NextPkt where
  | none
  | again (p : Pkt)
  | ringFault (x : XFault) (seq : BitVec 32)
  | patFault (x : XFault) (r : Replay) (seq : BitVec 32)
  | enter (words : List Word) (seq : BitVec 32) (subidx : Nat) (parent : Option Nat)

/-- SEQ of a packet in flight. -/
def seqOf (x : Queue) (uid : Nat) : BitVec 32 :=
  match x.flight.find? (fun p => p.uid == uid) with
  | some p => p.seq
  | none => 0

/-- The next packet of a queue (R254, R255, R262): a new one only in the queue's turn (R29, R34, R445). -/
def nextPkt (s : State) (q : QRef) : NextPkt :=
  let x := s.dev.queue q
  match x.flight.find? Pkt.inside with
  | some p => if mayGoOn s.dev q && p.stage != .multicast then .again p else .none
  | none =>
    if !mayBegin s.dev q || dispPick s.dev x.home != some q then .none
    else match x.replay with
    | some r =>
      match readPacket s x.home x.ctx r.nextVa with
      | .ok ws => .enter ws (seqOf x r.uid) r.next (some r.uid)
      | .error f => .patFault f r (seqOf x r.uid)
    | Option.none =>
      if x.entered == x.posted then .none
      else match readSlot s q x x.entered with
        | .ok ws => .enter ws x.entered 0xFFFF Option.none
        | .error f => .ringFault f x.entered

/-- The packet put into flight: a ring packet advances the ring cursor, a replayed one the pattern cursor (R254, R262). -/
def enterPkt (d : Dev) (q : QRef) (words : List Word) (seq : BitVec 32) (subidx : Nat) (parent : Option Nat) : Dev × Nat :=
  let uid := d.nextUid
  let x := d.queue q
  let x1 := { x with flight := x.flight ++ [newPkt q x uid seq subidx words parent] }
  let x2 := match parent, x.replay with
    | some _, some r => { x1 with replay := some { r with next := r.next + 1, nextVa := r.nextVa + 64 * hGran (wordAt words 0) } }
    | _, _ => { x1 with entered := x.entered + 1 }
  ({ d.setQueue q x2 with nextUid := uid + 1 }, uid)

/-- The packet begins acceptance: it enters flight and its function is charged (R254, R445). -/
def startPkt (d : Dev) (q : QRef) (words : List Word) (seq : BitVec 32) (subidx : Nat) (parent : Option Nat) : Dev × Nat :=
  let (d1, uid) := enterPkt d q words seq subidx parent
  (dispCharge d1 q, uid)

/-! ## Waits on tacks (R367, R372, R375, R377) -/

/-- A packet inside R254 waits on the tack of a slot: at step 3, or as a `TACK_WAIT` at step 10. -/
def waitsOn (d : Dev) (slot : Nat) (p : Pkt) : Bool :=
  let isTack (r : ObjRef) : Bool := tackOf d r == ⟨2, slot⟩
  (p.stage == .entered && (match p.waitHold with | some r => isTack r | none => false)) ||
  (p.stage == .atTen && p.isOp rowTackWait && isTack (objB0 p))

/-- The value that a waiting packet awaits. -/
def awaited (p : Pkt) : Word := if p.stage == .atTen then p.b 1 else p.waitVal

/-- The tack of a slot has taken a value: every wait for a value that it has reached by then has ended (R372, R375). -/
def endWaits (d : Dev) (slot : Nat) (c : Word) : Dev :=
  { d with queues := Tbl.mapv (fun x => { x with
      flight := x.flight.map (fun p => if waitsOn d slot p && reached c (awaited p) then { p with waitEnded := true } else p) }) d.queues }

/-- A SIGNAL or an ADD (R373, R374, R382): the device, and whether a SIGNAL regressed. A broken tack keeps its value. -/
def tackAct (d : Dev) (r : ObjRef) (add : Bool) (v : Word) : Dev × Bool :=
  let (c, broken) := tackVal d r
  if broken then (d, false)
  else if add then (endWaits (setTack d r (c + v)) (tackOf d r).slot (c + v), false)
  else if decide (0 < signedDiff v c) then (endWaits (setTack d r v) (tackOf d r).slot v, false)
  else (d, true)

/-! ## Registers and pending writes (R252, R253, R278) -/

def ctxReg (d : Dev) (c r : Nat) : Word := Tbl.get 0 r (d.ctx c).params
def setReg (d : Dev) (c r : Nat) (v : Word) : Dev := d.modCtx c (fun x => { x with params := Tbl.set r v x.params })
def ctxPred (d : Dev) (c r : Nat) : Bool := (d.ctx c).preds.getLsbD r
def setPred (d : Dev) (c r : Nat) (b : Bool) : Dev :=
  d.modCtx c (fun x => { x with preds := (x.preds &&& ~~~(1#32 <<< r)) ||| (if b then 1#32 <<< r else 0) })

/-- A pending write by an accepted, unretired packet of the context (R252). -/
def pendingOf (d : Dev) (c : Nat) (f : Pkt → Bool) : Bool :=
  d.queueRefs.any (fun q => (d.queue q).flight.any (fun p => p.ctx == c && p.fate == .accepted && !p.isCtl && f p))
def regPending (d : Dev) (c r : Nat) : Bool := pendingOf d c (fun p => p.pendReg == some r)
def predPending (d : Dev) (c r : Nat) : Bool := pendingOf d c (fun p => p.pendPred == some r)

/-- A reference resolved (R253): register PREG plus the sign-extended addend. -/
def resolve (d : Dev) (c : Nat) (w : Word) : Word :=
  ctxReg d c (fld w 7 0) + BitVec.ofInt 64 (sext 56 (fld w 63 8))

/-- Body words with every reference resolved (step 5). -/
def resolved (d : Dev) (p : Pkt) : List Word :=
  (List.range (2 + p.nbody)).map (fun i =>
    if decide (2 ≤ i) && p.pmask (i - 2) then resolve d p.ctx (wordAt p.words i) else wordAt p.words i)

/-- Registers a `PATCH` writes, from its resolved B0 (R278, R303). -/
def patchRegs (b0 : Word) : List Nat := (List.range (fld b0 12 8 + 1)).map (fun i => fld b0 7 0 + i)

/-- Step 2 of R254: no pending write to a register or predicate the packet reads, or that a `PATCH` writes (R252, R278). -/
def step2 (d : Dev) (p : Pkt) : Bool :=
  let free (r : Nat) : Bool := !regPending d p.ctx r
  p.isCtl ||
  ((List.range p.nbody).all (fun i => !p.pmask i || free (fld (p.b i) 7 0)) &&
   (!hWen p.w1 || (free (hWait p.w1) && free (hWait p.w1 + 1))) &&
   (!hSen p.w1 || (free (hSig p.w1) && free (hSig p.w1 + 1))) &&
   (!hPen p.w1 || !predPending d p.ctx (hPsel p.w1)) &&
   (!p.isOp rowPatch || (patchRegs (if p.pmask 0 then resolve d p.ctx (p.b 0) else p.b 0)).all free))

/-! ## Step 3 (R254, R367, R372, R382) -/

/-- The answer of step 3: go on, keep waiting with the hold taken, or a refusal. -/
inductive Wait3 where
  | pass (d : Dev)
  | hold (d : Dev)
  | bad (st : Status)

/-- A register value as a handle: bits [63:32] must be 0 (R276). -/
def regHandle (w : Word) : Nat := if fld w 63 32 = 0 then fld w 31 0 else 0

/-- Step 3 for a packet: the check on first entry, then the wait. A `pass` still holds the tack until the caller drops it. -/
def step3 (prm : Params) (d : Dev) (q : QRef) (p : Pkt) : Wait3 :=
  if p.isCtl || !hWen p.w1 then .pass d
  else
    let start : Except Status (ObjRef × Word × Dev) := match p.waitHold with
      | some r => .ok (r, p.waitVal, d)
      | none =>
        match checkHandle prm d [2, 7] p.func p.ctx (regHandle (ctxReg d p.ctx (hWait p.w1))) with
        | .error st => .error st
        | .ok r =>
          let v := ctxReg d p.ctx (hWait p.w1 + 1)
          .ok (r, v, (addRef d r).modPkt q p.uid (fun p => { p with waitHold := some r, waitVal := v }))
    match start with
    | .error st => .bad st
    | .ok (r, v, d1) =>
      let (c, broken) := tackVal d1 r
      if p.waitHold.isSome && p.waitEnded then .pass d1
      else if broken then .bad .tackBroken
      else if reached c v then .pass d1 else .hold d1

/-! ## The spool (R222, R223) -/

/-- End of the highest allocated entry: the spool top (R222, R357). -/
def spoolTop (x : Ctx) : Nat := x.spool.foldl (fun m e => max m (e.off + e.size)) 0

/-- The topmost entry not yet bound to a pop, bound to the packet. -/
def bindPop (x : Ctx) (uid : Nat) : Option (Nat × Ctx) :=
  match (x.spool.filter (fun e => e.popUid.isNone)).getLast? with
  | none => none
  | some e => some (e.off, { x with spool := x.spool.map (fun f => if f.off == e.off then { f with popUid := some uid } else f) })

/-- An entry of `n` bytes pushed by the packet; none when it passes the end of the spool region. -/
def pushEntry (x : Ctx) (uid n : Nat) : Option (Nat × Ctx) :=
  let off := spoolTop x
  let size := ceilDiv n 65536 * 65536
  if x.spoolSize < off + size then none
  else
    let x1 : Ctx := { x with spool := x.spool ++ [⟨off, size, uid, n, none⟩] }
    some (off, { x1 with spoolPeak := max x.spoolPeak (spoolTop x1) })

/-- Step 8 of R254: the pop first, then the push; a push without room undoes the pop. The error is DETAIL of OUT_OF_SPOOL. -/
def step8 (x : Ctx) (uid push : Nat) (pop : Bool) : Except Word (Option Nat × Option Nat × Ctx) :=
  let bound : Except Word (Option Nat × Ctx) :=
    if pop then (match bindPop x uid with | some (o, x1) => .ok (some o, x1) | none => .error 0) else .ok (none, x)
  match bound with
  | .error e => .error e
  | .ok (po, x1) =>
    if push = 0 then .ok (none, po, x1)
    else match pushEntry x1 uid push with
      | some (o, x2) => .ok (some o, po, x2)
      | none => .error (BitVec.ofNat 64 push)

/-! ## Step 7 (R362, R276, R366) -/

/-- Handle words of a row that name something: a word of 0 names nothing and is not checked (R276). -/
def namedHandles (row : OpRow) (p : Pkt) : List (Nat × List Nat × Bool) := row.handles.filter (fun h => p.b h.1 != 0)

/-- Bits [63:32] of every handle word are 0 (R276). -/
def handleWordsOk (row : OpRow) (p : Pkt) : Bool := row.handles.all (fun h => fld (p.b h.1) 63 32 == 0)

/-- The objects of the handle words, with whether each is held, or the first check that fails (R362). -/
def checkHandles (prm : Params) (d : Dev) (row : OpRow) (p : Pkt) : Except Status (List (ObjRef × Bool)) :=
  (namedHandles row p).mapM (fun h => do
    let r ← checkHandle prm d h.2.1 p.func p.ctx (fld (p.b h.1) 31 0)
    pure (r, h.2.2))

/-- The SIGNAL_TACK action read at acceptance (R257): handle check, generation, value. -/
def sigAction (prm : Params) (d : Dev) (p : Pkt) : Except Status (Option TackAct) :=
  if p.isCtl || !hSen p.w1 then .ok none
  else match checkHandle prm d [2, 7] p.func p.ctx (regHandle (ctxReg d p.ctx (hSig p.w1))) with
    | .error st => .error st
    | .ok r => .ok (some ⟨r, (d.entry r).gen, ctxReg d p.ctx (hSig p.w1 + 1), hSadd p.w1⟩)

/-! ## The steps of R254 -/

/-- How step 10 ends or waits. -/
inductive Ten where
  /-- step 10 goes on waiting -/
  | wait (s : State)
  /-- executed by dispatch: the packet completes -/
  | done (s : State) (f : Pkt → Pkt)
  /-- accepted; the management controller reports later -/
  | later (s : State)
  /-- refused at step 10: it stops its queue at once -/
  | refuse (s : State) (st : Status) (detail : Word)
  /-- accepted and failed: it stops its queue when it retires -/
  | fail (s : State) (st : Status)
  /-- steps 1 to 9 passed; to be multicast -/
  | mcast (s : State)

/-- What an opcode adds to R254: its own check at step 6, its own refusal at step 7, its execution at step 10. -/
structure OpSem where
  row : OpRow
  check : State → Pkt → Bool
  own : State → Pkt → Option Status
  exec : State → Pkt → Ten

/-- The gang of a queue. -/
def gangOf (d : Dev) (q : QRef) : Gang := d.gang (d.queue q).home (d.queue q).gang

/-- After a replayed packet has left R254: the replay ends behind its last packet (R262). -/
def replayNext (d : Dev) (q : QRef) : Dev :=
  match (d.queue q).replay with
  | some r => if r.count ≤ r.next then endReplay d q else d
  | none => d

/-! ## Hardware loops of a replay (R264) -/

/-- Index and address of the packet after the `ENDLOOP` that matches an open `LOOP`, from headers as they read now (R263). -/
def scanEnd (s : State) (panel ctx depth i va : Nat) : Nat → Except XFault (Option (Nat × Nat))
  | 0 => .ok none
  | fuel + 1 =>
    match dRead s panel ctx va 8 with
    | .error x => .error x
    | .ok bs =>
      let w0 := BitVec.ofNat 64 (leNat bs)
      let va' := va + 64 * hGran w0
      let isL := hCls w0 == 7 && hOpc w0 == 4
      let isE := hCls w0 == 7 && hOpc w0 == 5
      if isE && depth == 0 then .ok (some (i + 1, va'))
      else scanEnd s panel ctx (if isL then depth + 1 else if isE then depth - 1 else depth) (i + 1) va' fuel

/-- The matching `ENDLOOP` of the `LOOP` a replay has just taken. -/
def loopEnd (s : State) (q : QRef) : Except XFault (Option (Nat × Nat)) :=
  let x := s.dev.queue q
  match x.replay with
  | none => .ok none
  | some r => scanEnd s x.home x.ctx 0 r.next r.nextVa (r.count - r.next)

/-- What the search for the matching `ENDLOOP` leaves behind. -/
def scanTouch (panel ctx depth va : Nat) : Nat → State → State
  | 0, s => s
  | fuel + 1, s =>
    let s1 := dTouch s panel ctx va 8 .read
    match dRead s panel ctx va 8 with
    | .error _ => s1
    | .ok bs =>
      let w0 := BitVec.ofNat 64 (leNat bs)
      let isL := hCls w0 == 7 && hOpc w0 == 4
      let isE := hCls w0 == 7 && hOpc w0 == 5
      if isE && depth == 0 then s1
      else scanTouch panel ctx (if isL then depth + 1 else if isE then depth - 1 else depth) (va + 64 * hGran w0) fuel s1

/-- The same for the replay of a queue. -/
def loopTouch (s : State) (q : QRef) : State :=
  let x := s.dev.queue q
  match x.replay with
  | none => s
  | some r => scanTouch x.home x.ctx 0 r.nextVa (r.count - r.next) s

/-- The pattern cursor moved. -/
def jump (d : Dev) (q : QRef) (dst : Nat × Nat) : Dev :=
  d.modQueue q (fun x => { x with replay := x.replay.map (fun r => { r with next := dst.1, nextVa := dst.2 }) })

/-- The innermost loop closed: its registers are restored (R264). -/
def popLoop (d : Dev) (q : QRef) : Dev :=
  match (d.queue q).replay with
  | none => d
  | some r =>
    match r.loops with
    | [] => d
    | f :: fs =>
      let c := (d.queue q).ctx
      (f.saved.foldl (fun d e => setReg d c e.1 e.2) d).modQueue q (fun x => { x with replay := some { r with loops := fs } })

/-- A skipped `LOOP` acts as one of count 0, a skipped `ENDLOOP` as the last iteration's; a pattern read that faults meanwhile (R402). -/
def loopSkip (s : State) (q : QRef) (p : Pkt) : Except XFault Dev :=
  if p.parent.isNone then .ok s.dev
  else if p.isOp rowLoop then
    (match loopEnd s q with | .ok (some dst) => .ok (jump s.dev q dst) | .ok none => .ok s.dev | .error x => .error x)
  else if p.isOp rowEndloop then .ok (popLoop s.dev q)
  else .ok s.dev

/-- A packet that dispatch executed leaves R254 accepted and complete, with the results that `f` sets (R254, R262). -/
def finish (s : State) (q : QRef) (uid : Nat) (f : Pkt → Pkt) : State :=
  s.upd (fun d => replayNext (leavePkt d q uid .accepted (fun p => f { p with done := true })) q)

/-- Step 10 carried out (R254). A dispatch-executed packet completes when it leaves. -/
def runTen (sem : OpSem) (s : State) (q : QRef) (p : Pkt) : State :=
  match sem.exec s p with
  | .wait s1 => s1.upd (fun d => d.modPkt q p.uid (fun p => { p with stage := .atTen }))
  | .mcast s1 => s1.upd (fun d => d.modPkt q p.uid (fun p => { p with stage := .multicast }))
  | .later s1 => s1.upd (fun d => leavePkt d q p.uid .accepted id)
  | .done s1 f => finish s1 q p.uid f
  | .fail s1 st => finish s1 q p.uid (fun p => { p with status := st })
  | .refuse s1 st det =>
    refusePkt (dropRefs s1 (match s1.dev.pkt q p.uid with | some p' => p'.holds | none => [])) q p.uid st det

/-- The skipped packet of step 4: it keeps its header's tack action where the handle is good (R254, R257). -/
def skipPkt (prm : Params) (d : Dev) (q : QRef) (p : Pkt) : Dev :=
  let act := match sigAction prm d p with | .ok a => a | .error _ => none
  leavePkt d q p.uid .skipped (fun p => { p with done := true, status := .skipped, sigTack := act })

/-- How far R254 takes a packet in one go: to step 10, with the state and the packet as steps 1 to 9 leave them, or to an end or a wait
before it. -/
inductive Reach where
  | out (s : State)
  | ten (s : State) (p : Pkt)

/-- The hold of a wait at step 3 given up. -/
def dropWait (s : State) (q : QRef) (uid : Nat) : Option ObjRef → State
  | none => s
  | some r => (dropRef s r).upd (fun d => d.modPkt q uid (fun p => { p with waitHold := none, waitEnded := false }))

/-- Steps 5 to 9 for a packet that passed step 4. The hold of its wait, if it waited, ends with step 9, when the tack has its own (R366, R367). -/
def steps5 (sem : OpSem) (s0 : State) (q : QRef) (p0 : Pkt) (waited : Option ObjRef) : Reach :=
  let p := { p0 with words := if p0.isCtl then p0.words else resolved s0.dev p0 }
  let s := s0.upd (fun d => d.modPkt q p.uid (fun x => { x with words := p.words }))
  if sem.row.multi && (present s.dev (gangOf s.dev q)).isEmpty then .out (refusePkt s q p.uid .coreRetired 0)
  else if !(bodyOk sem.row p && resultOk sem.row p && handleWordsOk sem.row p && sem.check s p) then .out (refusePkt s q p.uid .badParam 0)
  else if sem.row.f0 && p.func != 0 then .out (refusePkt s q p.uid .notOwner 0)
  else match checkHandles s.params s.dev sem.row p with
  | .error st => .out (refusePkt s q p.uid st 0)
  | .ok objs =>
    match sem.own s p with
    | some st => .out (refusePkt s q p.uid st 0)
    | none =>
      match sigAction s.params s.dev p with
      | .error st => .out (refusePkt s q p.uid st 0)
      | .ok sig =>
        let w := WorkL.ofBody (p.words.drop 2)
        match (if sem.row.work then step8 (s.dev.ctx p.ctx) p.uid w.push w.pop else .ok (none, none, s.dev.ctx p.ctx)) with
        | .error det => .out (refusePkt s q p.uid .outOfSpool det)
        | .ok (po, pp, x) =>
          let holds := (objs.filter (·.2)).map (·.1) ++ (match sig with | some a => [a.ref] | none => []) ++ waited.toList
          let own := objs.head?.map (fun o => (⟨o.1, (s.dev.entry o.1).gen, p.b 1, sem.row == rowTackAdd⟩ : TackAct))
          let isOwn := sem.row == rowTackSignal || sem.row == rowTackAdd
          let p1 := { p with holds := holds, sigTack := sig, ownTack := if isOwn then own else none, push := po, pop := pp
                             pendReg := resultReg sem.row p, waitHold := none, waitEnded := false }
          let s1 := s.upd (fun d => (holds.foldl addRef (if sem.row.work then d.setCtx p.ctx x else d)).modPkt q p.uid (fun _ => p1))
          .ten (match waited with | some r => dropRef s1 r | none => s1) p1

/-- Steps 2 to 9 of R254 for a packet in flight that has passed step 1. -/
def steps2 (sem : OpSem) (s : State) (q : QRef) (p : Pkt) : Reach :=
  if p.stage == .atTen then .ten s p
  else if !step2 s.dev p then .out s
  else match step3 s.params s.dev q p with
  | .bad st => .out (refusePkt s q p.uid st 0)
  | .hold d => .out (s.withDev d)
  | .pass d =>
    let s1 := s.withDev d
    let waited := (d.pkt q p.uid).bind (·.waitHold)
    if !p.isCtl && hPen p.w1 && (ctxPred d p.ctx (hPsel p.w1) == hPneg p.w1) then
      let s2 := dropWait (if p.parent.isSome && p.isOp rowLoop then loopTouch s1 q else s1) q p.uid waited
      match loopSkip s2 q p with
      | .error x => .out (refusePkt (s2.upd (fun d => dFault d q p x)) q p.uid .permFault 0)
      | .ok d2 => .out (s2.upd (fun _ => replayNext (skipPkt s.params d2 q { p with waitHold := none }) q))
    else steps5 sem s1 q p waited

/-- Is `p` a packet this row may carry on: its own opcode, or one that no row defines. -/
def rowTakes (row : OpRow) (p : Pkt) : Bool := p.isOp row || (rowOf (hCls p.w0) (hOpc p.w0)).isNone

/-- Step 1 for a queue: R471 narrows the control queue at ERROR 3; a packet of a pattern must not be a `REPLAY` (R261). -/
def step1For (d : Dev) (q : QRef) (p : Pkt) : Option Status :=
  match q with
  | .ctl _ =>
    if d.error3 && !(p.isOp rowFwLoad || p.isOp rowResetDevice) then some .badOpcode else step1 true p
  | .work _ => if p.parent.isSome && p.isOp rowReplay then some .badParam else step1 false p

/-- The references of a queue's completed packets are dropped (R366). -/
def dropDone (s : State) (q : QRef) : State :=
  let held := ((s.dev.queue q).flight.filter (·.done)).flatMap (·.holds)
  if held.isEmpty then s
  else dropRefs (s.upd (fun d => d.modQueue q (fun x =>
    { x with flight := x.flight.map (fun p => if p.done then { p with holds := [] } else p) }))) held

/-- The dispatch unit takes the queue's next packet through steps 1 to 9 of R254 as far as it goes, when its opcode is the row's. -/
def reach (sem : OpSem) (q : QRef) (s : State) : Reach :=
  match nextPkt s q with
  | .none => .out s
  | .again p => if rowTakes sem.row p then steps2 sem s q p else .out s
  | .ringFault x seq =>
    let y := s.dev.queue q
    .out ((nextTouch s q).upd (fun d => stopQueue (d.fault y.func { x.info with ctx := y.ctx, queue := qnum q, seq := seq.toNat, subidx := 0xFFFF }) q
      Status.permFault.code false))
  | .patFault x r seq =>
    let y := s.dev.queue q
    let s1 := nextTouch s q
    let d1 := s1.dev.fault y.func { x.info with ctx := y.ctx, queue := qnum q, seq := seq.toNat, subidx := r.next }
    let (d2, uid) := startPkt d1 q [0, 0] seq r.next (some r.uid)
    .out (refusePkt (s1.withDev d2) q uid .permFault 0)
  | .enter ws seq sub parent =>
    let s1 := nextTouch s q
    let (d1, uid) := startPkt s1.dev q ws seq sub parent
    let p := newPkt q (s.dev.queue q) uid seq sub ws parent
    if !rowTakes sem.row p then .out s
    else match step1For s.dev q p with
    | some st => .out (refusePkt (s1.withDev d1) q uid st 0)
    | none => steps2 sem (s1.withDev d1) q p

/-- Step 10 too. -/
def acceptStep (sem : OpSem) (q : QRef) (s : State) : State :=
  match reach sem q s with
  | .out s1 => s1
  | .ten s1 p => runTen sem s1 q p

/-- A packet row: `acceptStep`, after which completed packets hold nothing. A packet of another row, or none that may begin, leaves
the state as it is. -/
def acceptRow (sem : OpSem) (q : QRef) (s : State) : State := dropDone (acceptStep sem q s) q

/-- No check of its own at step 6. -/
def noCheck : State → Pkt → Bool := fun _ _ => true
/-- No refusal of its own at step 7. -/
def noOwn : State → Pkt → Option Status := fun _ _ => none
/-- Step 10 of a multicast opcode. -/
def toCores : State → Pkt → Ten := fun s _ => .mcast s

end Sys2Proof.Machine
end

