-- ==== Sys2Proof/Machine/Flags.lean ====
section
/-! DEFINITION. Status words and register reads: the register window of R240 to R243, R265, R421 to R427, R431, R432, R439, R444
and R452, and which window accesses are served (R241, R464, R471, R436). -/

namespace Sys2Proof.Machine

/-! ## Window layout (R240) -/

/-- Parts of a function's window. -/
inductive Area where
  | ident (o : Nat)
  | ctlQ (o : Nat)
  | resetPage (o : Nat)
  | partTable (o : Nat)
  | qosTable (o : Nat)
  | workQ (win o : Nat)
  | rings (o : Nat)
  | intr (o : Nat)
  | ctxRing (c o : Nat)
  | reserved
  deriving DecidableEq, Repr

/-- The part an offset lies in. -/
def areaOf (off : Nat) : Area :=
  if off < 0x1000 then .ident off
  else if off < 0x2000 then .ctlQ (off - 0x1000)
  else if off < 0x4000 then .resetPage (off - 0x2000)
  else if off < 0x8000 then .partTable (off - 0x4000)
  else if off < 0x10000 then .qosTable (off - 0x8000)
  else if off < 0xF0000 then .workQ ((off - 0x10000) / 4096) (off % 4096)
  else if off < 0xF1000 then .rings (off - 0xF0000)
  else if off < 0xF2000 then .intr (off - 0xF1000)
  else if off < 0xF4000 then .reserved
  else if off < 0xFC000 then .ctxRing ((off - 0xF4000) / 32) (off % 32)
  else .reserved

/-- Function 0 only (R240, R420). -/
def Area.f0only : Area → Bool
  | .resetPage _ | .partTable _ | .qosTable _ => true
  | _ => false

/-- Is an access to a part of a function's window served: the target channel (R454), bring-up state (R471), VF_EN (R464), function 0 only (R241). -/
def served0 (d : Dev) (f : Nat) (a : Area) : Bool :=
  decide (f < 256) && !d.boot.inReset && d.boot.targetReady &&
  (f == 0 || (!a.f0only && d.opts.vfEn)) &&
  (d.boot.ready ||
    (f == 0 && (match a with
      | .ident _ | .resetPage _ => true
      | .ctlQ _ => d.boot.error == 3
      | .rings o => d.boot.error == 3 && decide (0x20 ≤ o) && decide (o < 0x40)
      | _ => false)))

/-- During a function reset only FUNC_STATUS is read, and nothing is written (R436 step 1). -/
def frozenFn (d : Dev) (f : Nat) : Bool := (d.fn f).inReset

/-! ## Identity (R242) -/

/-- Cores in service now. -/
def activeCores (d : Dev) : Nat := (d.logical.filter (fun e => e.2 != 0)).length

def idDevice (d : Dev) : Word :=
  place 0x4B33 48 ||| place 0x03 40 ||| place Config.rtlMajor.toNat 32 ||| place Config.rtlMinor.toNat 24 |||
  place (d.mc.ucode % 256) 16 ||| place (d.mc.mcFw % 65536) 0

def idParams (p : Params) (d : Dev) : Word :=
  place p.panels 52 ||| place p.rows 48 ||| place p.opuDim 40 ||| place p.fabricRows 32 ||| place p.tileMem 28 |||
  place p.stackPorts 24 ||| placeB p.hostCoupled 23 ||| place (if d.opts.extEn then p.extPorts else 0) 19 |||
  place (activeCores d) 9

def idClock (d : Dev) : Word :=
  place d.opts.grade 60 ||| place d.opts.cclkMhz 48 ||| place d.opts.powerCap 32 ||| place d.opts.lifecycle 29 |||
  placeB d.opts.safe 28 ||| placeB d.opts.extEn 27 ||| placeB d.opts.peerEn 26 ||| placeB d.opts.vfEn 25

/-- Work queue windows of a function that hold a queue. -/
def nwq (d : Dev) (f : Nat) : Nat := ((d.fn f).windows.filter (fun e => e.2 != 0)).length
/-- Context slots owned by a function. -/
def nctx (d : Dev) (f : Nat) : Nat := (d.ctxs.filter (fun e => e.2.live && e.2.owner == f)).length

def idFunction (d : Dev) (f : Nat) : Word := place (f % 256) 56 ||| place (nwq d f) 48 ||| place (nctx d f) 37

/-! ## Queues (R243) -/

def QState.code : QState → Nat
  | .absent => 0 | .running => 1 | .stopped => 2

def qStatus (x : Queue) (num : Nat) : Word :=
  place num 20 ||| place x.state.code 16 ||| place x.stopStatus.toNat 8 ||| placeB x.malformed 3 ||| placeB x.overrun 2 |||
  placeB x.failed 1

def qConfig (x : Queue) : Word :=
  place (x.ctx % 1024) 54 ||| place (x.home % 4) 52 ||| place (x.gang % 64) 46 ||| place (x.depthLog2 % 16) 40 |||
  place (x.readAhead % 2048) 29

/-- A register of a queue window. -/
def readQueue (x : Queue) (num o : Nat) : Word :=
  match o with
  | 0x100 => qStatus x num
  | 0x108 => place x.posted.toNat 0
  | 0x110 => place x.accepted.toNat 0
  | 0x118 => place x.retired.toNat 0
  | 0x120 => qConfig x
  | _ => 0

/-- The queue that a window of a function holds. -/
def windowQ (d : Dev) (f win : Nat) : Option QRef :=
  if win = 0xFFFF then some (.ctl f)
  else match Tbl.get 0 win (d.fn f).windows with
    | 0 => none
    | n + 1 => some (.work n)

/-! ## The reset page (R452) -/

def resetCause (a : Aon) : Word := place (a.phase % 16) 12 ||| place (a.cause % 16) 0

def optStatus (a : Aon) : Word :=
  place (min a.loadAborts 255) 56 ||| place (a.lastLc % 8) 45 ||| place (a.source % 4) 34 ||| placeB a.bOk 33 ||| placeB a.aOk 32 |||
  place a.crc.toNat 0

def bringupStatus (b : Boot) : Word :=
  placeB b.ready 63 ||| placeB b.warm 62 ||| place (b.error % 16) 52 ||| place (b.linkFull % 16) 48 |||
  place (b.fetchFailed % 1024) 32 ||| place (b.gussets % 1024) 22 ||| place (b.phase % 16) 12 ||| place (min b.elapsedMs 4095) 0

def readResetPage (d : Dev) (o : Nat) : Word :=
  match o with
  | 8 => resetCause d.aon
  | 16 => place d.aon.resetCount.toNat 0
  | 24 => optStatus d.aon
  | 32 => bringupStatus d.boot
  | _ => 0

/-! ## Partition table, function entries, grants, QoS (R421 to R427, R431, R444) -/

/-- A grant of the function is FENCED. -/
def wiping (d : Dev) (f : Nat) : Bool := d.grants.any (fun e => e.2.state == 2 && e.2.owner == f)

def funcEntry (d : Dev) (f : Nat) : Word :=
  let x := d.fn f
  placeB x.inReset 63 ||| placeB (wiping d f) 62 ||| place x.vecBase 21 ||| place x.vecCount 14

def readPartTable (p : Params) (d : Dev) (o : Nat) : Word :=
  if o < 0x200 then (if o / 128 < p.panels then d.part (o / 128) (o / 8 % 16) else 0)
  else if o = 0x200 then d.partStatus
  else if 0x800 ≤ o ∧ o < 0x1000 then funcEntry d ((o - 0x800) / 8)
  else if 0x1000 ≤ o ∧ o < 0x3000 then
    let g := d.grant ((o - 0x1000) / 16)
    if o / 8 % 2 = 0 then g.w0 else g.w1
  else 0

def readQos (d : Dev) (o : Nat) : Word := if o < 0x1000 ∧ o % 16 = 0 then (d.fn (o / 16)).qos else 0

/-! ## Rings and interrupts (R265, R432, R439) -/

def readRing (r : Ring) (lost : Bool) (o : Nat) : Word :=
  match o with
  | 0 => r.cfg
  | 8 => place r.head.toNat 0
  | 16 => place r.tail.toNat 0
  | 24 => if lost then place r.lost.toNat 0 else 0
  | _ => 0

def funcStatus (d : Dev) (f : Nat) : Word :=
  placeB (wiping d f) 2 ||| placeB (d.fn f).inReset 1 ||| placeB (d.fn f).resetDone 0

/-- The context slot is owned by the function. -/
def ownsCtx (d : Dev) (f c : Nat) : Bool := (d.ctx c).live && (d.ctx c).owner == f

/-- Byte c of CTX_VEC as the function reads it (R432). -/
def ctxVecByte (d : Dev) (f c : Nat) : Byte := if ownsCtx d f c then Tbl.get 0 c (d.fn f).ctxVec else 0

def readIntr (d : Dev) (f o : Nat) : Word :=
  let x := d.fn f
  if o = 0 then placeB x.intEn 7 ||| place x.vecCount 0
  else if o = 8 then x.intMask
  else if o = 16 then x.intPend
  else if o = 24 then x.causeVec
  else if o = 32 then funcStatus d f
  else if 0x400 ≤ o ∧ o < 0x800 then
    BitVec.ofNat 64 (leNat ((List.range 8).map (fun i => ctxVecByte d f (o - 0x400 + i))))
  else 0

/-! ## A read of a register (R241) -/

/-- The contents of an aligned 8-byte register of a function's window, as served. -/
def readArea (p : Params) (d : Dev) (f : Nat) : Area → Word
  | .ident o =>
    match o with
    | 0 => idDevice d
    | 8 => idParams p d
    | 16 => idClock d
    | 24 => idFunction d f
    | _ => 0
  | .ctlQ o => readQueue (d.queue (.ctl f)) 0xFFF o
  | .resetPage o => readResetPage d o
  | .partTable o => readPartTable p d o
  | .qosTable o => readQos d o
  | .workQ win o =>
    match windowQ d f win with
    | some q => readQueue (d.queue q) (qnum q) o
    | none => 0
  | .rings o =>
    if o < 0x20 then readRing (d.fn f).faultRing false o
    else if o < 0x40 then readRing (d.fn f).ctlRing true (o - 0x20)
    else 0
  | .intr o => readIntr d f o
  | .ctxRing c o => if ownsCtx d f c then readRing (d.ctx c).ring true o else 0
  | .reserved => 0

/-- A read of `n` bytes at an offset of a function's window: an aligned 8-byte read of a served register gives its contents, any
other read gives 0 (R241, R436, R464, R471). -/
def readReg (s : State) (f off n : Nat) : Word :=
  let a := areaOf off
  if n = 8 ∧ aligned 8 off ∧ served0 s.dev f a ∧ (!frozenFn s.dev f || off == 0xF1020) then readArea s.params s.dev f a else 0

end Sys2Proof.Machine
end

