-- ==== Sys2Proof/Machine/Control.lean ====
section
/-! DEFINITION. Control packets that dispatch executes: contexts, queues and gangs (R289 to R293, R355 to R359, R423, R479). -/

namespace Sys2Proof.Machine

/-! ## Contexts -/

/-- The page-table root's checks (R356). -/
def rootOk (w : Word) : Bool := aligned 4096 w.toNat && decide (w.toNat < 2 ^ 46)
/-- The spool's checks (R356). -/
def spoolOk (base size : Word) : Bool :=
  aligned 65536 base.toNat && aligned 65536 size.toNat && decide (base.toNat + size.toNat ≤ 2 ^ 52)

/-- CTX_CREATE at step 10: the lowest free slot, with the issuing function as its owner (R355). -/
def ctxCreateTen (s : State) (p : Pkt) : Ten :=
  match lowest 1024 (fun c => !(s.dev.ctx c).live) with
  | none => .fail s .tableFull
  | some c =>
    let x : Ctx := { Ctx.none with
      live := true, owner := p.func, root := (p.b 0).toNat, spoolBase := (p.b 1).toNat, spoolSize := (p.b 2).toNat }
    .done (s.upd (fun d => d.setCtx c x)) (fun p => { p with value := BitVec.ofNat 64 c })

def semCtxCreate : OpSem := ⟨rowCtxCreate, fun _ p => rootOk (p.b 0) && spoolOk (p.b 1) (p.b 2), noOwn, ctxCreateTen⟩

/-- CTX_CREATE (R355 to R357, R359). -/
def execCtxCreate (q : QRef) (s : State) : Out := .next (acceptRow semCtxCreate q s)

/-- The owner check of R293 on a context slot. -/
def ownCtx (d : Dev) (f c : Nat) : Option Status :=
  if !(d.ctx c).live then some .badParam else if (d.ctx c).owner != f then some .notOwner else none

/-- Some unretired packet of the context holds or is bound to a spool entry (R290). -/
def spoolBusy (d : Dev) (c : Nat) : Bool :=
  d.queueRefs.any (fun q => (d.queue q).flight.any (fun p => !p.isCtl && p.ctx == c && (p.push.isSome || p.pop.isSome)))

/-- CTX_CONFIG at step 6 (R290, R356). -/
def ctxConfigOk (s : State) (p : Pkt) : Bool :=
  let b0 := p.b 0
  let c := fld b0 9 0
  (!bitOf b0 16 || rootOk (p.b 1)) && (!bitOf b0 17 || spoolOk (p.b 2) (p.b 3)) &&
  !(bitOf b0 17 && !bitOf b0 18 && !(s.dev.ctx c).spool.isEmpty) && !(bitOf b0 18 && spoolBusy s.dev c)

/-- A request of the context is in flight: a read not yet answered or a write not yet acknowledged, of a core or at a stack port or the host port
(R405). -/
def ctxRequests (d : Dev) (c : Nat) : Bool :=
  d.cores.any (fun e => e.2.cmds.any (fun m =>
    m.ctx == c && (decide (0 < m.acks) || e.2.reqs.any (fun r => r.uid == m.uid && r.state == 0)))) ||
  d.ports.any (fun e => (e.2.waiting ++ e.2.accq ++ e.2.outR ++ e.2.outW).any (fun r => r.ctx == c)) ||
  d.host.accq.any (fun r => r.ctx == c) || (d.host.reqs ++ d.host.late).any (fun r => r.ctx == c)

/-- CTX_CONFIG at step 10: SET_ROOT, SET_SPOOL, RESET_TOP in that order (R290); SET_ROOT removes the context's cached translations
and waits for the requests made through them (R405). -/
def ctxConfigTen (s : State) (p : Pkt) : Ten :=
  let b0 := p.b 0
  let c := fld b0 9 0
  let s1 := if bitOf b0 16 then s.upd (fun d => (d.modCtx c (fun x => { x with root := (p.b 1).toNat })).purge c 0 0) else s
  if bitOf b0 16 && ctxRequests s1.dev c then .wait s1
  else
    let s2 := if bitOf b0 17 then
        s1.upd (fun d => d.modCtx c (fun x => { x with spoolBase := (p.b 2).toNat, spoolSize := (p.b 3).toNat }))
      else s1
    let s3 := if bitOf b0 18 then s2.upd (fun d => d.modCtx c (fun x => { x with spool := [], spoolPeak := 0 })) else s2
    .done s3 id

def semCtxConfig : OpSem := ⟨rowCtxConfig, ctxConfigOk, fun s p => ownCtx s.dev p.func (fld (p.b 0) 9 0), ctxConfigTen⟩

/-- CTX_CONFIG (R290, R356, R405). -/
def execCtxConfig (q : QRef) (s : State) : Out := .next (acceptRow semCtxConfig q s)

/-- Live work queues that satisfy a test. -/
def anyQueue (d : Dev) (f : Queue → Bool) : Bool := d.queues.any (fun e => e.2.live && f e.2)

/-- A context destroyed (R358): its objects released, its spool and resume records discarded, its reply ring 0, its slot free. -/
def destroyCtx (s : State) (c : Nat) : State :=
  let mine (e : Entry) : Bool := e.href && e.owner == c
  let notImport (e : Entry) : Bool := mine e && e.payload.typ == 1
  let s1 := (liveOf 1 0 s.dev.objs.mem notImport).foldl releaseObj s
  let s2 := (liveOf 6 0 s1.dev.objs.heap mine).foldl releaseObj s1
  let s3 := (liveOf 5 0 s2.dev.objs.pattern mine).foldl releaseObj s2
  s3.upd (fun d => (d.setCtx c Ctx.none).purge c 0 0)

def semCtxDestroy : OpSem :=
  ⟨rowCtxDestroy, fun s p => !anyQueue s.dev (fun x => x.ctx == fld (p.b 0) 9 0),
   fun s p => ownCtx s.dev p.func (fld (p.b 0) 9 0), fun s p => .done (destroyCtx s (fld (p.b 0) 9 0)) id⟩

/-- CTX_DESTROY (R358). -/
def execCtxDestroy (q : QRef) (s : State) : Out := .next (acceptRow semCtxDestroy q s)

/-! ## Gangs -/

/-- The mask of GANG_CREATE: bit i of Bj for core 64 (j − 1) + i. -/
def gangMask (p : Pkt) : BitVec 512 :=
  (List.range 8).foldl (fun m j => m ||| ((p.b (j + 1)).setWidth 512 <<< (64 * j))) 0

/-- Panels in which a mask has a core in service (R18). -/
def maskPanels (d : Dev) (m : BitVec 512) : List Nat :=
  (List.range 4).filter (fun pl => (List.range 512).any (fun i =>
    m.getLsbD i && (match d.siteOf i with | some k => keyPanel k == pl | none => false)))

/-- Gangs that count against the limit of a panel (R18). -/
def gangsIn (d : Dev) (pl : Nat) : Nat := (d.gangs.filter (fun e => e.2.live && (maskPanels d e.2.mask).contains pl)).length

/-- GANG_CREATE at step 7: every core of the mask in service is owned by the function (R423). -/
def gangOwn (s : State) (p : Pkt) : Option Status :=
  if (List.range 512).all (fun i => !(gangMask p).getLsbD i ||
      (match s.dev.siteOf i with | some k => ownerOf s.dev k == some p.func | none => true))
  then none else some .notOwner

/-- The target site of a KIND 3 image whose header the MC has read (R473). -/
def McRead.target (r : McRead) : Option Nat :=
  if r.reply.isNone && r.first.isNone && decide (14 ≤ r.got.length) && byteAt r.got 4 == 3 then
    some (siteKey (byteAt r.got 5).toNat (leNat ((r.got.drop 12).take 2)))
  else none

/-- A mask holds the core of a KIND 3 FW_LOAD, which runs from the reading of its image's header to the end of the refetch: creation of such a gang, or
of a queue on it, waits at step 10 (R479). -/
def refetches (d : Dev) (m : BitVec 512) : Bool :=
  ((d.mc.single.map (fun e => e.2.1)).toList ++ d.mc.reads.filterMap McRead.target).any (fun k =>
    match siteIndex d k with | some i => m.getLsbD i | none => false)

/-- The MC restarts from ROM for a KIND 1 image that it has verified (R477). -/
def mcRestarts (d : Dev) : Bool := d.mc.reads.any (fun r => r.first.isSome)

/-- Step 10 of a packet that the MC executes: it waits while the MC restarts (R477). -/
def mcTen (f : State → Pkt → Ten) (s : State) (p : Pkt) : Ten := if mcRestarts s.dev then .wait s else f s p

/-- GANG_CREATE at step 10: the lowest free number of the home panel, within 64 gangs of each panel (R18). -/
def gangCreateTen (s : State) (p : Pkt) : Ten :=
  let home := fld (p.b 0) 1 0
  let m := gangMask p
  if refetches s.dev m then .wait s
  else if (maskPanels s.dev m).any (fun pl => decide (64 ≤ gangsIn s.dev pl)) then .fail s .tableFull
  else match lowest 64 (fun g => !(s.dev.gang home g).live) with
    | none => .fail s .tableFull
    | some g => .done (s.upd (fun d => d.setGang home g ⟨true, p.func, home, m⟩)) (fun p => { p with value := BitVec.ofNat 64 g })

/-- A panel number of a body word is below PANELS (R564). -/
def panelOk (s : State) (n : Nat) : Bool := decide (n < s.params.panels)

def semGangCreate : OpSem := ⟨rowGangCreate, fun s p => panelOk s (fld (p.b 0) 1 0), gangOwn, gangCreateTen⟩

/-- GANG_CREATE (R18, R423, R564). -/
def execGangCreate (q : QRef) (s : State) : Out := .next (acceptRow semGangCreate q s)

/-- The owner check of R293 on a gang. -/
def ownGang (d : Dev) (f home g : Nat) : Option Status :=
  if !(d.gang home g).live then some .badParam else if (d.gang home g).func != f then some .notOwner else none

def semGangDestroy : OpSem :=
  ⟨rowGangDestroy,
   fun s p => panelOk s (fld (p.b 0) 7 6) && !anyQueue s.dev (fun x => x.home == fld (p.b 0) 7 6 && x.gang == fld (p.b 0) 5 0),
   fun s p => ownGang s.dev p.func (fld (p.b 0) 7 6) (fld (p.b 0) 5 0),
   fun s p => .done (s.upd (fun d => d.setGang (fld (p.b 0) 7 6) (fld (p.b 0) 5 0) Gang.none)) id⟩

/-- GANG_DESTROY (R289, R293, R564). -/
def execGangDestroy (q : QRef) (s : State) : Out := .next (acceptRow semGangDestroy q s)

/-! ## Queues -/

/-- QUEUE_CREATE at step 6: the binding's ranges, an empty window, the ring's natural alignment (R291, R564, R565). -/
def queueCreateOk (s : State) (p : Pkt) : Bool :=
  let b := p.b 0
  let depth := fld b 37 34
  decide (fld b 63 56 < 224) && Tbl.get 0 (fld b 63 56) (s.dev.fn p.func).windows == 0 && panelOk s (fld b 45 44) &&
  decide (8 ≤ depth) && decide (depth ≤ 12) && decide (1 ≤ fld b 33 23) && decide (fld b 33 23 ≤ 1024) &&
  aligned (256 * 2 ^ depth) (p.b 1).toNat

/-- QUEUE_CREATE at step 7: context and gang exist and are the function's (R291, R293). -/
def queueCreateOwn (s : State) (p : Pkt) : Option Status :=
  match ownCtx s.dev p.func (fld (p.b 0) 55 46) with
  | some st => some st
  | none => ownGang s.dev p.func (fld (p.b 0) 45 44) (fld (p.b 0) 43 38)

/-- Partitions that hold a present member of a gang, as panel × 16 + index. -/
def gangParts (d : Dev) (g : Gang) : List Nat := ((present d g).filterMap (fun i => (d.siteOf i).bind (partOf d))).eraseDups

/-- The seams whose open partition-scope episodes cover a partition of the gang, for a function (R331). -/
def openPartSeams (d : Dev) (f : Nat) (g : Gang) : List Nat :=
  (d.objs.seam.entries.filter (fun e => e.2.live && e.2.owner == f && (match e.2.payload with
    | .seam _ _ (some ep) => ep.partScope && ep.covered.any (fun c => (gangParts d g).contains c)
    | _ => false))).map (·.1)

/-- A queue number is created anew: no episode waits any more for the queue that had it before (R331). -/
def leaveEpisodes (d : Dev) (n : Nat) : Dev :=
  { d with objs := { d.objs with seam := { d.objs.seam with
      entries := Tbl.mapv (fun e => match e.payload with
        | .seam h sc (some ep) => { e with payload := .seam h sc (some { ep with queues := ep.queues.filter (· != n) }) }
        | _ => e) d.objs.seam.entries } } }

/-- The queue a QUEUE_CREATE makes (R291): RUNNING, counters 0, held while a partition-scope episode covers its gang (R331). -/
def newQueue (d : Dev) (f : Nat) (b0 b1 : Word) : Queue :=
  let g := d.gang (fld b0 45 44) (fld b0 43 38)
  { live := true, func := f, ctx := fld b0 55 46, gang := fld b0 43 38, home := fld b0 45 44, depthLog2 := fld b0 37 34
    readAhead := fld b0 33 23, window := fld b0 63 56, ringVa := b1.toNat, state := .running, stopStatus := 0
    malformed := false, overrun := false, failed := false, posted := 0, accepted := 0, retired := 0, entered := 0
    asm := [], slots := [], flight := [], replay := none
    seamHolds := openPartSeams d f g }

/-- QUEUE_CREATE at step 10: the lowest free queue number (R566). -/
def queueCreateTen (s : State) (p : Pkt) : Ten :=
  if refetches s.dev (s.dev.gang (fld (p.b 0) 45 44) (fld (p.b 0) 43 38)).mask then .wait s
  else match lowest 4096 (fun n => !(s.dev.queue (.work n)).live) with
  | none => .fail s .tableFull
  | some n =>
    .done (s.upd (fun d => ((leaveEpisodes d n).setQueue (.work n) (newQueue d p.func (p.b 0) (p.b 1))).modFn p.func (fun x =>
        { x with windows := Tbl.set (fld (p.b 0) 63 56) (n + 1) x.windows, asm := Tbl.del (fld (p.b 0) 63 56) x.asm })))
      (fun p => { p with value := BitVec.ofNat 64 n })

def semQueueCreate : OpSem := ⟨rowQueueCreate, queueCreateOk, queueCreateOwn, queueCreateTen⟩

/-- QUEUE_CREATE (R291, R564 to R566). -/
def execQueueCreate (q : QRef) (s : State) : Out := .next (acceptRow semQueueCreate q s)

/-- The packets of a queue that have not entered R254 complete at once with a status, in ring order; a slot whose read faults writes
a record with that packet's SEQ and TAG 0, and its packet writes no reply (R256, R292, R402). -/
def disposeRing (s : State) (q : QRef) (st : Status) (fate : Fate) : Nat → State
  | 0 => s
  | n + 1 =>
    let x := s.dev.queue q
    if x.entered == x.posted then s
    else
      let seq := x.entered
      let s0 := slotTouch s q x seq
      let (ws, quiet, d1) : List Word × Bool × Dev := match readSlot s q x seq with
        | .ok ws => (ws, false, s0.dev)
        | .error f => ([0, 0], true,
            s0.dev.fault x.func { f.info with ctx := x.ctx, queue := qnum q, seq := seq.toNat, subidx := 0xFFFF })
      let (d2, uid) := enterPkt d1 q ws seq 0xFFFF none
      disposeRing (s0.withDev (d2.modPkt q uid (fun p =>
        { p with stage := .left, fate := fate, done := true, status := st, quiet := quiet }))) q st fate n

/-- The number of packets in a ring that have not entered R254. -/
def ringLeft (x : Queue) : Nat := (x.posted - x.entered).toNat

/-- The queue that a window of the packet's function holds. -/
def destroyed (s : State) (p : Pkt) : Option QRef :=
  match Tbl.get 0 (fld (p.b 0) 7 0) (s.dev.fn p.func).windows with
  | 0 => none
  | n + 1 => some (.work n)

/-- QUEUE_DESTROY at step 7: the window holds a queue that is not being destroyed already (R293). -/
def queueDestroyOwn (s : State) (p : Pkt) : Option Status :=
  match destroyed s p with
  | none => some .badParam
  | some r => if (s.dev.queue r).state == .absent then some .badParam else none

/-- QUEUE_DESTROY at step 10: STATE becomes ABSENT and the ring is disposed of; the packet completes, and the number is freed, when
the last packet of the queue has retired (R292); changes that then have no bound gang left take effect (R334). -/
def queueDestroyTen (s : State) (p : Pkt) : Ten :=
  match destroyed s p with
  | none => .done s id
  | some r =>
    let s1 := if (s.dev.queue r).state == .absent then s
      else
        let s0 := s.upd (fun d => endReplay (d.modQueue r (fun x => { x with state := .absent, asm := [] })) r)
        dropDone (disposeRing s0 r .queueClosed .closed (ringLeft (s.dev.queue r))) r
    if (s1.dev.queue r).flight.isEmpty then
      .done (s1.upd (fun d => applyIdle s.params ((d.setQueue r Queue.none).modFn p.func (fun x =>
        { x with windows := Tbl.del (fld (p.b 0) 7 0) x.windows })))) id
    else .wait s1

def semQueueDestroy : OpSem := ⟨rowQueueDestroy, noCheck, queueDestroyOwn, queueDestroyTen⟩

/-- QUEUE_DESTROY (R292, R293). -/
def execQueueDestroy (q : QRef) (s : State) : Out := .next (acceptRow semQueueDestroy q s)

end Sys2Proof.Machine
end

