-- ==== Sys2Proof/Machine/Alloc.lean ====
section
/-! DEFINITION. Memory and allocator packets (CLASS 6): objects, tacks, bobbins, seams, heaps, invalidation and QUERY
(R301, R365 to R391, R405). -/

namespace Sys2Proof.Machine

/-! ## Creation and release -/

/-- A create at step 10: the handle as the result, or TABLE_FULL (R361, R363). -/
def createTen (s : State) (typ panel owner : Nat) (pay : Payload) : Ten :=
  match s.dev.create typ panel owner pay with
  | none => .fail s .tableFull
  | some (r, d) => .done (s.withDev d) (fun p => { p with value := d.handle r })

/-- OBJ_CREATE at step 10: heap-backed when its range is exactly one live allocation, which holds the heap (R389). -/
def objCreateTen (s : State) (p : Pkt) : Ten :=
  let heap := backingHeap s p.ctx (p.b 0).toNat (p.b 1).toNat
  match s.dev.create 1 0 p.ctx (.memObj (p.b 0).toNat (p.b 1).toNat heap) with
  | none => .fail s .tableFull
  | some (r, d) =>
    let d1 := match heap with | some h => addRef d ⟨6, h⟩ | none => d
    .done (s.withDev d1) (fun p => { p with value := d.handle r })

def semObjCreate : OpSem := ⟨rowObjCreate, noCheck, noOwn, objCreateTen⟩
/-- OBJ_CREATE (R301, R389). -/
def execObjCreate (q : QRef) (s : State) : Out := .next (acceptRow semObjCreate q s)

def semObjRelease : OpSem := ⟨rowObjRelease, noCheck, noOwn, fun s p => .done (releaseObj s (objB0 p)) id⟩
/-- OBJ_RELEASE (R365, R368). -/
def execObjRelease (q : QRef) (s : State) : Out := .next (acceptRow semObjRelease q s)

/-- B0 [1:0] names a panel of the instance (R564). -/
def homeOk (s : State) (p : Pkt) : Bool := panelOk s (fld (p.b 0) 1 0)

def semTackCreate : OpSem :=
  ⟨rowTackCreate, homeOk, noOwn, fun s p => createTen s 2 (fld (p.b 0) 1 0) p.func (.tack (p.b 1) [] false)⟩
/-- TACK_CREATE (R371, R564). -/
def execTackCreate (q : QRef) (s : State) : Out := .next (acceptRow semTackCreate q s)

/-- The grants of a tack. -/
def grantList (d : Dev) (r : ObjRef) : List Nat := match (d.entry r).payload with | .tack _ g _ => g | _ => []

/-- TACK_EXPORT at step 10 (R379). -/
def tackExportTen (s : State) (p : Pkt) : Ten :=
  let r := objB0 p
  let f := fld (p.b 1) 7 0
  let g := grantList s.dev r
  if f = p.func then .refuse s .badParam 0
  else if g.contains f then .done s id
  else if 4 ≤ g.length then .refuse s .badParam 0
  else .done (s.upd (fun d => d.modEntry r (fun e => match e.payload with
    | .tack v g b => { e with payload := .tack v (g ++ [f]) b }
    | _ => e))) id

def semTackExport : OpSem := ⟨rowTackExport, noCheck, noOwn, tackExportTen⟩
/-- TACK_EXPORT (R379). -/
def execTackExport (q : QRef) (s : State) : Out := .next (acceptRow semTackExport q s)

/-- TACK_IMPORT's conditions on B0 and B1 (R380, R382). -/
def tackImportOwn (s : State) (p : Pkt) : Option Status :=
  let h := fld (p.b 1) 31 0
  let r : ObjRef := ⟨2, h % 2 ^ 20⟩
  let e := s.dev.entry r
  match e.payload with
  | .tack _ g broken =>
    if h / 2 ^ 28 = 2 ∧ slotInTable s.params.panels 2 r.slot ∧ e.live ∧ e.href ∧ e.gen.toNat = h / 2 ^ 20 % 256 ∧
       e.owner = fld (p.b 0) 7 0 ∧ g.contains p.func ∧ !broken then none else some .badHandle
  | _ => some .badHandle

/-- TACK_IMPORT at step 10: a new import entry that holds the tack (R380, R381). -/
def tackImportTen (s : State) (p : Pkt) : Ten :=
  let t := fld (p.b 1) 19 0
  match s.dev.create 7 0 p.func (.imported t) with
  | none => .fail s .tableFull
  | some (r, d) => .done (s.withDev (addRef d ⟨2, t⟩)) (fun p => { p with value := d.handle r })

def semTackImport : OpSem := ⟨rowTackImport, noCheck, tackImportOwn, tackImportTen⟩
/-- TACK_IMPORT (R380 to R382). -/
def execTackImport (q : QRef) (s : State) : Out := .next (acceptRow semTackImport q s)

def semBobbinCreate : OpSem :=
  ⟨rowBobbinCreate, homeOk, noOwn, fun s p => createTen s 3 (fld (p.b 0) 1 0) p.func (.bobbin 0 0)⟩
/-- BOBBIN_CREATE (R320, R564). -/
def execBobbinCreate (q : QRef) (s : State) : Out := .next (acceptRow semBobbinCreate q s)

def semSeamCreate : OpSem :=
  ⟨rowSeamCreate, homeOk, noOwn, fun s p => createTen s 4 0 p.func (.seam (fld (p.b 0) 1 0) none none)⟩
/-- SEAM_CREATE (R19, R301, R564). -/
def execSeamCreate (q : QRef) (s : State) : Out := .next (acceptRow semSeamCreate q s)

/-! ## Heaps -/

/-- HEAP_SETUP at step 6 (R383). -/
def heapSetupOk (s : State) (p : Pkt) : Bool :=
  let base := (p.b 0).toNat
  let size := (p.b 1).toNat
  let blk := (p.b 2).toNat
  decide (256 ≤ blk) && decide (blk ≤ 2 ^ 30) && 2 ^ Nat.log2 blk == blk && aligned (max blk 65536) base && aligned blk size &&
  decide (16 ≤ size / blk) && decide (size / blk ≤ 2 ^ 24) &&
  !(heapsOf s.dev p.ctx).any (fun h => overlaps base size h.2.1 (h.2.2.2 * 2 ^ h.2.2.1))

/-- Header and bitmap that HEAP_SETUP writes (R384). -/
def heapMeta (blockLog2 nblock : Nat) : List Byte :=
  let m := metaBlocks blockLog2 nblock
  wordsToBytes [heapMagic, heapShape blockLog2 nblock, BitVec.ofNat 64 (nblock - m), 0, 0, 0, 0, 0] ++
  (List.range (ceilDiv nblock 4)).map (fun i =>
    BitVec.ofNat 8 ((List.range 4).foldl (fun v j => if 4 * i + j < m then v + 3 * 4 ^ j else v) 0))

/-- A fault of the allocator's metadata: a record of KIND 2 and a refusal with PERM_FAULT (R388). DEDUCED (log entry 75): R388 names KIND 2 for an
absent translation too, where R402 lets the record say what was found; the rule about this one access is followed. -/
def heapFault (s : State) (p : Pkt) (x : XFault) : Ten :=
  .refuse (s.upd (fun d => dFault d p.q p { x with perm := true })) .permFault 0

/-- The allocator takes the request of a packet: its pointer moves to the queue (R29, R387), and it reads and writes the metadata of the heap. -/
def heapStart (s : State) (p : Pkt) (base n : Nat) : State :=
  let s1 := s.upd (fun d => d.won heapPanel arbAlloc (queueIndex p.q))
  dTouch (dTouch s1 heapPanel p.ctx base (64 + ceilDiv n 4) .read) heapPanel p.ctx base (64 + ceilDiv n 4) .write

/-- HEAP_SETUP at step 10. -/
def heapSetupTen (s : State) (p : Pkt) : Ten :=
  let base := (p.b 0).toNat
  let l := Nat.log2 (p.b 2).toNat
  let n := (p.b 1).toNat / (p.b 2).toNat
  match s.dev.create 6 0 p.ctx (.heap base l n) with
  | none => .fail s .tableFull
  | some (r, d) =>
    match dWrite (heapStart s p base n) heapPanel p.ctx base (heapMeta l n) with
    | .error x => heapFault (heapStart s p base n) p x
    | .ok s1 => .done (s1.upd (fun d1 => { d1 with objs := d.objs })) (fun p => { p with value := d.handle r })

def semHeapSetup : OpSem := ⟨rowHeapSetup, heapSetupOk, noOwn, heapSetupTen⟩
/-- HEAP_SETUP (R383, R384). -/
def execHeapSetup (q : QRef) (s : State) : Out := .next (acceptRow semHeapSetup q s)

/-- Base, log₂ of the block size and NBLOCK of the heap a packet names; none where its handle word is 0 (R276). -/
def heapB0 (d : Dev) (p : Pkt) : Option (Nat × Nat × Nat) :=
  match (d.entry (objB0 p)).payload with
  | .heap b l n => some (b, l, n)
  | _ => none

/-- ALLOC at step 10 (R385, R388). DESIGN CHOICE (log entry 11): no heap named, no run exists. -/
def allocTen (s : State) (p : Pkt) : Ten :=
  match heapB0 s.dev p with
  | none => .fail s .outOfHeap
  | some (b, l, n) =>
    let s0 := heapStart s p b n
    match heapAlloc s0 p.ctx b l n (ceilDiv (p.b 1).toNat (2 ^ l)) with
    | .fault x => heapFault s0 p x
    | .bad => .refuse s0 .badParam 0
    | .none => .fail s0 .outOfHeap
    | .ok (s1, a) => .done s1 (fun p => { p with value := BitVec.ofNat 64 a })

def semAlloc : OpSem := ⟨rowAlloc, fun _ p => p.b 1 != 0, noOwn, allocTen⟩
/-- ALLOC (R385, R388). -/
def execAlloc (q : QRef) (s : State) : Out := .next (acceptRow semAlloc q s)

/-- A live heap-backed memory object of the heap has its range at this address (R386). -/
def backedAt (d : Dev) (heap va : Nat) : Bool :=
  d.objs.mem.entries.any (fun e => e.2.live && (match e.2.payload with
    | .memObj v _ (some h) => h == heap && v == va
    | _ => false))

/-- FREE at step 10 (R386, R388). DESIGN CHOICE (log entry 11): no heap named, the address lies outside it. -/
def freeTen (s : State) (p : Pkt) : Ten :=
  match heapB0 s.dev p with
  | none => .refuse s .badParam 0
  | some (b, l, n) =>
    if backedAt s.dev (objB0 p).slot (p.b 1).toNat then .refuse s .badParam 0
    else
      let s0 := heapStart s p b n
      match heapFree s0 p.ctx b l n (p.b 1).toNat with
      | .fault x => heapFault s0 p x
      | .bad => .refuse s0 .badParam 0
      | .none => .refuse s0 .badParam 0
      | .ok s1 => .done s1 id

def semFree : OpSem := ⟨rowFree, noCheck, noOwn, freeTen⟩
/-- FREE (R386, R388). -/
def execFree (q : QRef) (s : State) : Out := .next (acceptRow semFree q s)

/-! ## Invalidation and QUERY -/

/-- XLATE_INVAL at step 10: every cache removes its entries, then the requests made through them are awaited (R405). -/
def xlateInvalTen (s : State) (p : Pkt) : Ten :=
  let s1 := s.upd (fun d => d.purge p.ctx (p.b 0).toNat (p.b 1).toNat)
  if ctxRequests s1.dev p.ctx then .wait s1 else .done s1 id

def semXlateInval : OpSem := ⟨rowXlateInval, noCheck, noOwn, xlateInvalTen⟩
/-- XLATE_INVAL (R405). -/
def execXlateInval (q : QRef) (s : State) : Out := .next (acceptRow semXlateInval q s)

/-- Packets of a context accepted and not retired. -/
def inflight (d : Dev) (c : Nat) : Nat :=
  d.queueRefs.foldl (fun n q => n + ((d.queue q).flight.filter (fun p => !p.isCtl && p.ctx == c && p.counts)).length) 0

/-- Bytes of a heap in blocks coded 0b01 or 0b10. -/
def heapUsed (s : State) (c base l n : Nat) : Nat :=
  match dRead s heapPanel c (base + 64) (ceilDiv n 4) with
  | .error _ => 0
  | .ok bm => ((List.range n).filter (fun i => blockCode bm i == 1 || blockCode bm i == 2)).length * 2 ^ l

/-- The sixteen words of R391. -/
def queryRecord (s : State) (c : Nat) : List Word :=
  let d := s.dev
  let x := d.ctx c
  let w (n : Nat) : Word := BitVec.ofNat 64 n
  let heaps := heapsOf d c
  let mem (f : Entry → Bool) : Nat := (liveOf 1 0 d.objs.mem (fun e => e.payload.typ == 1 && e.owner == c && f e)).length
  [ place c 54 ||| place x.owner 46 ||| place (d.queues.filter (fun e => e.2.live && e.2.ctx == c)).length 33,
    d.time, x.usage.accepted, place (inflight d c) 0, x.usage.sBusy, x.usage.mBeats, x.usage.vTicks, x.usage.rdBytes,
    x.usage.wrBytes, x.usage.accBytes, place (spoolTop x) 0, place x.spoolPeak 0,
    place heaps.length 32 ||| place x.spool.length 0,
    w (heaps.foldl (fun n h => n + h.2.2.2 * 2 ^ h.2.2.1) 0),
    w (heaps.foldl (fun n h => n + heapUsed s c h.2.1 h.2.2.1 h.2.2.2) 0),
    place (mem (fun e => !e.href)) 21 ||| place (mem (fun e => e.href)) 0 ]

/-- The accesses of QUERY: the bitmaps of the context's heaps are read, the record is written. -/
def queryTouch (s : State) (p : Pkt) : State :=
  let s1 := (heapsOf s.dev p.ctx).foldl (fun s h => dTouch s heapPanel p.ctx (h.2.1 + 64) (ceilDiv h.2.2.2 4) .read) s
  dTouch s1 (s.dev.queue p.q).home p.ctx (p.b 0).toNat 128 .write

/-- QUERY at step 10 (R391): a fault of the record's address refuses the packet. -/
def queryTen (s : State) (p : Pkt) : Ten :=
  let s0 := queryTouch s p
  match dWrite s0 (s.dev.queue p.q).home p.ctx (p.b 0).toNat (wordsToBytes (queryRecord s p.ctx)) with
  | .error x => heapFault s0 p x
  | .ok s1 => .done s1 id

def semQuery : OpSem := ⟨rowQuery, fun _ p => aligned 64 (p.b 0).toNat, noOwn, queryTen⟩
/-- QUERY (R391, R565). -/
def execQuery (q : QRef) (s : State) : Out := .next (acceptRow semQuery q s)

end Sys2Proof.Machine
end

