-- ==== Sys2Proof/Machine/Grants.lean ====
section
/-! DEFINITION. Partition entries and memory grants: the writes of R424 and R428, the purge and the wipe of R429. -/

namespace Sys2Proof.Machine

/-! ## Partition entries (R422 to R425) -/

/-- A bit of PART_STATUS set: 0 PART_REFUSED, 1 GRANT_REFUSED, 2 VEC_REFUSED (R425). -/
def refuseBit (d : Dev) (i : Nat) : Dev := { d with partStatus := d.partStatus ||| placeB true i }

/-- Rows of a partition entry. -/
def entryRows (e : Word) : Nat × Nat := (fld e 7 4, fld e 3 0)

/-- Row r lies in the rows of an enabled entry. -/
def rowInEntry (e : Word) (r : Nat) : Bool := bitOf e 63 && decide (fld e 7 4 ≤ r) && decide (r < fld e 7 4 + fld e 3 0)

/-- Some gang has a present member in the rows of an entry of a panel (R424). -/
def gangInRows (d : Dev) (panel : Nat) (e : Word) : Bool :=
  d.gangs.any (fun g => g.2.live && (present d g.2).any (fun i => match d.siteOf i with
    | some k => keyPanel k == panel && rowInEntry e (keySite k / 12)
    | none => false))

/-- The fields of a partition entry that a write stores. -/
def partFields (v : Word) : Word := v &&& 0x80FF0000000000FF#64

/-- A write to a partition entry is ignored (R424). -/
def partRefused (p : Params) (d : Dev) (panel i : Nat) (v : Word) : Bool :=
  let overlapsOther := bitOf v 63 && (List.range 16).any (fun j =>
    j != i && (List.range 16).any (fun r => rowInEntry v r && rowInEntry (d.part panel j) r))
  overlapsOther || decide (p.rows < fld v 7 4 + fld v 3 0) || fld v 3 0 == 0 ||
  gangInRows d panel (d.part panel i) || gangInRows d panel v

/-- A write of partition entry i of a panel (R422, R424); entries of panels the instance does not have ignore writes. -/
def writePart (p : Params) (d : Dev) (panel i : Nat) (v : Word) : Dev :=
  if p.panels ≤ panel then d
  else if partRefused p d panel i v then refuseBit d 0
  else { d with parts := Tbl.set (16 * panel + i) (partFields v) d.parts }

/-! ## Grant writes (R427, R428) -/

/-- The range of a would-be grant is wholly backed (R392, R413). -/
def rangeBacked (p : Params) (d : Dev) (base n : Nat) : Bool :=
  backed p d base && backed p d (base + n - 1) && (hostBacked p || decide (base / 2 ^ 42 == (base + n - 1) / 2 ^ 42))

/-- The fields of W0 and W1 that a write stores. -/
def grantW0Fields (v : Word) : Word := v &&& 0xE03FFFFFFFE00000#64
def grantW1Fields (v : Word) : Word := v &&& 0x1FFFFFF#64

/-- A write of W1: ignored while STATE is not FREE. -/
def writeGrantW1 (d : Dev) (g : Nat) (v : Word) : Dev :=
  let x := d.grant g
  if x.state = 0 then d.setGrant g { x with w1 := grantW1Fields v } else refuseBit d 1

/-- FREE to GRANTED may go ahead (R428). -/
def mayGrant (p : Params) (d : Dev) (g : Nat) (x : Grant) : Bool :=
  decide (0 < x.bytes) && x.owner != 0 && rangeBacked p d x.base x.bytes &&
  d.grants.all (fun e => e.1 == g || e.2.state == 0 || !overlaps e.2.base e.2.bytes x.base x.bytes)

/-- Every translation cached for a function's contexts goes (R429). -/
def purgeOwner (d : Dev) (f : Nat) : Dev := (Tbl.keys (fun x => x.live && x.owner == f) d.ctxs).foldl (fun d c => d.purge c 0 0) d

/-- A grant becomes FENCED: its owner's translations are removed at once, and function 0's, which no grant holds back and which must not reach the
range either (R429). A revoke that a reset finds under way becomes a fence for a wipe (R436). -/
def fenceGrant (d : Dev) (g : Nat) (wipe : Bool) : Dev :=
  let x := d.grant g
  purgeOwner (purgeOwner (d.setGrant g { x with w0 := setFld x.w0 63 62 2, wipe := wipe, purged := false }) x.owner) 0

/-- A write of W0, by the state it finds and the state it writes (R428). DESIGN CHOICE (log entry 50): FREE written with 2, which the table
does not list, is ignored. -/
def writeGrantW0 (p : Params) (d : Dev) (g : Nat) (v : Word) : Dev :=
  let x := d.grant g
  let y : Grant := { x with w0 := grantW0Fields v, wipe := false, purged := false }
  match x.state, fld v 63 62 with
  | 0, 0 => d.setGrant g y
  | 0, 1 => if mayGrant p d g y then d.setGrant g y else refuseBit d 1
  | 1, 1 => d.setGrant g { x with w0 := setFld x.w0 61 61 (fld v 61 61) }
  | 1, 0 => fenceGrant d g false
  | 1, 2 => fenceGrant d g true
  | _, _ => refuseBit d 1

/-! ## Purge and wipe (R429) -/

/-- A request of a function into a range is still unacknowledged. -/
def requestsIn (p : Params) (d : Dev) (f base n : Nat) : Bool :=
  d.ports.any (fun e => (e.2.waiting ++ e.2.accq ++ e.2.outR ++ e.2.outW).any (fun r =>
    r.func == f && overlaps (physOf p e.1 r.addr) (if r.two then 128 else 64) base n)) ||
  (hostBacked p && (d.host.reqs.any (fun r => r.func == f && !r.abandoned && overlaps r.addr 64 base n) ||
    d.host.accq.any (fun r => r.func == f && overlaps r.addr 64 base n)))

/-- The stack-local address that a port serves from a place of its stack. -/
def servedFrom (p : Params) (d : Dev) (key a : Nat) : Option Nat :=
  let u := usable p d (key / 16)
  let cand := a :: (d.port key).remaps.flatMap (fun r =>
    let old := match r.fromSlot with | some s => [slotAddr p u r.coarse s] | none => []
    (slotAddr p u r.coarse r.slot :: old).filterMap (fun b => if b ≤ a ∧ a < b + unitBytes r.coarse then some (r.unit + (a - b)) else none))
  cand.find? (fun x => served p d key x == a)

/-- A stack place lies in a device physical range, as the ports serve it. -/
def placeIn (p : Params) (d : Dev) (base n place : Nat) : Bool :=
  match servedFrom p d (place / 2 ^ 40) (place % 2 ^ 40) with
  | some a => let pa := physOf p (place / 2 ^ 40) a; decide (base ≤ pa) && decide (pa < base + n)
  | none => false

/-- Zeros over a device physical range: every byte and every poison mark in it goes, and buffered granules of it are dropped. -/
def zeroRange (s : State) (base n : Nat) : State :=
  if hostBacked s.params then
    { s with
      mem := { s.mem with
        host := s.mem.host.filter (fun c => !(decide (base ≤ c.1) && decide (c.1 < base + n)))
        hostBad := s.mem.hostBad.filter (fun c => !overlaps (64 * c.1) 64 base n) }
      dev := { s.dev with host := { s.dev.host with accBuf := s.dev.host.accBuf.filter (fun g => !overlaps g.addr 64 base n) } } }
  else
    { s with
      mem := { s.mem with
        stack := s.mem.stack.filter (fun c => !placeIn s.params s.dev base n c.1)
        poison := s.mem.poison.filter (fun c => !placeIn s.params s.dev base n (64 * c.1))
        bad := s.mem.bad.filter (fun c => !placeIn s.params s.dev base n (64 * c.1)) }
      dev := { s.dev with ports := s.dev.ports.map (fun e =>
        (e.1, { e.2 with buf := e.2.buf.filter (fun g => !overlaps (physOf s.params e.1 g.addr) 64 base n) })) } }

/-- GRANT_PURGE_DONE (R429): no request of the owner into the range is left; a revoked grant becomes FREE. -/
def purgeDone (s : State) (g : Nat) : State :=
  let x := s.dev.grant g
  if x.state != 2 || x.purged || requestsIn s.params s.dev x.owner x.base x.bytes then s
  else s.upd (fun d => d.setGrant g (if x.wipe then { x with purged := true } else { x with w0 := setFld x.w0 63 62 0, purged := false }))
def execGrantPurgeDone (g : Nat) (s : State) : Out := .next (purgeDone s g)

/-- GRANT_WIPE_DONE (R429): every granule of the range has been written with zeros; the grant is GRANTED or FREE by KEEP. -/
def wipeDone (s : State) (g : Nat) : State :=
  let x := s.dev.grant g
  if x.state != 2 || !x.wipe || !x.purged then s
  else (zeroRange s x.base x.bytes).upd (fun d =>
    d.setGrant g { x with w0 := setFld x.w0 63 62 (if x.keep then 1 else 0), wipe := false, purged := false })
def execGrantWipeDone (g : Nat) (s : State) : Out := .next (wipeDone s g)

end Sys2Proof.Machine
end

