-- ==== Sys2Proof/Machine/Approx.lean ====
section
/-! DEFINITION. The approximated operations of the fabric (R84) and table interpolation (R86, R164, R165): exact enclosures of what the
manual bounds, and the free value kept inside the bound. -/

namespace Sys2Proof.Machine

/-! ## Exact helpers on dyadic values -/

/-- The least FP32 subnormal, 2⁻¹⁴⁹. -/
def tiny : FVal := .fin false 1 (-149)
/-- 2⁻²². -/
def eps22 : FVal := .fin false 1 (-22)

/-- |x − y| ≤ b; where not even the code nearest to y lies that near, which happens only below the normal range, x is one of the two
FP32 neighbours of y. -/
def near (x y b : FVal) : Bool :=
  match x with
  | .fin _ _ _ =>
    FVal.le (FVal.dist x y) b || (!FVal.le (FVal.dist (f32Val (f32OfVal y)) y) b && FVal.lt (FVal.dist x y) tiny)
  | _ => false

/-- ⌊√n⌋, bit by bit from bit `k` down. -/
def isqrtFrom (n : Nat) : Nat → Nat → Nat
  | 0, r => r
  | k + 1, r => let r' := r + 2 ^ k; isqrtFrom n k (if r' * r' ≤ n then r' else r)

/-- ⌊√n⌋ for n below 2⁷⁶⁸. -/
def isqrt (n : Nat) : Nat := isqrtFrom n 384 0

/-- Fixed-point unit of the enclosures. -/
def fx : Nat := 2 ^ 320

/-- The product of the roots 2^(2^−j) that the bits of f call for, from bit `k` of 160 down; `root` is the present root. -/
def exp2Go (f : Nat) : Nat → Nat → Nat → Nat
  | 0, _, acc => acc
  | k + 1, root, acc =>
    let r := isqrt (root * fx)
    exp2Go f k r (if f.testBit k then acc * r / fx else acc)

/-- 2^x of a finite FP32 value, from below to 2⁻³⁰⁰ relative: every bit of x is taken, and the significand has 320 fraction bits. -/
def exp2Val (neg : Bool) (m : Nat) (e : Int) : FVal :=
  let num := sgn neg (if 0 ≤ e + 160 then m * 2 ^ (e + 160).toNat else m / 2 ^ (-(e + 160)).toNat)
  let i := num / (2 ^ 160 : Int)
  let f := (num % (2 ^ 160 : Int)).toNat
  .fin false (exp2Go f 160 (2 * fx) fx) (i - 320)

/-- Fraction bits of log₂ of a significand in [1, 2), by repeated squaring. -/
def log2Go : Nat → Nat → Nat → Nat
  | 0, _, acc => acc
  | k + 1, m, acc =>
    let s := m * m / fx
    if 2 * fx ≤ s then log2Go k (s / 2) (2 * acc + 1) else log2Go k s (2 * acc)

/-- log₂ of a positive dyadic value of at most 24 bits, to 2⁻¹²⁰. -/
def log2Val (m : Nat) (e : Int) : FVal :=
  let l := Nat.log2 m
  let k := (sgn false l + e) * 2 ^ 120 + (log2Go 120 (m * 2 ^ (320 - l)) 0 : Nat)
  .fin (decide (k < 0)) k.natAbs (-120)

/-- A dyadic value as FP32, rounded to nearest. -/
def toF32 (x : FVal) : F32 := f32OfVal x

/-- The free value for an operand when it passes the test, else the given admissible one. -/
def bounded (cand fallback : F32) (ok : FVal → Bool) : F32 := if ok (f32Val cand) then cand else fallback

/-! ## RCP, RSQ, EX2, LG2 (R84) -/

/-- 1 / x. -/
def approxRcp (x : F32) : F32 :=
  match f32Val x with
  | .nan => f32NaN
  | .inf s => f32OfVal (.fin s 0 0)
  | .fin s _ _ =>
    let r := fdiv f32One x
    if isInf r then r
    else bounded (Config.approxResult 0x1B x) r (fun y => y.sign == s && FVal.le (FVal.dist (FVal.mul y (f32Val x)) (.fin false 1 0)) eps22)

/-- 1 / √x. -/
def approxRsq (x : F32) : F32 :=
  match f32Val x with
  | .nan => f32NaN
  | .inf s => if s then f32NaN else f32Zero
  | .fin s m e =>
    if m = 0 then f32OfVal (.inf s)
    else if s then f32NaN
    else
      -- m × 2^e with an even exponent: 1/√ = 2^(−h) × 2^96 / √(m' × 2^192)
      let (m', h) := if e % 2 = 0 then (m, e / 2) else (2 * m, (e - 1) / 2)
      let root := isqrt (m' * 2 ^ 190)
      let r := toF32 (.fin false (2 ^ 191 / root) (-(96 : Int) - h))
      let sq (y : FVal) : FVal := FVal.mul (FVal.mul y y) (f32Val x)
      let lo : FVal := FVal.mul (.fin false (2 ^ 22 - 1) (-22)) (.fin false (2 ^ 22 - 1) (-22))
      let hi : FVal := FVal.mul (.fin false (2 ^ 22 + 1) (-22)) (.fin false (2 ^ 22 + 1) (-22))
      bounded (Config.approxResult 0x1C x) r (fun y => !y.sign && FVal.le lo (sq y) && FVal.le (sq y) hi)

/-- 2^x. -/
def approxEx2 (x : F32) : F32 :=
  match f32Val x with
  | .nan => f32NaN
  | .inf s => if s then f32Zero else f32OfVal (.inf false)
  | .fin s m e =>
    if FVal.le (.fin false 128 0) (.fin s m e) then f32OfVal (.inf false)
    else if FVal.le (.fin s m e) (.fin true 200 0) then f32Zero
    else
      let y := exp2Val s m e
      -- y is exact to 2⁻³⁰⁰ relative
      let b := FVal.add (FVal.mul y eps22) (FVal.mul y (.fin false 1 (-300)))
      bounded (Config.approxResult 0x1D x) (toF32 y) (fun c => !c.sign && near c y b)

/-- log₂ x. -/
def approxLg2 (x : F32) : F32 :=
  match f32Val x with
  | .nan => f32NaN
  | .inf s => if s then f32NaN else f32OfVal (.inf false)
  | .fin s m e =>
    if m = 0 then f32OfVal (.inf true)
    else if s then f32NaN
    else
      let y := log2Val m e
      let b := if FVal.lt (FVal.absV y) (.fin false 1 0) then eps22 else FVal.mul (FVal.absV y) eps22
      bounded (Config.approxResult 0x1E x) (toF32 y) (fun c => FVal.le (FVal.dist c y) (FVal.add b (.fin false 1 (-119))) && c != .nan)

/-! ## Table cells (R164, R165) -/

/-- A table: XLO, LOG2W, LOW, HIGH and the bytes of the breakpoints. -/
structure Tab where
  xlo : F32
  log2w : Int
  low : Nat
  high : Nat
  ys : List Byte
  deriving DecidableEq, Repr

/-- The table in the 4,224 bytes of its record (R164, R180). -/
def Tab.ofBytes (bs : List Byte) : Tab :=
  { xlo := BitVec.ofNat 32 (leNat (bs.take 4)), log2w := sext 8 (byteAt bs 4).toNat
    low := (byteAt bs 5).toNat, high := (byteAt bs 6).toNat, ys := bs.drop 64 }

/-- Breakpoint yᵢ. -/
def Tab.y (t : Tab) (i : Nat) : F32 := BitVec.ofNat 32 (leNat ((t.ys.drop (4 * i)).take 4))

/-- Outside the domain: CLAMP, IDENT or ZERO. -/
def Tab.outside (t : Tab) (x : F32) (below : Bool) : F32 :=
  match (if below then t.low else t.high) with
  | 0 => t.y (if below then 0 else 1024)
  | 1 => x
  | _ => f32Zero

/-- Not finite, or larger in magnitude than every FP32 value: the bounds of R84 and R86 do not apply (R74). -/
def tooLarge : FVal → Bool
  | .fin _ m e => !FVal.le (.fin false m e) (.fin false (2 ^ 24 - 1) 104)
  | _ => true

/-- A lookup of an FP32 value. Where a breakpoint is not finite, or the difference of two exceeds FP32, the result is that of the special
values of FP32 arithmetic (R74). -/
def Tab.look (t : Tab) (x : F32) : F32 :=
  match f32Val x with
  | .nan => f32NaN
  | .inf s => t.outside x s
  | .fin _ _ _ =>
    match FVal.scale2 (-t.log2w) (FVal.add (f32Val x) (FVal.neg (f32Val t.xlo))) with
    | .fin neg m e =>
      if neg && m != 0 then t.outside x true
      else if FVal.le (.fin false 1024 0) (.fin false m e) then t.outside x false
      else
        let i := dyNum m e / dyDen e
        let f := FVal.add (.fin false m e) (.fin true i 0)
        let a := t.y i
        let b := t.y (i + 1)
        let cand := Config.tableResult x a b
        let va := f32Val a
        let vb := f32Val b
        let dl := FVal.add vb (FVal.neg va)
        if tooLarge va || tooLarge vb || tooLarge dl then toF32 (FVal.add va (f32Val (toF32 (FVal.mul f (f32Val (toF32 dl))))))
        else
          let y := FVal.add va (FVal.mul f dl)
          bounded cand (toF32 y) (fun c => near c y (FVal.mul eps22 (FVal.add (FVal.absV va) (FVal.absV vb))))
    | _ => f32NaN

end Sys2Proof.Machine
end

