-- ==== Sys2Proof/Machine/FabAlu.lean ====
section
/-! DEFINITION. Cell instructions of the vector fabric: their fields (R142 to R145), which operands and lane types they take (R144,
R147), and what each opcode computes (R145 to R152, R165, R166). `WMUX` is put together per quad by the fabric. -/

namespace Sys2Proof.Machine

/-! ## Instructions (R142) -/

/-- A cell instruction, field by field. -/
structure FIns where
  opc : Nat
  lane : Nat
  typ : Nat
  srcs : List (Nat × Nat)
  dst : Nat
  outen : Bool
  rnd : Nat
  aux : Nat
  deriving DecidableEq, Repr

/-- The fields of 48 instruction bits: sources are (code, declared age). -/
def FIns.ofNat (v : Nat) : FIns :=
  let f (hi lo : Nat) : Nat := v / 2 ^ lo % 2 ^ (hi + 1 - lo)
  { opc := f 47 42, lane := f 41 40, typ := f 39 38, srcs := [(f 37 34, f 33 30), (f 29 26, f 25 22), (f 21 18, f 17 14)]
    dst := f 13 11, outen := v.testBit 10, rnd := f 9 8, aux := f 7 0 }

/-- Opcode codes of R147 that the fabric names. -/
def opNop : Nat := 0x00
def opAddc : Nat := 0x0D
def opSubc : Nat := 0x0E
def opWmux : Nat := 0x15
def opTab : Nat := 0x1F
def opWid : Nat := 0x20
def opNar : Nat := 0x21
def opDec : Nat := 0x24
def opEnc : Nat := 0x25

def FIns.carries (i : FIns) : Bool := i.opc == opAddc || i.opc == opSubc

/-- Latency in cycles of the cell's region clock (R147). -/
def latency (opc : Nat) : Nat :=
  if opc == 0x0C || opc == opWmux || opc == opDec then 2
  else if 0x16 ≤ opc && opc ≤ 0x1A then 3
  else if 0x1B ≤ opc && opc ≤ 0x1E then 5
  else if opc == opTab then 4
  else if opc == opNar || opc == 0x22 || opc == 0x23 || opc == opEnc then 3
  else 1

/-- Which of A, B, C an instruction uses (R144, R147, R148, R152). -/
def FIns.uses (i : FIns) : List Bool :=
  let bit (n : Nat) : Bool := i.aux.testBit n
  if i.opc == opNop then [false, false, false]
  else if [0x01, 0x12, 0x13, 0x1B, 0x1C, 0x1D, 0x1E, 0x1F, 0x20, 0x22, 0x23].contains i.opc then [true, false, false]
  else if [0x14, 0x15, 0x19, 0x1A].contains i.opc then [true, true, true]
  else if 0x06 ≤ i.opc && i.opc ≤ 0x08 then [true, !bit 7, false]
  else if i.opc == opDec then [true, !bit 6, false]
  else if i.opc == opEnc then [true, true, !bit 6]
  else [true, true, false]

/-! ## Lanes (R145) -/

/-- Element type of a lane. -/
inductive LaneTy where
  | flt (f : FFmt)
  | int (signed : Bool)
  deriving DecidableEq, Repr

/-- Lane width and element type of LANE and TYP; none where reserved. -/
def laneTy (lane typ : Nat) : Option (Nat × LaneTy) :=
  match lane, typ with
  | 0, 0 => some (32, .flt .fp32) | 0, 1 => some (32, .int true) | 0, 2 => some (32, .int false)
  | 1, 0 => some (16, .flt .bf16) | 1, 1 => some (16, .flt .fp16) | 1, 2 => some (16, .int true) | 1, 3 => some (16, .int false)
  | 2, 0 => some (8, .flt .e4m3) | 2, 1 => some (8, .flt .e5m2) | 2, 2 => some (8, .int true) | 2, 3 => some (8, .int false)
  | _, _ => none

def LaneTy.isFlt : LaneTy → Bool | .flt _ => true | .int _ => false

/-- The Lane modes column of R147. -/
def laneOk (opc lane typ : Nat) : Bool :=
  match laneTy lane typ with
  | none => false
  | some (_, t) =>
    if 0x06 ≤ opc && opc ≤ 0x0C then !t.isFlt
    else if opc == opAddc || opc == opSubc then lane == 0 && !t.isFlt
    else if 0x16 ≤ opc && opc ≤ 0x1E then t.isFlt
    else if opc == opTab then t.isFlt && decide (lane ≤ 1)
    else if opc == opNar then lane != 0
    else if opc == opWmux || (0x22 ≤ opc && opc ≤ 0x25) then lane == 0
    else true

/-- Lanes of a word, lane 0 first. -/
def lanesOf (w x : Nat) : List Nat := (List.range (32 / w)).map (fun i => x / 2 ^ (w * i) % 2 ^ w)
/-- A word from its lanes. -/
def joinLanes (w : Nat) (ls : List Nat) : Nat := ls.foldr (fun l acc => l % 2 ^ w + 2 ^ w * acc) 0

/-- The exact FP32 value of a floating-point lane (R66). -/
def laneF32 (f : FFmt) (c : Nat) : F32 := f32OfVal (decodeF f c)
/-- The integer value of a lane. -/
def laneInt (w : Nat) (signed : Bool) (c : Nat) : Int := if signed then sext w c else (c % 2 ^ w : Nat)
def laneMin (w : Nat) (signed : Bool) : Int := if signed then -(2 ^ (w - 1) : Nat) else 0
def laneMax (w : Nat) (signed : Bool) : Int := if signed then (2 ^ (w - 1) : Nat) - 1 else (2 ^ w : Nat) - 1

/-- An FP32 value rounded once to a lane's type (R85, R146, R148, R149). -/
def toLane (w : Nat) (t : LaneTy) (sat : Bool) (r : Rnd) (x : F32) : Nat :=
  match t with
  | .flt f => if f = FFmt.fp32 then (if isNaN x then f32NaN else x).toNat else (narrowF f sat r (f32Val x)).code
  | .int s =>
    match f32Val x with
    | .nan => 0
    | .inf n => wrapInt w (if n then laneMin w s else laneMax w s)
    | v => wrapInt w (clampInt (laneMin w s) (laneMax w s) (roundInt r v)).1

/-- The canonical NaN of a lane format. -/
def laneNaN (f : FFmt) : Nat := f.nanCode

/-- `SHL`, `SHR`, `SRA`, `IADD`, `ISUB`, `IADDS`, `IMUL` on one lane (R146, R148). -/
def intOp (i : FIns) (w : Nat) (signed : Bool) (x y : Nat) : Nat :=
  let amt := if i.aux.testBit 7 then i.aux % 32 else y % w
  match i.opc with
  | 0x06 => if amt < w then x * 2 ^ amt % 2 ^ w else 0
  | 0x07 => if amt < w then x / 2 ^ amt else 0
  | 0x08 => wrapInt w (sext w x / (2 ^ min amt (w - 1) : Nat))
  | 0x09 => (x + y) % 2 ^ w
  | 0x0A => (x + (2 ^ w - y)) % 2 ^ w
  | 0x0B => wrapInt w (clampInt (laneMin w signed) (laneMax w signed) (laneInt w signed x + laneInt w signed y)).1
  | _ => x * y % 2 ^ w

/-- Condition codes of `CMP` (R148) on an ordering; none when either operand is NaN. -/
def cmpHolds (cond : Nat) (o : Option Ordering) : Bool :=
  match o with
  | none => cond == 1 || cond == 6
  | some .eq => cond == 0 || cond == 3 || cond == 5
  | some .lt => cond == 1 || cond == 2 || cond == 3
  | some .gt => cond == 1 || cond == 4 || cond == 5

/-- Order of two lanes. -/
def laneCmp (w : Nat) (t : LaneTy) (x y : Nat) : Option Ordering :=
  match t with
  | .flt f => FVal.cmp (decodeF f x) (decodeF f y)
  | .int s => some (compare (laneInt w s x) (laneInt w s y))

/-- `MIN` and `MAX` (R148): −0 is below +0. -/
def minMax (w : Nat) (t : LaneTy) (max' : Bool) (x y : Nat) : Nat :=
  match t, laneCmp w t x y with
  | .flt f, none => laneNaN f
  | .flt f, some .eq =>
    let xNeg := (decodeF f x).sign
    if xNeg != max' then x else y
  | _, some .lt => if max' then y else x
  | _, some .gt => if max' then x else y
  | _, _ => x

/-- `ABS` and `NEG` (R148). -/
def absNeg (w : Nat) (t : LaneTy) (neg : Bool) (x : Nat) : Nat :=
  match t with
  | .flt f =>
    if decodeF f x == .nan then laneNaN f
    else if neg then (if x.testBit (w - 1) then x - 2 ^ (w - 1) else x + 2 ^ (w - 1)) else x % 2 ^ (w - 1)
  | .int s =>
    if neg then wrapInt w (-(laneInt w s x)) else if s then wrapInt w (laneInt w s x).natAbs else x

/-- A floating-point operation on decoded lanes (R83, R84, R165). -/
def fltOp (opc : Nat) (tab : Option Tab) (a b c : F32) : F32 :=
  match opc with
  | 0x16 => fadd a b
  | 0x17 => fsub a b
  | 0x18 => fmul a b
  | 0x19 => ffma a b c
  | 0x1A => ffnma a b c
  | 0x1B => approxRcp a
  | 0x1C => approxRsq a
  | 0x1D => approxEx2 a
  | 0x1E => approxLg2 a
  | _ => match tab with | some t => t.look a | none => f32NaN

/-- Lanes of a floating-point instruction, each drawing its own random value under SR; the words and the next draw. -/
def fltLanes (i : FIns) (w : Nat) (f : FFmt) (tab : Option Tab) : List (Nat × Nat × Nat) → Nat → List Nat × Nat
  | [], ctr => ([], ctr)
  | (x, y, z) :: rest, ctr =>
    let v := fltOp i.opc tab (laneF32 f x) (laneF32 f y) (laneF32 f z)
    let r := rndOf i.rnd (Config.random16 ctr)
    let draws := i.rnd = 2 ∧ f ≠ FFmt.fp32
    let (ls, c) := fltLanes i w f tab rest (if draws then ctr + 1 else ctr)
    (toLane w (.flt f) (i.lane != 0 && i.aux.testBit 4) r v :: ls, c)

/-- The swatch entry of `DEC` (R152). -/
def decOp (i : FIns) (store : List Byte) (a b : Nat) : F32 :=
  if i.aux.testBit 6 then cb8Entry store (a / 2 ^ (8 * (i.aux % 4)) % 256)
  else cb4Entry store (b % 16) (a / 2 ^ (4 * (i.aux % 8)) % 16)

/-- A field of `w` bits at lane `k` of a word replaced. -/
def putField (w k v x : Nat) : Nat := x - x / 2 ^ (w * k) % 2 ^ w * 2 ^ (w * k) + v % 2 ^ w * 2 ^ (w * k)

/-- `ENC` (R152, R56). -/
def encOp (i : FIns) (store : List Byte) (r : Rnd) (a b c : Nat) : Nat :=
  let cb8 := i.aux.testBit 6
  let e := swatchEncodeFmt cb8 store (c % 16) r (f32Val (BitVec.ofNat 32 a))
  if cb8 then putField 8 (i.aux % 4) e.code b else putField 4 (i.aux % 8) e.code b

/-- The result of an instruction other than `NOP` and `WMUX`: the word, the carry-out, and the next draw. `stores` are SW0 and SW1. -/
def cellOp (i : FIns) (tab : Option Tab) (stores : List (List Byte)) (cin : Bool) (ctr a b c : Nat) : Nat × Bool × Nat :=
  let r := rndOf i.rnd (Config.random16 ctr)
  let ctr1 := if i.rnd = 2 then ctr + 1 else ctr
  let m32 := 2 ^ 32
  let store := stores.getD (if i.aux.testBit 7 then 1 else 0) []
  match i.opc with
  | 0x01 => (a, false, ctr)
  | 0x02 => (Nat.land a b, false, ctr)
  | 0x03 => (Nat.lor a b, false, ctr)
  | 0x04 => (Nat.xor a b, false, ctr)
  | 0x05 => (Nat.land a (m32 - 1 - b), false, ctr)
  | 0x14 => (Nat.lor (Nat.land c a) (Nat.land (m32 - 1 - c) b), false, ctr)
  | 0x0D => let s := a + b + cin.toNat; (s % m32, decide (m32 ≤ s), ctr)
  | 0x0E => ((a + 2 * m32 - b - cin.toNat) % m32, decide (a < b + cin.toNat), ctr)
  | 0x22 =>
    let x := sext 32 a
    ((f32OfRat r (decide (x < 0)) x.natAbs 1).toNat, false, ctr1)
  | 0x23 => (toLane 32 (.int true) false r (BitVec.ofNat 32 a), false, ctr1)
  | 0x24 => ((decOp i store a b).toNat, false, ctr)
  | 0x25 => (encOp i store r a b c, false, ctr1)
  | _ =>
    match laneTy i.lane i.typ with
    | none => (0, false, ctr)
    | some (w, t) =>
      let la := lanesOf w a
      let lb := lanesOf w b
      let lc := lanesOf w c
      if i.opc == opWid then
        let x := la.getD (i.aux % 4) 0
        (match t with
         | .flt f => ((laneF32 f x).toNat, false, ctr)
         | .int s => (wrapInt 32 (laneInt w s x), false, ctr))
      else if i.opc == opNar then
        (putField w (i.aux / 32 % 4) (toLane w t (i.aux.testBit 4) r (BitVec.ofNat 32 a)) b, false, ctr1)
      else if 0x06 ≤ i.opc ∧ i.opc ≤ 0x0C then
        (joinLanes w ((List.zip la lb).map (fun e => intOp i w (match t with | .int s => s | .flt _ => false) e.1 e.2)), false, ctr)
      else if i.opc = 0x0F then
        (joinLanes w ((List.zip la lb).map (fun e => if cmpHolds (i.aux % 8) (laneCmp w t e.1 e.2) then 2 ^ w - 1 else 0)), false, ctr)
      else if i.opc = 0x10 ∨ i.opc = 0x11 then
        (joinLanes w ((List.zip la lb).map (fun e => minMax w t (i.opc == 0x11) e.1 e.2)), false, ctr)
      else if i.opc = 0x12 ∨ i.opc = 0x13 then (joinLanes w (la.map (absNeg w t (i.opc == 0x13))), false, ctr)
      else
        (match t with
         | .flt f =>
           let (ls, ctr2) := fltLanes i w f tab ((List.zip la (List.zip lb lc))) ctr
           (joinLanes w ls, false, ctr2)
         | .int _ => (0, false, ctr))

end Sys2Proof.Machine
end

