-- ==== Sys2Proof/Machine/Image.lean ====
section
/-! DEFINITION. Fabric images: header, cell, edge and table records (R155, R164, R167, R180 to R182), clock regions (R141, R177), the
interconnect's sources (R155 to R157), and the checks of a load (R144, R150, R156, R157, R166, R168, R172, R184). -/

namespace Sys2Proof.Machine

/-- Consecutive pieces of n bytes, at most k of them. -/
def chunks (n : Nat) : Nat → List Byte → List (List Byte)
  | 0, _ => []
  | k + 1, bs => bs.take n :: chunks n k (bs.drop n)

/-! ## Records (R180, R181) -/

/-- One cell record: the bytes of its slots, its route word and constants. -/
structure CellRec where
  code : List Byte
  route : Word
  k0 : BitVec 32
  k1 : BitVec 32
  deriving DecidableEq, Repr

/-- The instruction in slot s. -/
def CellRec.slot (c : CellRec) (s : Nat) : FIns := FIns.ofNat (leNat ((c.code.drop (6 * s)).take 6))

def CellRec.ofBytes (bs : List Byte) : CellRec :=
  { code := bs.take 48, route := BitVec.ofNat 64 (leNat ((bs.drop 48).take 8))
    k0 := BitVec.ofNat 32 (leNat ((bs.drop 56).take 4)), k1 := BitVec.ofNat 32 (leNat ((bs.drop 60).take 4)) }

/-- An image read into its records. -/
structure Img where
  w0 : Word
  w1 : Word
  rows : Nat
  cells : List CellRec
  edges : List Word
  tabs : List (Nat × List Byte)
  deriving DecidableEq, Repr

/-- Rows of an image by its header. -/
def imgRows (w0 : Word) : Nat := if bitOf w0 34 then 16 else 8
/-- Columns whose TABLES bit is set, ascending. -/
def imgTabs (w0 : Word) : List Nat := (List.range 16).filter (fun c => bitOf w0 (2 + c))
/-- Size implied by the header. -/
def imgSize (w0 : Word) : Nat := 64 + 1024 * imgRows w0 + 8 * (32 + 2 * imgRows w0) + 4224 * (imgTabs w0).length

/-- The records of an image's bytes. -/
def Img.ofBytes (bs : List Byte) : Img :=
  let w0 : Word := BitVec.ofNat 64 (leNat (bs.take 8))
  let rows := imgRows w0
  let after := bs.drop (64 + 1024 * rows)
  { w0 := w0, w1 := BitVec.ofNat 64 (leNat ((bs.drop 8).take 8)), rows := rows
    cells := (chunks 64 (16 * rows) (bs.drop 64)).map CellRec.ofBytes
    edges := bytesToWords (32 + 2 * rows) after
    tabs := (imgTabs w0).zip (chunks 4224 (imgTabs w0).length (after.drop (8 * (32 + 2 * rows)))) }

namespace Img
def period (g : Img) : Nat := fld g.w0 29 26
def flush (g : Img) : Nat := fld g.w0 25 18
/-- Region q runs at ÷4. -/
def slow (g : Img) (q : Nat) : Bool := bitOf g.w0 (30 + q)
def cell (g : Img) (i : Nat) : CellRec := g.cells.getD i ⟨[], 0, 0, 0⟩
/-- Clock region of a row (R177, R182). -/
def region (g : Img) (row : Nat) : Nat := row / (g.rows / 4)
/-- The table of a column, if the image has one. -/
def table (g : Img) (col : Nat) : Option Tab := (g.tabs.find? (fun e => e.1 == col)).map (fun e => Tab.ofBytes e.2)

/-- Side (0 N, 1 E, 2 S, 3 W) and index of edge record e (R180). -/
def edgeName (g : Img) (e : Nat) : Nat × Nat :=
  if e < 16 then (0, e) else if e < 32 then (2, e - 16) else if e < 32 + g.rows then (3, e - 32) else (1, e - 32 - g.rows)
/-- Edge record number of a side and index. -/
def edgeNo (g : Img) (side i : Nat) : Nat :=
  match side with | 0 => i | 2 => 16 + i | 3 => 32 + i | _ => 32 + g.rows + i
/-- The cell an edge cell adjoins. -/
def edgeCell (g : Img) (e : Nat) : Nat :=
  match g.edgeName e with
  | (0, i) => i
  | (2, i) => 16 * (g.rows - 1) + i
  | (3, i) => 16 * i
  | (_, i) => 16 * i + 15
/-- Clock region of an edge cell (R167, R177). -/
def edgeRegion (g : Img) (e : Nat) : Nat :=
  match g.edgeName e with | (0, _) => 0 | (2, _) => 3 | (_, i) => g.region i
end Img

/-! ## Route words and edge records (R155, R167) -/

/-- OSEL of side d (0 N, 1 E, 2 S, 3 W). -/
def osel (r : Word) (d : Nat) : Nat := fld r (3 * d + 2) (3 * d)
/-- Wire registers on the input from side d. -/
def wreg (r : Word) (d : Nat) : Nat := fld r (13 + 2 * d) (12 + 2 * d)
/-- Express output of lane l: 0 eastbound, 1 westbound, 2 southbound, 3 northbound. -/
def xsel (r : Word) (l : Nat) : Nat := fld r (21 + 2 * l) (20 + 2 * l)

namespace Edge
def inKind (w : Word) : Nat := fld w 63 60
def inPort (w : Word) : Nat := fld w 59 55
def inSlot (w : Word) (s : Nat) : Bool := bitOf w (47 + s)
def inStart (w : Word) : Nat := fld w 46 43
def inConv (w : Word) : Bool := bitOf w 42
def outKind (w : Word) : Nat := fld w 41 38
def outPort (w : Word) : Nat := fld w 37 33
def outSlot (w : Word) (s : Nat) : Bool := bitOf w (25 + s)
def outLat (w : Word) : Nat := fld w 24 21
def outConv (w : Word) : Bool := bitOf w 20
def xlat (w : Word) : Nat := fld w 19 16
def pull (w : Word) : Nat := fld w 15 14
def keep (w : Word) : Bool := bitOf w 13
def ext (w : Word) : Bool := inKind w == 2 || outKind w == 2
def off (w : Word) : Bool := inKind w == 0 && outKind w == 0
end Edge

/-- The side opposite to d. -/
def opposite (d : Nat) : Nat := (d + 2) % 4

/-- The cell next to cell i on side d; none at the border. -/
def neighbour (rows i d : Nat) : Option Nat :=
  let r := i / 16
  let c := i % 16
  match d with
  | 0 => if r = 0 then none else some (i - 16)
  | 1 => if c = 15 then none else some (i + 1)
  | 2 => if r + 1 = rows then none else some (i + 16)
  | _ => if c = 0 then none else some (i - 1)

/-- The stop before cell i on express lane l, from which a word arrives (R157); none when there is none. -/
def laneFrom (rows i l : Nat) : Option Nat :=
  let r := i / 16
  let c := i % 16
  match l with
  | 0 => if c < 4 then none else some (i - 4)
  | 1 => if 12 ≤ c then none else some (i + 4)
  | 2 => if r < 4 then none else some (i - 64)
  | _ => if rows ≤ r + 4 then none else some (i + 64)

/-- Cell i is a stop of express lane l. -/
def isStop (i l : Nat) : Bool := if l < 2 then i % 16 % 4 == 0 else i / 16 % 4 == 0

/-! ## The checks of R184 -/

/-- One instruction at cell i (R142, R144, R147, R148, R157, R166, R184). -/
def insOk (g : Img) (i : Nat) (x : FIns) : Bool :=
  decide (x.opc < 0x26) && !(x.dst == 1 || x.dst == 2 || x.dst == 3) && x.rnd != 3 && laneOk x.opc x.lane x.typ &&
  (x.opc != 0x0F || x.aux % 8 != 7) &&
  (List.zip x.uses x.srcs).all (fun e =>
    let (used, s, lat) := e
    if !used then s == 15 && lat == 0
    else if 8 ≤ s then lat == 0
    else lat != 0 && (decide (s < 4) || isStop i (s - 4))) &&
  (x.opc != opTab || (decide (i < 16) && bitOf g.w0 (2 + i))) &&
  (x.opc != opWid || decide (x.aux % 4 < 2 ^ x.lane)) && (x.opc != opNar || decide (x.aux / 32 % 4 < 2 ^ x.lane))

/-- One route word at cell i (R155, R157). -/
def routeOk (i : Nat) (r : Word) : Bool :=
  fld r 63 28 == 0 && (List.range 4).all (fun d => osel r d != 5 && osel r d != 6) &&
  (List.range 4).all (fun l => xsel r l != 3 && (xsel r l == 0 || isStop i l))

/-- Length of the carry chain that ends at each cell of a row in slot s stays within four cells (R150). -/
def chainOk (g : Img) (row s : Nat) : Bool :=
  ((List.range 16).foldl (fun (acc : Bool × Nat) c =>
    let x := (g.cell (16 * row + c)).slot s
    if x.carries then (let n := if x.aux.testBit 1 then 1 else acc.2 + 1; (acc.1 && decide (n ≤ 4), n)) else (acc.1, 0)) (true, 0)).1

/-- The word driven out of side d of cell i passes through at most `fuel` more cells after it (R156): 3 in all, so a loop fails too. -/
def passOk (g : Img) : Nat → Nat → Nat → Bool
  | fuel, i, d =>
    match neighbour g.rows i d with
    | none => true
    | some j =>
      let r := (g.cell j).route
      let side := opposite d
      if wreg r side != 0 then true
      else
        let outs := (List.range 4).filter (fun d2 => osel r d2 == side + 1)
        match fuel with
        | 0 => outs.isEmpty
        | f + 1 => outs.all (fun d2 => passOk g f j d2)

/-- Every pass-through of a cell starts a chain of at most three (R156). -/
def passesOk (g : Img) (i : Nat) : Bool :=
  (List.range 4).all (fun d => let o := osel (g.cell i).route d; !(decide (1 ≤ o) && decide (o ≤ 4)) || passOk g 2 i d)

/-- Rows of the image at which an extension port attaches (R172, R182). -/
def extRows (ports rows : Nat) : List Nat := (List.range ports).map (fun p => p * rows / ports)

/-- One edge record (R167, R172, R174, R184). `ports`: usable extension ports. -/
def edgeOk (g : Img) (ports e : Nat) (w : Word) : Bool :=
  let (side, i) := g.edgeName e
  fld w 12 0 == 0 && decide (Edge.inKind w < 3) && decide (Edge.outKind w < 3) && Edge.pull w != 3 &&
  (Edge.outKind w == 0 || Edge.outLat w != 0) &&
  (!Edge.ext w || (side == 1 && (extRows ports g.rows).contains i && Edge.xlat w != 0 &&
    (!g.slow (g.edgeRegion e) || Edge.xlat w % 2 == 0)))

/-- No two edge cells read one input port (R168). -/
def inPortsOk (g : Img) : Bool :=
  let ps := (g.edges.filter (fun w => Edge.inKind w == 1)).map Edge.inPort
  ps.all (fun p => decide ((ps.filter (· == p)).length ≤ 1))

/-- A table record: finite XLO, modes 0 to 2, reserved bytes 0 (R164). -/
def tableOk (bs : List Byte) : Bool :=
  let t := Tab.ofBytes bs
  (match f32Val t.xlo with | .fin _ _ _ => true | _ => false) && decide (t.low < 3) && decide (t.high < 3) &&
  allZero ((bs.drop 7).take 57)

/-- Bytes of an image with the CRC field as 0 (R181). -/
def imgNoCrc (bs : List Byte) : List Byte := bs.take 8 ++ [0, 0, 0, 0] ++ bs.drop 12

/-- Every check of R184 on the bytes of an image. -/
def imageOk (p : Params) (d : Dev) (bs : List Byte) : Bool :=
  let g := Img.ofBytes bs
  let ports := if d.opts.extEn then p.extPorts else 0
  fld g.w0 63 48 == 0x4B46 && fld g.w0 47 40 == 1 && fld g.w0 39 35 == 0 && fld g.w0 1 0 == 0 && allZero ((bs.take 64).drop 16) &&
  fld g.w1 63 32 == imgSize g.w0 && (crc32 (imgNoCrc bs)).toNat == fld g.w1 31 0 &&
  decide (g.rows ≤ p.fabricRows) && g.period != 0 && decide (g.period ≤ 8) &&
  !(fld g.w0 33 30 != 0 && g.period % 2 == 1) &&
  (List.range (16 * g.rows)).all (fun i => (List.range 8).all (fun s => insOk g i ((g.cell i).slot s)) && routeOk i (g.cell i).route && passesOk g i) &&
  (List.range g.rows).all (fun r => (List.range 8).all (chainOk g r)) &&
  (List.zip (List.range g.edges.length) g.edges).all (fun e => edgeOk g ports e.1 e.2) && inPortsOk g &&
  g.tabs.all (fun t => tableOk t.2)

end Sys2Proof.Machine
end

