-- ==== Sys2Proof/Machine/Fittings.lean ====
section
/-! DEFINITION. Acceptance of FITTING and the armed capture (R552, R556). -/

namespace Sys2Proof.Machine

/-- FITTING at step 6: the core is in the gang (R306). -/
def fittingOk (s : State) (p : Pkt) : Bool := (gangOf s.dev p.q).mask.getLsbD (fld (p.b 0) 9 0) && decide (fld (p.b 0) 9 0 < 512)

/-- FITTING at step 7: PROVISIONED and RETURNED allow function 0 only (R556). -/
def fittingOwn (s : State) (p : Pkt) : Option Status :=
  if (s.dev.opts.lifecycle == 2 || s.dev.opts.lifecycle == 4) && p.func != 0 then some .notOwner else none

/-- FITTING at step 10: it waits while the named core has a fitting armed (R552). -/
def fittingTen (s : State) (p : Pkt) : Ten :=
  match (s.dev.siteOf (fld (p.b 0) 9 0)).bind (fun k => (s.dev.core k).fitting) with
  | some _ => .wait s
  | none => .mcast s

def semFitting : OpSem := ⟨rowFitting, fittingOk, fittingOwn, fittingTen⟩

/-- FITTING (R306, R552, R556). -/
def execFitting (q : QRef) (s : State) : Out := .next (acceptRow semFitting q s)

/-- The fitting a packet arms. -/
def armFitting (d : Dev) (p : Pkt) : Fitting :=
  { uid := p.uid, q := p.q, func := p.func, ctx := p.ctx, root := (d.ctx p.ctx).root, seq := p.seq, subidx := p.subidx
    tag := hTag p.w0, edge := fld (p.b 1) 39 0, va := (p.b 2).toNat, tile := bitOf (p.b 1) 63 }

end Sys2Proof.Machine
end

