-- ==== Sys2Proof/Machine/Pattern.lean ====
section
/-! DEFINITION. Pattern packets (CLASS 7): PATTERN_DEFINE, REPLAY, PATCH, LOOP, ENDLOOP, PRED_CMP and PRED_CLIP
(R261 to R264, R302 to R305). -/

namespace Sys2Proof.Machine

/-- The packets of a pattern checked in order, with the loop depth so far: whether all pass, or a read fault (R261). -/
def patternOk (s : State) (panel ctx q : Nat) (depth va : Nat) : Nat → Except XFault Bool
  | 0 => .ok (depth == 0)
  | n + 1 =>
    match readPacket s panel ctx va with
    | .error x => .error x
    | .ok ws =>
      let p := newPkt (.work q) Queue.none 0 0 0 ws none
      let isL := p.isOp rowLoop
      let isE := p.isOp rowEndloop
      if (step1 false p).isSome || p.isOp rowReplay || (isL && decide (2 ≤ depth)) || (isE && depth == 0) then .ok false
      else patternOk s panel ctx q (if isL then depth + 1 else if isE then depth - 1 else depth) (va + 64 * hGran p.w0) n

/-- What reading the packets of a pattern leaves behind. -/
def patternTouch (panel ctx : Nat) : Nat → Nat → State → State
  | 0, _, s => s
  | n + 1, va, s =>
    match readPacket s panel ctx va with
    | .error _ => packetTouch s panel ctx va
    | .ok ws => patternTouch panel ctx n (va + 64 * hGran (wordAt ws 0)) (packetTouch s panel ctx va)

/-- A fault of an access made at step 10: its record, then a refusal with PERM_FAULT (R402). -/
def tenFault (s : State) (p : Pkt) (x : XFault) : Ten := .refuse (s.upd (fun d => dFault d p.q p x)) .permFault 0

/-- PATTERN_DEFINE at step 10 (R261). -/
def patternDefineTen (s : State) (p : Pkt) : Ten :=
  let s0 := patternTouch (s.dev.queue p.q).home p.ctx (p.b 1).toNat (p.b 0).toNat s
  match patternOk s (s.dev.queue p.q).home p.ctx 0 0 (p.b 0).toNat (p.b 1).toNat with
  | .error x => tenFault s0 p x
  | .ok false => .refuse s0 .badParam 0
  | .ok true => createTen s0 5 0 p.ctx (.pattern (p.b 0).toNat (p.b 1).toNat)

def semPatternDefine : OpSem :=
  ⟨rowPatternDefine, fun _ p => aligned 64 (p.b 0).toNat && decide (1 ≤ (p.b 1).toNat) && decide ((p.b 1).toNat ≤ 65535), noOwn,
   patternDefineTen⟩
/-- PATTERN_DEFINE (R261, R565). -/
def execPatternDefine (q : QRef) (s : State) : Out := .next (acceptRow semPatternDefine q s)

/-- REPLAY at step 10: the replay begins; the packet ends step 10 behind the last packet it replays (R262). DESIGN CHOICE (log entry 11): a
handle word of 0 names no pattern, and nothing is replayed. -/
def replayTen (s : State) (p : Pkt) : Ten :=
  match (s.dev.entry (objB0 p)).payload with
  | .pattern va n =>
    .wait (s.upd (fun d => d.modQueue p.q (fun x => { x with replay := some ⟨p.uid, (objB0 p).slot, va, n, 0, va, []⟩ })))
  | _ => .done s id

def semReplay : OpSem := ⟨rowReplay, noCheck, noOwn, replayTen⟩
/-- REPLAY (R262, R263). -/
def execReplay (q : QRef) (s : State) : Out := .next (acceptRow semReplay q s)

/-- PATCH at step 6: the count fits the length, no register passes 255, words beyond the count are 0 (R274, R303). -/
def patchOk (_s : State) (p : Pkt) : Bool :=
  let n := fld (p.b 0) 12 8 + 1
  decide (n ≤ p.nbody - 1) && decide (fld (p.b 0) 7 0 + n ≤ 256) &&
  (List.range p.nbody).all (fun i => decide (i ≤ n) || p.b i == 0)

/-- PATCH at step 10: the registers in ascending order (R303). -/
def patchTen (s : State) (p : Pkt) : Ten :=
  .done (s.upd (fun d => (List.range (fld (p.b 0) 12 8 + 1)).foldl (fun d i => setReg d p.ctx (fld (p.b 0) 7 0 + i) (p.b (1 + i))) d)) id

def semPatch : OpSem := ⟨rowPatch, patchOk, noOwn, patchTen⟩
/-- PATCH (R278, R303). -/
def execPatch (q : QRef) (s : State) : Out := .next (acceptRow semPatch q s)

/-- Loops open in the replay of a queue. -/
def loopDepth (d : Dev) (q : QRef) : Nat := match (d.queue q).replay with | some r => r.loops.length | none => 0

/-- LOOP at step 6: inside a replay, at most two deep, with a count below 2^32 (R261, R263, R264). -/
def loopOk (s : State) (p : Pkt) : Bool :=
  p.parent.isSome && decide (loopDepth s.dev p.q < 2) && decide ((p.b 0).toNat < 2 ^ 32)

/-- The increments a LOOP enables: register and stride (R302). -/
def loopIncs (p : Pkt) : List (Nat × Word) :=
  (List.range 4).filterMap (fun i => if bitOf (p.b 1) (32 + i) then some (fld (p.b 1) (8 * i + 7) (8 * i), p.b (2 + i)) else none)

/-- LOOP at step 10 (R264): with a count of 0 it continues after the matching ENDLOOP. -/
def loopTen (s : State) (p : Pkt) : Ten :=
  let s0 := loopTouch s p.q
  match loopEnd s p.q, (s.dev.queue p.q).replay with
  | .error x, _ => tenFault s0 p x
  | .ok none, _ => .refuse s0 .badParam 0
  | .ok (some dst), some r =>
    if (p.b 0).toNat = 0 then .done (s0.upd (fun d => jump d p.q dst)) id
    else
      let incs := loopIncs p
      let f : LoopFrame := ⟨r.next, r.nextVa, (p.b 0).toNat, incs, incs.map (fun e => (e.1, ctxReg s.dev p.ctx e.1))⟩
      .done (s0.upd (fun d => d.modQueue p.q (fun x => { x with replay := some { r with loops := f :: r.loops } }))) id
  | .ok (some _), none => .refuse s0 .badParam 0

def semLoop : OpSem := ⟨rowLoop, loopOk, noOwn, loopTen⟩
/-- LOOP (R264). -/
def execLoop (q : QRef) (s : State) : Out := .next (acceptRow semLoop q s)

/-- ENDLOOP at step 10 (R264): the next iteration's increments, or the recorded values restored. -/
def endloopTen (s : State) (p : Pkt) : Ten :=
  match (s.dev.queue p.q).replay with
  | none => .refuse s .badParam 0
  | some r =>
    match r.loops with
    | [] => .refuse s .badParam 0
    | f :: fs =>
      if 1 < f.remaining then
        let d1 := f.incs.foldl (fun d e => setReg d p.ctx e.1 (ctxReg d p.ctx e.1 + e.2)) s.dev
        .done (s.withDev (d1.modQueue p.q (fun x =>
          { x with replay := some { r with next := f.body, nextVa := f.bodyVa, loops := { f with remaining := f.remaining - 1 } :: fs } }))) id
      else .done (s.upd (fun d => popLoop d p.q)) id

def semEndloop : OpSem := ⟨rowEndloop, fun s p => p.parent.isSome && decide (0 < loopDepth s.dev p.q), noOwn, endloopTen⟩
/-- ENDLOOP (R264). -/
def execEndloop (q : QRef) (s : State) : Out := .next (acceptRow semEndloop q s)

/-- The conditions of R304. -/
def predCond (c : Nat) (a b : Word) : Bool :=
  match c with
  | 0 => a == b
  | 1 => a != b
  | 2 => BitVec.ult a b
  | 3 => BitVec.ule a b
  | 4 => BitVec.slt a b
  | 5 => BitVec.sle a b
  | _ => false

def semPredCmp : OpSem :=
  ⟨rowPredCmp, fun _ p => decide (fld (p.b 0) 10 8 < 6), noOwn,
   fun s p => .done (s.upd (fun d => setPred d p.ctx (fld (p.b 0) 4 0) (predCond (fld (p.b 0) 10 8) (p.b 1) (p.b 2)))) id⟩
/-- PRED_CMP (R304). -/
def execPredCmp (q : QRef) (s : State) : Out := .next (acceptRow semPredCmp q s)

/-- Every earlier packet of the queue has retired (R275, code DR). -/
def alone (d : Dev) (p : Pkt) : Bool := ((d.queue p.q).flight.filter (fun x => x.uid != p.uid && !x.replaying)).isEmpty

/-- Statistics records merged in order (R93). -/
def mergeRecords : Nat → List Byte → Stats
  | 0, _ => Stats.empty
  | n + 1, bs => Stats.merge (Stats.ofRecord (bytesToWords 24 bs)) (mergeRecords n (bs.drop 192))

/-- PRED_CLIP at step 10 (R94, R305). -/
def predClipTen (s : State) (p : Pkt) : Ten :=
  if !alone s.dev p then .wait s
  else
    let s0 := dTouch s (s.dev.queue p.q).home p.ctx ((p.b 0).toNat + 192 * (p.b 1).toNat) (192 * (p.b 2).toNat) .read
    match dRead s (s.dev.queue p.q).home p.ctx ((p.b 0).toNat + 192 * (p.b 1).toNat) (192 * (p.b 2).toNat) with
    | .error x => tenFault s0 p x
    | .ok bs =>
      let ovf := clipExceeds (mergeRecords (p.b 2).toNat bs) (fld (p.b 3) 15 0)
      .done s0 (fun x => { x with pendPred := some (fld (p.b 3) 20 16), predVal := ovf })

def semPredClip : OpSem :=
  ⟨rowPredClip, fun _ p => decide (1 ≤ (p.b 2).toNat) && decide ((p.b 2).toNat ≤ 1024), noOwn, predClipTen⟩
/-- PRED_CLIP (R94, R305, R565). -/
def execPredClip (q : QRef) (s : State) : Out := .next (acceptRow semPredClip q s)

end Sys2Proof.Machine
end

