-- ==== Sys2Proof/Machine/Sync.lean ====
section
/-! DEFINITION. Synchronisation packets (CLASS 5) and MARK: acceptance of BAR, SEAM, TACK_WAIT, TACK_SIGNAL, TACK_ADD, BOBBIN_SET
(R260, R298 to R300, R306, R328, R329, R331, R372 to R377). -/

namespace Sys2Proof.Machine

def semBar : OpSem := ⟨rowBar, fun _ p => p.b 0 != 0, noOwn, toCores⟩
/-- BAR (R260, R298). -/
def execBar (q : QRef) (s : State) : Out := .next (acceptRow semBar q s)

def semMark : OpSem := ⟨rowMark, noCheck, noOwn, toCores⟩
/-- MARK (R306). -/
def execMark (q : QRef) (s : State) : Out := .next (acceptRow semMark q s)

/-! ## SEAM -/

/-- Home panel, scope (true: partition) and open episode of a seam. -/
def seamOf (d : Dev) (slot : Nat) : Nat × Option Bool × Option Episode :=
  match (d.entry ⟨4, slot⟩).payload with
  | .seam h sc ep => (h, sc, ep)
  | _ => (0, none, none)

/-- The seam's scope and episode rewritten. -/
def setSeam (d : Dev) (slot : Nat) (sc : Option Bool) (ep : Option Episode) : Dev :=
  match (d.entry ⟨4, slot⟩).payload with
  | .seam h _ _ => d.modEntry ⟨4, slot⟩ (fun e => { e with payload := .seam h sc ep })
  | _ => d

/-- The slot of the seam that a handle word names; a word of 0 names none (R276), and no table has slot 4096. -/
def seamSlot (w : Word) : Nat := if w = 0 then 4096 else fld w 19 0

/-- SEAM at step 6: the scope agrees with the one the first SEAM fixed (R328); a handle that names no seam of the function's is left to step 7. -/
def seamOk (s : State) (p : Pkt) : Bool :=
  match checkHandle s.params s.dev [4] p.func p.ctx (fld (p.b 0) 31 0) with
  | .error _ => true
  | .ok r => match (seamOf s.dev r.slot).2.1 with
    | none => true
    | some sc => sc == bitOf (p.b 1) 0

/-- Work queues of a function whose gangs have a present core in the covered partitions (R331). -/
def partQueues (d : Dev) (f : Nat) (covered : List Nat) : List Nat :=
  Tbl.keys (fun x => x.live && x.func == f && (gangParts d (d.gang x.home x.gang)).any covered.contains) d.queues

/-- SEAM at step 10 (R329, R331): a gang-scope SEAM waits for the seam's open episode, then opens one; a partition-scope SEAM joins
the open episode or opens one over the partitions of its gang. DESIGN CHOICE (log entry 11): a handle word of 0 names no seam, and the packet
belongs to no episode. -/
def seamTen (s : State) (p : Pkt) : Ten :=
  let slot := seamSlot (p.b 0)
  let (_, _, ep) := seamOf s.dev slot
  if !bitOf (p.b 1) 0 then
    match ep with
    | some _ => .wait s
    | none => .mcast (s.upd (fun d => setSeam d slot (some false) (some ⟨false, [], [], [], [], [p.uid]⟩)))
  else
    match ep with
    | some e => .mcast (s.upd (fun d => setSeam d slot (some true) (some { e with pkts := e.pkts ++ [p.uid] })))
    | none =>
      let cov := gangParts s.dev (gangOf s.dev p.q)
      .mcast (s.upd (fun d => setSeam d slot (some true) (some ⟨true, [], [], cov, partQueues s.dev p.func cov, [p.uid]⟩)))

def semSeam : OpSem := ⟨rowSeam, seamOk, noOwn, seamTen⟩
/-- SEAM (R328, R329, R331). -/
def execSeam (q : QRef) (s : State) : Out := .next (acceptRow semSeam q s)

/-! ## Tacks and bobbins -/

/-- TACK_WAIT at step 10 (R299, R372, R375, R382). DESIGN CHOICE (log entry 11): a handle word of 0 names no tack, and nothing is awaited. -/
def tackWaitTen (s : State) (p : Pkt) : Ten :=
  let (c, broken) := tackVal s.dev (objB0 p)
  if p.waitEnded || p.b 0 == 0 then .done s id
  else if broken then .refuse s .tackBroken 0 else if reached c (p.b 1) then .done s id else .wait s

def semTackWait : OpSem := ⟨rowTackWait, noCheck, noOwn, tackWaitTen⟩
/-- TACK_WAIT (R299, R372). -/
def execTackWait (q : QRef) (s : State) : Out := .next (acceptRow semTackWait q s)

def semTackSignal : OpSem := ⟨rowTackSignal, noCheck, noOwn, fun s _ => .done s id⟩
/-- TACK_SIGNAL: completes at step 10, acts at retirement (R299, R373). -/
def execTackSignal (q : QRef) (s : State) : Out := .next (acceptRow semTackSignal q s)

def semTackAdd : OpSem := ⟨rowTackAdd, noCheck, noOwn, fun s _ => .done s id⟩
/-- TACK_ADD: completes at step 10, acts at retirement (R299, R374). -/
def execTackAdd (q : QRef) (s : State) : Out := .next (acceptRow semTackAdd q s)

/-- Every earlier accepted packet of the queue that names the bobbin has completed (R300). -/
def bobbinFree (d : Dev) (p : Pkt) (r : ObjRef) : Bool :=
  (d.queue p.q).flight.all (fun x => x.uid == p.uid || x.done || !x.holds.contains r)

/-- BOBBIN_SET at step 10 (R300, R320). -/
def bobbinSetTen (s : State) (p : Pkt) : Ten :=
  let r := objB0 p
  if bobbinFree s.dev p r then
    .done (s.upd (fun d => d.modEntry r (fun e =>
      { e with payload := .bobbin (BitVec.ofNat 32 (fld (p.b 1) 31 0)) (BitVec.ofNat 32 (fld (p.b 2) 31 0)) }))) id
  else .wait s

def semBobbinSet : OpSem := ⟨rowBobbinSet, noCheck, noOwn, bobbinSetTen⟩
/-- BOBBIN_SET (R300, R320). -/
def execBobbinSet (q : QRef) (s : State) : Out := .next (acceptRow semBobbinSet q s)

end Sys2Proof.Machine
end

