-- ==== Sys2Proof/Machine/WorkPkt.lean ====
section
/-! DEFINITION. Acceptance of the stream, matrix, vector and chain packets (CLASS 1 to 4): COPY, FILL, ACC_CLEAR, STATS, DESC_WRITE,
MATMUL, FAB_LOAD, FAB_RUN, CHAIN (R279 to R297, R309, R327, R565). What the cores do with them lies in the core files. -/

namespace Sys2Proof.Machine

/-- The work-layout check of step 6 for the present members of the queue's gang. -/
def workCheck (row : OpRow) (s : State) (p : Pkt) : Bool :=
  workOk s.params.opuDim (present s.dev (gangOf s.dev p.q)).length row (p.words.drop 2)

def semMatmul : OpSem := ⟨rowMatmul, workCheck rowMatmul, noOwn, toCores⟩
/-- MATMUL (R283, R297). -/
def execMatmul (q : QRef) (s : State) : Out := .next (acceptRow semMatmul q s)

def semFabRun : OpSem := ⟨rowFabRun, workCheck rowFabRun, noOwn, toCores⟩
/-- FAB_RUN (R283, R297). -/
def execFabRun (q : QRef) (s : State) : Out := .next (acceptRow semFabRun q s)

def semChain : OpSem := ⟨rowChain, workCheck rowChain, noOwn, toCores⟩
/-- CHAIN (R283, R297). -/
def execChain (q : QRef) (s : State) : Out := .next (acceptRow semChain q s)

def semFabLoad : OpSem := ⟨rowFabLoad, fun _ p => aligned 64 (p.b 0).toNat, noOwn, toCores⟩
/-- FAB_LOAD (R184, R297, R565). -/
def execFabLoad (q : QRef) (s : State) : Out := .next (acceptRow semFabLoad q s)

/-- Body words B0 to B(n − 1) are multiples of 64 (R294, R565). -/
def grains (n : Nat) (p : Pkt) : Bool := (List.range n).all (fun i => aligned 64 (p.b i).toNat)

def semCopy : OpSem := ⟨rowCopy, fun _ p => grains 3 p, noOwn, toCores⟩
/-- COPY (R294). -/
def execCopy (q : QRef) (s : State) : Out := .next (acceptRow semCopy q s)

def semFill : OpSem := ⟨rowFill, fun _ p => grains 2 p, noOwn, toCores⟩
/-- FILL (R294). -/
def execFill (q : QRef) (s : State) : Out := .next (acceptRow semFill q s)

def semAccClear : OpSem := ⟨rowAccClear, fun _ p => grains 2 p, noOwn, toCores⟩
/-- ACC_CLEAR (R294, R295). -/
def execAccClear (q : QRef) (s : State) : Out := .next (acceptRow semAccClear q s)

/-- STATS at step 6: both format descriptors (R36, R46, R72). -/
def statsOk (_s : State) (p : Pkt) : Bool :=
  (FDesc.ofNat (fld (p.b 2) 31 0)).ok .statsSource && (FDesc.ofNat (fld (p.b 2) 63 32)).ok .statsTarget

def semStats : OpSem := ⟨rowStats, statsOk, noOwn, toCores⟩
/-- STATS (R294, R295). -/
def execStats (q : QRef) (s : State) : Out := .next (acceptRow semStats q s)

/-- Every earlier accepted packet of the queue has finished its bundle copy in every core of its gang (R296). -/
def copiesDone (d : Dev) (p : Pkt) : Bool :=
  let before := ((d.queue p.q).flight.filter (fun x => x.uid != p.uid && !x.done)).map (·.uid)
  d.cores.all (fun e => e.2.cmds.all (fun m =>
    !before.contains m.uid || m.copied || m.fail.isSome || !(m.cls == 2 || m.cls == 4 || (m.cls == 3 && m.opc == 2))))

/-- Descriptors written one by one; a fault keeps those already written (R296). -/
def writeDescs (s : State) (panel ctx va : Nat) : List (List Word) → State × Option XFault
  | [] => (s, none)
  | ws :: rest =>
    match dWrite (dTouch s panel ctx va 64 .write) panel ctx va (wordsToBytes ws) with
    | .error x => (dTouch s panel ctx va 64 .write, some x)
    | .ok s1 => writeDescs s1 panel ctx (va + 64) rest

/-- DESC_WRITE at step 10 (R212, R296). -/
def descWriteTen (s : State) (p : Pkt) : Ten :=
  if !copiesDone s.dev p then .wait s
  else
    let ds := (List.range (p.b 1).toNat).map (fun i => (List.range 8).map (fun j => p.b (2 + 8 * i + j)))
    match writeDescs s (s.dev.queue p.q).home p.ctx (p.b 0).toNat ds with
    | (s1, none) => .done s1 id
    | (s1, some x) => tenFault s1 p x

def semDescWrite : OpSem :=
  ⟨rowDescWrite, fun _ p => aligned 64 (p.b 0).toNat && decide (1 ≤ (p.b 1).toNat) && decide ((p.b 1).toNat ≤ 3), noOwn, descWriteTen⟩
/-- DESC_WRITE (R296, R565). -/
def execDescWrite (q : QRef) (s : State) : Out := .next (acceptRow semDescWrite q s)

end Sys2Proof.Machine
end

