-- ==== Sys2Proof/Machine/Retire.lean ====
section
/-! DEFINITION. What follows acceptance: waits released by a tack (R377), multicast to the gang (R255, R317 to R319), completion of a
packet (R257, R258) and its retirement (R256 to R258, R262, R266, R269). -/

namespace Sys2Proof.Machine

/-! ## WAIT_TACK_RESUME -/

/-- The opcodes of work queues. -/
def workSems : List OpSem :=
  [semCopy, semFill, semAccClear, semStats, semDescWrite, semMatmul, semFabLoad, semFabRun, semChain, semBar, semSeam, semTackWait,
   semTackSignal, semTackAdd, semBobbinSet] ++
  [semObjCreate, semObjRelease, semTackCreate, semTackExport, semTackImport, semBobbinCreate, semSeamCreate, semHeapSetup, semAlloc,
   semFree, semXlateInval, semQuery] ++
  [semPatternDefine, semReplay, semPatch, semLoop, semEndloop, semPredCmp, semPredClip, semMark, semFitting]

/-- The waits of one queue on a tack re-evaluated. -/
def resumeQueue (slot : Nat) (s : State) (q : QRef) : State :=
  match (s.dev.queue q).flight.find? (waitsOn s.dev slot) with
  | none => s
  | some p =>
    match workSems.find? (fun m => p.isOp m.row) with
    | some sem => acceptRow sem q s
    | none => s

/-- WAIT_TACK_RESUME: every wait on the tack is re-evaluated (R377, R382). -/
def execWaitTackResume (slot : Nat) (s : State) : Out := .next (s.dev.queueRefs.foldl (resumeQueue slot) s)

/-! ## Completion (R257, R258, R366) -/

/-- A multicast packet that has no member left to report completes: MARK takes the device time, a bound spool entry is freed (R223,
R306), references are dropped. -/
def completePkt (s : State) (q : QRef) (uid : Nat) : State :=
  match s.dev.pkt q uid with
  | none => s
  | some p =>
    let d1 := s.dev.modPkt q uid (fun p => { p with done := true, value := if p.isOp rowMark then s.dev.time else p.value })
    let d2 := if p.pop.isSome then d1.modCtx p.ctx (fun x => { x with spool := x.spool.filter (fun e => e.popUid != some uid) }) else d1
    dropDone (s.withDev d2) q

/-- The report of one core to its packet: the highest status and the lowest core that gave it (R258). -/
def mergeReport (idx : Nat) (st : Status) (det : Word) (p : Pkt) : Pkt :=
  let p1 := { p with waiting := p.waiting.filter (· != idx) }
  if st == .done then p1
  else
    let n := p.nfail + 1
    if p.status.code < st.code then { p1 with nfail := n, status := st, core := idx, detail := det }
    else if p.status == st && decide (idx < p.core) then { p1 with nfail := n, core := idx, detail := det }
    else { p1 with nfail := n }

/-- A core's report of a command to dispatch; the last report completes the packet. -/
def reportCore (s : State) (q : QRef) (uid idx : Nat) (st : Status) (det : Word) : State :=
  match s.dev.pkt q uid with
  | none => s
  | some p =>
    if !p.waiting.contains idx then s
    else
      let s1 := s.upd (fun d => d.modPkt q uid (mergeReport idx st det))
      if (p.waiting.filter (· != idx)).isEmpty && !(p.isOp rowSeam && bitOf (p.b 1) 0) then completePkt s1 q uid else s1

/-! ## Multicast -/

/-- The command a packet becomes in the member of a rank. -/
def newCmd (d : Dev) (p : Pkt) (rank n arr : Nat) : Cmd :=
  let x := d.ctx p.ctx
  let entry (o : Nat) : Option SpoolEntry := x.spool.find? (fun e => e.off == o)
  { uid := p.uid, q := p.q, seq := p.seq, subidx := p.subidx, tag := hTag p.w0, func := p.func, ctx := p.ctx, root := x.root
    cls := hCls p.w0, opc := hOpc p.w0, body := p.words.drop 2, rank := rank, nmem := n
    push := p.push.bind (fun o => (entry o).map (fun e => (o, e.pushSize)))
    pop := p.pop.bind (fun o => (entry o).map (fun e => (o, e.size)))
    block := none, admitted := false, reserved := false, regions := [], descs := [], copied := false, swDone := []
    items := [], takePending := false, empty := false, tileSegs := [], vDone := false, cursor := 0, fail := none
    stats := [], portStats := [], filled := 0, drained := 0, krun := 0, kdone := 0, started := false, released := false, acks := 0
    arr := arr, heldBy := none, statsWritten := false }

/-- The members a packet is multicast to: the present members of the gang, or the core a `FITTING` names (R317, R552). -/
def mcastMembers (d : Dev) (p : Pkt) : List Nat :=
  let ms := present d (gangOf d p.q)
  if p.isOp rowFitting then ms.filter (· == fld (p.b 0) 9 0) else ms

/-- A lost core counts as started in every open gang-scope episode it takes part in. -/
def lostStarts (d : Dev) (idx : Nat) : Dev :=
  { d with objs := { d.objs with seam := { d.objs.seam with
      entries := Tbl.mapv (fun e => match e.payload with
        | .seam h sc (some ep) =>
          if !ep.partScope && ep.cores.contains idx && !ep.started.contains idx then
            { e with payload := .seam h sc (some { ep with started := ep.started ++ [idx] }) } else e
        | _ => e) d.objs.seam.entries } } }

/-- A packet put into the input of one member: a command, or an armed fitting (R552). A core being cleared reports PARTITION_CLEARED
and takes nothing; in a SEAM's episode it counts as started (R442). -/
def deliver (p : Pkt) (n : Nat) (s : State) (ri : Nat × Nat) : State :=
  match s.dev.siteOf ri.2 with
  | none => s
  | some k =>
    if (s.dev.core k).clearing then
      reportCore (if p.isOp rowSeam then s.upd (fun d => lostStarts d ri.2) else s) p.q p.uid ri.2 .partitionCleared 0
    else if p.isOp rowFitting then
      s.upd (fun d => d.modCore k (fun c => { c with fitting := some (armFitting d p) }))
    else s.upd (fun d => d.modCore k (fun c => { c with cmds := c.cmds ++ [newCmd d p ri.1 n c.arrived], arrived := c.arrived + 1 }))

/-- A gang-scope SEAM's episode takes the members it is multicast to; without one it ends (R329). -/
def seamCores (d : Dev) (p : Pkt) (ms : List Nat) : Dev :=
  if p.isOp rowSeam && !bitOf (p.b 1) 0 then
    let slot := seamSlot (p.b 0)
    match seamOf d slot with
    | (_, sc, some ep) => setSeam d slot sc (if ms.isEmpty then none else some { ep with cores := ms })
    | _ => d
  else d

/-- A partition-scope SEAM holds its queue once it is accepted (R331). -/
def seamHolds (d : Dev) (p : Pkt) : Dev :=
  if p.isOp rowSeam && bitOf (p.b 1) 0 then
    let slot := seamSlot (p.b 0)
    match seamOf d slot with
    | (_, _, some ep) =>
      if (match p.q with | .work n => ep.queues.contains n | _ => false) then d.modQueue p.q (fun x => { x with seamHolds := x.seamHolds ++ [slot] }) else d
    | _ => d
  else d

/-- The packet leaves step 10 and reaches every member (R18, R255, R317). -/
def multicastPkt (s : State) (p : Pkt) : State :=
  let ms := mcastMembers s.dev p
  let d1 := leavePkt (seamHolds (seamCores s.dev p ms) p) p.q p.uid .accepted (fun p => { p with members := ms, waiting := ms })
  let s1 := (List.zip (List.range ms.length) ms).foldl (deliver p ms.length) (s.withDev (replayNext d1 p.q))
  let s2 := if ms.isEmpty then completePkt (s1.upd (fun d => d.modPkt p.q p.uid (fun p => { p with status := .coreRetired }))) p.q p.uid else s1
  dropDone s2 p.q

/-! ## Retirement -/

/-- The tack store of the tack's panel takes an operation for a queue: its arbiter's pointer moves to the queue (R29, R30). -/
def tackGrant (d : Dev) (q : QRef) (r : ObjRef) : Dev := d.won ((tackOf d r).slot / 8192) arbTack (queueIndex q)

/-- The tack actions of R257, steps 1 and 2. The second component: a SIGNAL regressed. -/
def retireActs (d : Dev) (p : Pkt) : Dev × Bool :=
  let act (d : Dev) (a : Option TackAct) : Dev × Bool := match a with
    | none => (d, false)
    | some a => if (d.entry a.ref).live && (d.entry a.ref).gen == a.gen then tackAct (tackGrant d p.q a.ref) a.ref a.add a.value else (d, false)
  let (d1, r1) := if p.status.good then act d p.sigTack else (d, false)
  let (d2, r2) := if p.status.good && p.status != .skipped then act d1 p.ownTack else (d1, false)
  (d2, r1 || r2)

/-- VALUE of TACK_SIGNAL and TACK_ADD: the tack's value after the action (R298, R382). -/
def retireValue (d : Dev) (p : Pkt) : Word :=
  match p.ownTack with
  | some a => if p.status.good && p.status != .skipped then (tackVal d a.ref).1 else 0
  | none => p.value

/-- Result register and predicate of R257, step 3. -/
def retireWrites (d : Dev) (p : Pkt) (v : Word) : Dev :=
  if p.status.good && p.status != .skipped then
    let d1 := match p.pendReg with | some r => setReg d p.ctx r v | none => d
    match p.pendPred with | some r => setPred d1 p.ctx r p.predVal | none => d1
  else d

/-- The ring of a packet's replies (R249, R264). -/
def replyRing (p : Pkt) : RingRef := if p.isCtl then .control else .context p.ctx

/-- GEN of a reply: of the first descriptor in the member with the lowest index that completed its copy (R213). -/
def copyGen (p : Pkt) : Nat :=
  match p.copied with
  | [] => 0
  | c :: cs => (cs.foldl (fun m e => if e.1 < m.1 then e else m) c).2

/-- MIXED of a reply (R213). -/
def copyMixed (p : Pkt) : Bool := p.mixed || p.copied.any (fun e => e.2 != copyGen p)

/-- The reply record of a packet with its final status and value (R269). -/
def replyOf (p : Pkt) (st : Status) (v : Word) : Reply :=
  { seq := p.seq.toNat, tag := hTag p.w0, status := st.code, mixed := copyMixed p, mismatch := p.mcastMismatch, queue := qnum p.q
    subidx := p.replySub, gen := copyGen p, core := p.core, nfail := p.nfail, detail := p.detail
    value := if (st.good && st != .skipped) || p.isOp rowSpdm then v else 0 }

/-- The reply of R266, with its interrupt cause; none for a packet whose header was never read, or whose context is not its function's. -/
def retireReply (d : Dev) (p : Pkt) (st : Status) (v : Word) : Dev :=
  let code := hRply p.w0
  let asked := code == 1 || code == 2 || !(st == .done || st == .skipped)
  if p.quiet || !asked || !(p.isCtl || ownsCtx d p.func p.ctx) then d
  else
    let d1 := d.reply p.func (replyRing p) (replyOf p st v)
    if code == 2 || code == 3 then (if p.isCtl then d1.raise p.func 1 else d1.raiseCtx p.func p.ctx) else d1

/-- The parent REPLAY takes the status of the first of its packets that failed (R262). -/
def tellParent (d : Dev) (q : QRef) (p : Pkt) (st : Status) : Dev :=
  match p.parent with
  | none => d
  | some u =>
    if st.good then d
    else d.modPkt q u (fun r => if r.status == .done then { r with status := st, replySub := p.subidx } else r)

/-- An image comes into service (R477). -/
def takeImage (m : Mc) (n : NewImage) : Mc :=
  if n.isUc then { m with ucode := n.version, ucBody := n.body, ucOk := true } else { m with mcFw := n.version, fwBody := n.body, fwOk := true }

/-- The images of a retiring `FW_LOAD` come into service. -/
def imageRetires (d : Dev) (uid : Nat) : Dev :=
  { d with mc := { (d.mc.coming.filter (fun n => n.uid == uid)).foldl takeImage d.mc with coming := d.mc.coming.filter (fun n => n.uid != uid) } }

/-- A packet retires (R256, R257): tack actions, result, reply, counters, and the stop its status calls for. -/
def retirePkt (d : Dev) (q : QRef) (p : Pkt) : Dev :=
  let (d1, reg) := retireActs d p
  let v := retireValue d1 p
  let st := if reg then Status.higher p.status .tackRegress else p.status
  let d2 := retireReply (retireWrites d1 p v) p st v
  let d3 := d2.modQueue q (fun x => { x with
    flight := x.flight.filter (fun y => y.uid != p.uid)
    retired := if p.parent.isNone then x.retired + 1 else x.retired })
  let d4 := tellParent (imageRetires d3 p.uid) q p st
  if p.fate == .accepted && st.stops then stopQueue d4 q st.code true else d4

/-- The packet of a queue that may retire: the oldest in flight but for a replay in progress, once it has completed. -/
def retireNext (x : Queue) : Option Pkt :=
  match x.flight.find? (fun p => !p.replaying) with
  | some p => if p.done && p.stage == .left then some p else none
  | none => none

/-- The elements of one granule that a failed command's ACCW descriptors could reach take free values (R235). -/
def freeGran (s : State) (ctx : Nat) (e : Nat × Nat × Nat) : State :=
  let data := (List.range 16).flatMap (fun i => leBytes 4 (Config.freeWord32 (s.dev.freeCtr + i) 0).toNat)
  let en := ((List.range 64).filter (fun i => e.2.2.testBit (i / 4))).foldl (fun m i => m ||| 2 ^ i) 0
  let put (s : State) (a : Nat) : State :=
    (List.range 64).foldl (fun s i => if en.testBit i then hostSet s (a + i) (byteAt data i) else s) s
  let s1 := s.upd (fun d => { d with freeCtr := d.freeCtr + 16 })
  match translate s [] ctx e.1 e.2.1 .accum with
  | .error _ => s
  | .ok (.host a _) => put s1 a
  | .ok (.phys pa) => match locate s.params pa with
    | .host a => put s1 a
    | .stack k a => putGran s1 k (gran a) data en

/-- Every element that a spoiled packet's ACCW descriptors could reach takes a free value: it is indeterminate from the failure on (R235). -/
def spoil (s : State) (p : Pkt) : State := if p.spoiled then p.reach.foldl (fun s e => freeGran s p.ctx e) s else s

/-- PACKET_RETIRE: the queue's oldest packet retires when it has completed (R257). -/
def execPacketRetire (q : QRef) (s : State) : Out :=
  match retireNext (s.dev.queue q) with
  | none => .next s
  | some p => .next (dropDone ((spoil (dropDone s q) p).upd (fun d => retirePkt d q p)) q)

end Sys2Proof.Machine
end

