-- ==== Sys2Proof/Machine/Rings.lean ====
section
/-! DEFINITION. What a core holds: its engine queues and the order in them (R195, R259, R260, R288, R299), tile memory and region rings
(R188, R192, R196 to R201, R206, R207) and the servings of a region (R204, R286, R314, R315). -/

namespace Sys2Proof.Machine

/-! ## Commands and engine queues -/

namespace Cmd
def isOp (m : Cmd) (r : OpRow) : Bool := m.cls == r.cls && m.opc == r.opc
/-- The work layout of the command's packet. -/
def work (m : Cmd) : WorkL := WorkL.ofBody m.body
def isWork (m : Cmd) : Bool := m.isOp rowMatmul || m.isOp rowFabRun || m.isOp rowChain
def isMatrix (m : Cmd) : Bool := m.isOp rowMatmul || m.isOp rowChain
def hasKernel (m : Cmd) : Bool := m.isOp rowFabRun || m.isOp rowChain
def isStream (m : Cmd) : Bool := m.cls == 1
/-- The command has an entry in engine queue e: 0 S, 1 M, 2 V (R288). -/
def uses (m : Cmd) (e : Nat) : Bool :=
  if m.isStream then e == 0
  else if m.isOp rowMatmul then e == 0 || e == 1
  else if m.isOp rowFabLoad then e == 2
  else if m.isOp rowFabRun then e == 0 || e == 2
  else if m.isOp rowBar then bitOf (wordAt m.body 0) e
  else true
end Cmd

/-- The command of a core with this number. -/
def Core.cmd (c : Core) (uid : Nat) : Option Cmd := c.cmds.find? (fun m => m.uid == uid)

/-- The command rewritten. -/
def Core.modCmd (c : Core) (uid : Nat) (f : Cmd → Cmd) : Core :=
  { c with cmds := c.cmds.map (fun m => if m.uid == uid then f m else m) }

/-- Commands the core holds before a command. -/
def Core.before (c : Core) (uid : Nat) : List Cmd := c.cmds.takeWhile (fun m => m.uid != uid)

/-! ## Statistics kept by a command -/

/-- The record a command has gathered so far. -/
def statsOf (ws : List Word) : Stats := if ws.isEmpty then Stats.empty else Stats.ofRecord ws

/-! ## Tile memory -/

/-- Key of a byte of a bank. -/
def tmKey (p : Params) (bank off : Nat) : Nat := bank * p.bankBytes + off

/-- Bank and byte of logical byte a of a region (R206). -/
def logical (r : RegRec) (a : Nat) : Nat × Nat :=
  let w := r.bytes
  (r.bank + a / w % r.nb, a / w / r.nb * w + a % w)

/-- The log₂G bits of x in reverse order (R102). -/
def revBits : Nat → Nat → Nat
  | 0, _ => 0
  | n + 1, x => x % 2 * 2 ^ n + revBits n (x / 2)

/-- Bank and byte of word w of stored row r in a feeder group (R102), plus a byte within the word. -/
def feederLoc (p : Params) (sh : RegRec) (rlen r w byte : Nat) : Nat × Nat :=
  let g := p.groupBanks
  (sh.bank + (w + revBits (Nat.log2 g) (r % g)) % g, (r * (rlen / g) + w / g) * 8 + byte)

/-- Bank and byte of ring byte a of a region, under LINEAR or FEEDER with its row length in words (R206, R207). -/
def ringLoc (p : Params) (sh : RegRec) (feeder : Bool) (rlen a : Nat) : Nat × Nat :=
  if feeder then
    let rowBytes := rlen * 8
    feederLoc p sh rlen (a / rowBytes) (a % rowBytes / 8) (a % 8)
  else logical sh a

namespace Core
def tmGet (p : Params) (c : Core) (loc : Nat × Nat) : Byte := Memory.get (tmKey p loc.1 loc.2) c.tmem
def tmSet (p : Params) (c : Core) (loc : Nat × Nat) (v : Byte) : Core := { c with tmem := Memory.set (tmKey p loc.1 loc.2) v c.tmem }
/-- Bytes read from ring byte a of a region. -/
def tmRead (p : Params) (c : Core) (sh : RegRec) (feeder : Bool) (rlen a n : Nat) : List Byte :=
  (List.range n).map (fun i => c.tmGet p (ringLoc p sh feeder rlen (a + i)))
/-- Bytes written from ring byte a of a region. -/
def tmWrite (p : Params) (c : Core) (sh : RegRec) (feeder : Bool) (rlen a : Nat) : List Byte → Core
  | [] => c
  | v :: vs => tmWrite p (c.tmSet p (ringLoc p sh feeder rlen a) v) sh feeder rlen (a + 1) vs
end Core

/-! ## Region rings -/

namespace RingSt
def shape (r : RingSt) : RegRec := RegRec.ofWord r.decl
def seg (r : RingSt) (n : Nat) : Seg := r.segs.getD (n % r.shape.ns) Seg.zero
def modSeg (r : RingSt) (n : Nat) (f : Seg → Seg) : RingSt := { r with segs := updAt f (n % r.shape.ns) r.segs }
/-- Segments that consumer u has marked done. -/
def consumed (r : RingSt) (u : Nat) : Nat := Tbl.get 0 u r.cons
/-- Ring byte at which segment n begins. -/
def segBase (r : RingSt) (n : Nat) : Nat := n % r.shape.ns * r.shape.segb
/-- Segment n is FULL and not yet overwritten. -/
def isFull (r : RingSt) (n : Nat) : Bool := decide (n < r.prod) && decide (r.prod ≤ n + r.shape.ns) && (r.seg n).st == .full
/-- The producer may begin its next segment: it is FREE (R198). -/
def canBegin (r : RingSt) : Bool := (r.seg r.prod).st == .free
/-- The next segment begun: FILLING, with its run's metadata (R199). -/
def begin_ (r : RingSt) (s : Seg) : RingSt := { r.modSeg r.prod (fun _ => { s with st := .filling, doneBy := [] }) with prod := r.prod + 1 }
/-- Segment n marked FULL; without a consumer it becomes FREE at once (R194). -/
def markFull (r : RingSt) (n : Nat) : RingSt :=
  r.modSeg n (fun s => if r.shape.consumers.isEmpty then { Seg.zero with run := s.run } else { s with st := .full })
/-- Consumer u marks its next segment done; when every consumer has, the segment is FREE (R198). -/
def markDone (r : RingSt) (u : Nat) : RingSt :=
  let n := r.consumed u
  let r1 := { r with cons := Tbl.set u (n + 1) r.cons }
  r1.modSeg n (fun s =>
    let by' := s.doneBy ++ [u]
    if r.shape.consumers.all by'.contains then Seg.zero else { s with doneBy := by' })
/-- Consumer u marks every segment below n done. -/
def doneTo (r : RingSt) (u n : Nat) : Nat → RingSt
  | 0 => r
  | fuel + 1 => if r.consumed u < n ∧ r.isFull (r.consumed u) then doneTo (r.markDone u) u n fuel else r
/-- A ring as reserved without a holder (R198). -/
def fresh (decl : Word) : RingSt :=
  let sh := RegRec.ofWord decl
  ⟨setFld decl 48 48 0, List.replicate sh.ns Seg.zero, 0, sh.consumers.map (fun u => (u, 0))⟩
end RingSt

namespace Core
def ring (c : Core) (key : Nat) : RingSt := Tbl.get (RingSt.fresh 0) key c.rings
def modRing (c : Core) (key : Nat) (f : RingSt → RingSt) : Core :=
  { c with rings := c.rings.map (fun e => if e.1 == key then (key, f e.2) else e) }
/-- Consumer u marks every segment of a ring below n done; a segment of the stream engine that changes state shows to its watchdog (R237). -/
def doneTo (c : Core) (key u n fuel : Nat) : Core :=
  let r := c.ring key
  let r1 := r.doneTo u n fuel
  if r1.consumed u = r.consumed u then c
  else { c.modRing key (fun _ => r1) with moved := c.moved || r.shape.prod == 1 || r.shape.consumes 1 }
/-- The stream engine of a core issues nothing: a stream or the read of a fabric image is halted at a translation fault (R230, R401). -/
def halted (c : Core) : Bool := c.halt.isSome || c.fab.loadHalt.isSome
end Core

/-- Ring key of a region: its first bank. -/
def Region.key (r : Region) : Nat := fld r.decl 63 58
def Region.shape (r : Region) : RegRec := RegRec.ofWord r.decl

namespace Cmd
def region (m : Cmd) (n : Nat) : Option Region := (m.regions.find? (fun e => e.1 == n)).map (·.2)
def modRegion (m : Cmd) (n : Nat) (f : Region → Region) : Cmd :=
  { m with regions := m.regions.map (fun e => if e.1 == n then (n, f e.2) else e) }
/-- The first region with a property of its record. -/
def regionBy (m : Cmd) (f : RegRec → Bool) : Option (Nat × Region) := m.regions.find? (fun e => f e.2.shape)
def desc (m : Cmd) (i : Nat) : Desc := Desc.ofWords (m.descs.getD i [])
/-- Indices of the descriptors that name a region, in bundle order. -/
def descsOf (m : Cmd) (n : Nat) : List Nat := (List.range m.descs.length).filter (fun i => (m.desc i).region == n)
end Cmd

/-- The commands that share a ring, in admission order. -/
def Core.sharers (c : Core) (key : Nat) : List Cmd := c.cmds.filter (fun m => m.admitted && m.regions.any (fun e => e.2.key == key && !e.2.gone))

/-- A ring leaves tile memory and its banks are free (R197). -/
def Core.freeRing (c : Core) (key : Nat) : Core :=
  let sh := (c.ring key).shape
  { c with rings := Tbl.del key c.rings
           cmds := c.cmds.map (fun m =>
             if m.admitted then { m with regions := m.regions.map (fun e => if e.2.key == key then (e.1, { e.2 with gone := true }) else e) } else m)
           banks := c.banks.filter (fun b => !(decide (sh.bank ≤ b.1) && decide (b.1 < sh.bank + sh.nb))) }

/-! ## Items, tiles and servings -/

/-- Origin of a serving: group, m₀, n₀, k₀ (R204, R314). -/
structure Serv where
  g : Nat
  m0 : Nat
  n0 : Nat
  k0 : Nat
  deriving DecidableEq, Repr

/-- The items of a matrix command that cause work (R323). -/
def workItems (p : Params) (m : Cmd) : List Nat := m.items.filter (fun v => decide (v < itemCount p.opuDim m.work))

/-- No item will be added. -/
def itemsFinal (m : Cmd) : Bool := !m.isMatrix || m.work.bobbin == 0 || m.empty

/-- Item i of an item list as an origin. -/
def itemServ (p : Params) (m : Cmd) (v : Nat) : Serv := let (g, m0, n0) := itemAt p.opuDim m.work v; ⟨g, m0, n0, m.work.kbeg⟩

/-- The next item needs the operand block that feeder A (or B) holds (R315). -/
def sameBlock (a : Bool) (x y : Serv) : Bool := x.g == y.g && (if a then x.m0 == y.m0 else x.n0 == y.n0)

/-- Items that cause a feeder run when S = 1: the first, and each whose block differs from the one before it. -/
def blockStarts (a : Bool) : Option Serv → List Serv → List Serv
  | _, [] => []
  | none, x :: xs => x :: blockStarts a (some x) xs
  | some y, x :: xs => if sameBlock a y x then blockStarts a (some x) xs else x :: blockStarts a (some x) xs

/-- Servings of a feeder's main and side regions (R314, R315). -/
def feederServs (p : Params) (m : Cmd) (a : Bool) : List Serv :=
  let its := (workItems p m).map (itemServ p m)
  if stepCount m.work = 1 then blockStarts a none its
  else its.flatMap (fun x => (List.range (stepCount m.work)).map (fun i => { x with k0 := stepStart m.work i }))

/-- Inner tiles of the command in the order they are computed, as origins (R311). -/
def tileServs (p : Params) (m : Cmd) : List Serv :=
  if m.isMatrix then
    (workItems p m).flatMap (fun v =>
      let x := itemServ p m v
      (innerTiles p.opuDim m.work x.m0 x.n0).map (fun t => { x with m0 := t.1, n0 := t.2 }))
  else [⟨0, 0, 0, 0⟩]

/-- Inner tiles with the number of their item among the command's work items. -/
def tileItems (p : Params) (m : Cmd) : List (Nat × Serv) :=
  let its := workItems p m
  (List.range its.length).flatMap (fun i =>
    let x := itemServ p m (its.getD i 0)
    (innerTiles p.opuDim m.work x.m0 x.n0).map (fun t => (i, { x with m0 := t.1, n0 := t.2 })))

/-- Inner tiles that the core drains, or the one kernel run of a `FAB_RUN`: a held accumulator is not drained (R119, R286). -/
def drainServs (p : Params) (m : Cmd) : List Serv := if m.isMatrix && m.work.accHold then [] else tileServs p m

/-- Servings of a region by what produces and consumes it (R204, R314). -/
def servings (p : Params) (m : Cmd) (sh : RegRec) : List Serv :=
  if sh.consumes 2 || sh.consumes 4 then feederServs p m true
  else if sh.consumes 3 || sh.consumes 5 then feederServs p m false
  else if sh.consumes 6 || sh.consumes 8 then (workItems p m).map (itemServ p m)
  else drainServs p m

/-- Runs of a stream channel through region n: the serving and the descriptor of run r. -/
def runOf (p : Params) (m : Cmd) (n r : Nat) : Option (Serv × Nat) :=
  match m.region n with
  | none => none
  | some rg =>
    let ds := m.descsOf n
    match (servings p m rg.shape)[r / max 1 ds.length]?, ds[r % max 1 ds.length]? with
    | some s, some i => some (s, i)
    | _, _ => none

/-- The number of runs of a stream channel so far known, and whether no more will come. -/
def runCount (p : Params) (m : Cmd) (n : Nat) : Nat :=
  match m.region n with
  | none => 0
  | some rg => (servings p m rg.shape).length * (m.descsOf n).length

/-! ## Runs of a serving -/

namespace Desc
/-- The origin of a run along dimension n (R204). -/
def origin (x : Desc) (s : Serv) (n : Nat) : Nat :=
  match dim x.org n with
  | 0 => 0
  | 1 => s.m0
  | 2 => if x.layout = 2 then s.n0 / 32 else s.n0
  | _ => if x.kind = 4 ∧ n = x.kdim then s.k0 / 32 else s.k0
end Desc

/-! ## Parts and their order -/

/-- Segments one run of a descriptor covers in a region (R199, R208). -/
def runSegs (x : Desc) (sh : RegRec) : Nat := max 1 (ceilDiv x.footprint sh.segb)

/-- Segments one serving of a region takes. -/
def servSegs (m : Cmd) (n : Nat) (sh : RegRec) : Nat := ((m.descsOf n).map (fun i => runSegs (m.desc i) sh)).foldl (· + ·) 0

/-- Segment i of a serving of region n: the position of its run's descriptor among those of the region, and the segment of that run. -/
def segPlaceIn (m : Cmd) (sh : RegRec) : List Nat → Nat → Nat → Option (Nat × Nat)
  | [], _, _ => none
  | d :: ds, at', i => if i < runSegs (m.desc d) sh then some (at', i) else segPlaceIn m sh ds (at' + 1) (i - runSegs (m.desc d) sh)
def segPlace (m : Cmd) (n : Nat) (sh : RegRec) (i : Nat) : Option (Nat × Nat) := segPlaceIn m sh (m.descsOf n) 0 i

/-- The producer of region n has nothing more to produce for the command. -/
def produced (p : Params) (m : Cmd) (n : Nat) (r : Region) : Bool :=
  m.fail.isSome || (m.admitted && itemsFinal m &&
    (if r.shape.prod = 1 then m.copied && decide (runCount p m n ≤ r.runIdx)
     else if r.shape.prod = 7 then decide ((drainServs p m).length ≤ m.drained)
     else decide ((drainServs p m).length ≤ m.kdone)))

/-- The stream engine has taken everything it consumes from region n. -/
def taken (p : Params) (m : Cmd) (n : Nat) (r : Region) : Bool :=
  !r.shape.consumes 1 || (itemsFinal m && m.copied && decide (runCount p m n ≤ r.runIdx) && !r.closing)

/-- Own granules of a stream packet: those of rank r among n for a range of `total` (R294). -/
def ownGrans (m : Cmd) (total : Nat) : Nat := (total + m.nmem - 1 - m.rank) / max 1 m.nmem

/-- Granules of the range of a COPY, FILL, ACC_CLEAR or STATS; those of a STATS are cut at granule boundaries of memory. -/
def streamGrans (m : Cmd) : Nat :=
  let b (i : Nat) : Nat := (wordAt m.body i).toNat
  if m.isOp rowCopy then b 2 / 64
  else if m.isOp rowStats then
    let bits := (FDesc.ofNat (fld (wordAt m.body 2) 31 0)).fmt.bits
    if b 1 = 0 then 0 else ceilDiv (b 0 % 64 + ceilDiv (b 1 * bits) 8) 64
  else b 1 / 64

/-- The part of a command in engine e (0 S, 1 M, 2 V) has done its work in this core, apart from its order in the queue. -/
def partDone (p : Params) (c : Core) (m : Cmd) (e : Nat) : Bool :=
  let quiet := m.acks == 0 && !c.reqs.any (fun r => r.uid == m.uid)
  if m.fail.isSome then e != 0 || quiet
  else if !m.admitted then false
  else if m.isStream then decide (ownGrans m (streamGrans m) ≤ m.cursor) && quiet
  else if m.isOp rowFabLoad then m.vDone
  else if m.isOp rowSeam then m.released
  else if m.isWork then
    match e with
    | 0 => m.copied && quiet && m.regions.all (fun r => (r.2.shape.prod != 1 || produced p m r.1 r.2) && taken p m r.1 r.2)
    | 1 => itemsFinal m && decide ((tileServs p m).length ≤ m.filled) && decide ((drainServs p m).length ≤ m.drained)
    | _ => itemsFinal m && decide ((drainServs p m).length ≤ m.kdone)
  else true

/-- A command that writes a statistics record in each core (R287, R295). -/
def hasStats (m : Cmd) : Bool := (m.isWork && m.work.stats != 0) || m.isOp rowStats

/-- Its statistics write, if it makes one, is done (R133, R217). -/
def statsOver (m : Cmd) : Bool := m.fail.isSome || !hasStats m || (m.statsWritten && m.acks == 0)

/-- Commands with the parts (S, M, V) that are complete in queue order: a `BAR` or `MARK` completes with what it waits for (R260). -/
def partsDone (p : Params) (c : Core) : List Cmd → List (Cmd × List Bool) → List (Cmd × List Bool)
  | [], acc => acc
  | m :: ms, acc =>
    let before (e : Nat) : Bool := acc.all (fun x => !x.1.uses e || x.2.getD e true)
    let all3 : Bool := [0, 1, 2].all (fun e => !m.uses e || (before e && acc.all (fun x => !x.1.uses e || statsOver x.1)))
    partsDone p c ms (acc ++ [(m, [0, 1, 2].map (fun e => partDone p c m e && (if m.isOp rowBar then all3 else before e)))])

/-- No `BAR` or `SEAM` before a command holds back its entry in engine e: a `BAR` that names e ends once every entry before it in every
engine it names is complete, statistics writes included, a `SEAM` once it is released (R133, R260, R299, R329). -/
def Core.unbarred (p : Params) (c : Core) (uid e : Nat) : Bool :=
  (partsDone p c (c.before uid) []).all (fun x =>
    if x.1.isOp rowBar || x.1.isOp rowSeam then !x.1.uses e || x.2.getD e true else true)

/-- The S entry of a command has started: the first granule of its range has begun, or its bundle is copied. -/
def startedS (m : Cmd) : Bool :=
  m.fail.isSome || (if m.isStream then decide (0 < m.cursor) || ownGrans m (streamGrans m) == 0 else !m.isWork || m.copied)

/-- An entry of engine e may start: nothing before it holds it back, and in the S queue every earlier entry has started (R259). -/
def Core.mayStart (p : Params) (c : Core) (uid e : Nat) : Bool :=
  c.unbarred p uid e && (e != 0 || (c.before uid).all (fun m => !m.uses 0 || startedS m))

/-- Every earlier entry of the command's engine queues has left the core. -/
def Core.atHead (c : Core) (uid : Nat) : Bool :=
  match c.cmd uid with
  | none => false
  | some m => (c.before uid).all (fun b => !([0, 1, 2].any (fun e => b.uses e && m.uses e)))

/-! ## Producers and consumers of a ring -/

/-- Does a command own the ring's production now: every sharer before it has produced all of its own (R196). -/
def Core.producerTurn (p : Params) (c : Core) (uid key : Nat) : Bool :=
  ((c.sharers key).takeWhile (fun m => m.uid != uid)).all (fun m => m.regions.all (fun e => e.2.key != key || produced p m e.1 e.2))

/-- The next segment of a region's ring begun by its producer, with its run's metadata; the command's first fixes where its stream
begins (R198, R199). -/
def Core.beginSeg (c : Core) (uid n : Nat) (s : Seg) : Core :=
  match (c.cmd uid).bind (fun m => m.region n) with
  | none => c
  | some r =>
    let at' := (c.ring r.key).prod
    (c.modRing r.key (fun g => g.begin_ s)).modCmd uid (fun m => m.modRegion n (fun r => { r with base := some (r.base.getD at') }))

end Sys2Proof.Machine
end

