-- ==== Sys2Proof/Machine/CoreBase.lean ====
section
/-! DEFINITION. Shared operations of a core: the marks of its consumers (R200, R315, R568), the release of rings (R197), the failure of a
command (R126, R234, R235), and the faults and translations of a core's accesses (R230 to R235, R401 to R404). -/

namespace Sys2Proof.Machine

/-- The segment below which the ended kernel runs of a command leave nothing of region n to the fabric ports (R200). -/
def fabricDone (c : Core) (m : Cmd) (n : Nat) (r : Region) : Option Nat :=
  if r.shape.prod = 7 then
    match m.tileSegs[m.kdone]? with
    | some b => some b
    | none =>
      if m.kdone = 0 then none
      else
        -- every tile drained so far has had its run: what follows belongs to the next sharer, if there is one
        let after := ((c.sharers r.key).dropWhile (fun x => x.uid != m.uid)).drop 1
        some ((after.flatMap (fun x => (x.regions.filter (fun e => e.2.key == r.key)).filterMap (fun e => e.2.base))).foldl min (c.ring r.key).prod)
  else r.base.map (fun b => b + m.kdone * servSegs m n r.shape)

/-- Segments that ended kernel runs leave behind are done (R200). -/
def Core.passFabric (c : Core) : Core :=
  c.cmds.foldl (fun c m =>
    if m.hasKernel && m.fail.isNone then
      m.regions.foldl (fun c e =>
        if e.2.shape.consumes 9 && !e.2.gone then
          match fabricDone c m e.1 e.2 with
          | some b => c.doneTo e.2.key 9 b (e.2.shape.ns + 1)
          | none => c
        else c) c
    else c) c

/-! ## Tiles and the blocks they read (R102 to R107, R312 to R315) -/

/-- Format descriptor, orientation and extent of feeder A (true) or B. -/
def feedFmt (w : WorkL) (a : Bool) : FDesc := if a then w.fa else w.fb
def feedTurned (w : WorkL) (a : Bool) : Bool := if a then w.orientA else w.orientB
def feedExt (w : WorkL) (a : Bool) : Nat := if a then w.mext else w.next
/-- First logical row of a tile or an item in feeder A's or B's dimension. -/
def rowOrg (a : Bool) (s : Serv) : Nat := if a then s.m0 else s.n0
/-- K-blocks of an operand step. -/
def stepBlocks (w : WorkL) (st : Nat) : Nat := ceilDiv (stepEnd w st - stepStart w st) 32

/-- The tile of a command that is being filled. -/
def fillOf (c : Core) (m : Cmd) : Option Fill := c.opu.fill.filter (fun f => f.uid == m.uid)

/-- Tiles of a matrix command that the M engine has begun. -/
def startedTiles (c : Core) (m : Cmd) : Nat := m.filled + (if (fillOf c m).isSome then 1 else 0)

/-- Number of the feeder serving that item i takes at operand step j. -/
def blockNo (p : Params) (m : Cmd) (a : Bool) (i j : Nat) : Nat :=
  if stepCount m.work = 1 then (blockStarts a none (((workItems p m).take (i + 1)).map (itemServ p m))).length - 1
  else i * stepCount m.work + j

/-- The region a unit consumes, with its number. -/
def unitRegion (m : Cmd) (u : Nat) : Option (Nat × Region) := m.regionBy (fun r => r.consumes u)

/-- First ring segment of serving `no` of region n. -/
def servSeg (m : Cmd) (n : Nat) (rg : Region) (no : Nat) : Option Nat := rg.base.map (fun b => b + no * servSegs m n rg.shape)

/-- The block of a serving is the last so far known, and a later item of the core may need it again (R315). -/
def mayKeep (p : Params) (m : Cmd) (a : Bool) (no : Nat) : Bool :=
  stepCount m.work == 1 && !itemsFinal m && no + 1 == (feederServs p m a).length

/-- First K index of operand step st that tile t has still to take. -/
def nextK (c : Core) (m : Cmd) (t st : Nat) : Nat :=
  match fillOf c m with
  | some f =>
    if f.tile != t || f.step < st then stepStart m.work st
    else if f.step = st then stepStart m.work st + f.beat * spcOf m.work.fa.fmt m.work.fb.fmt
    else stepEnd m.work st
  | none => stepStart m.work st

/-- Stored rows of the block of item `it` at operand step st that a tile reads from K index k on: from the first up to the one after the last
(R104, R105, R107). -/
def rowsRead (p : Params) (m : Cmd) (a : Bool) (it st : Nat) (t : Serv) (k : Nat) : Nat × Nat :=
  let w := m.work
  let org := rowOrg a t - rowOrg a (itemServ p m ((workItems p m).getD it 0))
  let rows := min (feedExt w a) (rowOrg a t + p.opuDim) - rowOrg a t
  if rows = 0 ∨ stepEnd w st ≤ k then (0, 0)
  else if feedTurned w a then (org, org + rows) else (k - stepStart w st, stepEnd w st - stepStart w st)

/-- A tile still to be filled reads segment w of serving `no` of a feeder's main region. -/
def feedNeeds (p : Params) (c : Core) (m : Cmd) (a : Bool) (n : Nat) (sh : RegRec) (no w : Nat) : Bool :=
  let tiles := tileItems p m
  let rowB := (m.desc ((m.descsOf n).headD 0)).rlen * 8
  mayKeep p m a no || (List.range tiles.length).any (fun t => decide (m.filled ≤ t) && (match tiles[t]? with
    | some (it, s) => (List.range (stepCount m.work)).any (fun st => blockNo p m a it st == no &&
        (let (lo, hi) := rowsRead p m a it st s (nextK c m t st)
         decide (lo < hi) && decide (lo * rowB / sh.segb ≤ w) && decide (w ≤ (hi - 1) * rowB / sh.segb)))
    | none => false))

/-! ## Items of side and load regions (R108, R109, R121, R129, R568) -/

/-- Byte of a run under R206 for window indices i; negative indices count back from the run's first byte. -/
def linOff (x : Desc) (i : List Int) : Int :=
  ((i.getD 3 0 * Desc.dim x.ext 2 + i.getD 2 0) * Desc.dim x.ext 1 + i.getD 1 0) * x.pitch + i.getD 0 0 * x.bits / 8

/-- The segment of a run that holds a run byte; none for a byte outside the run's segments, which is read as it stands (R284). -/
def runSegAt (x : Desc) (sh : RegRec) (off : Int) : Option Nat :=
  if off < 0 ∨ runSegs x sh ≤ off.toNat / sh.segb then none else some (off.toNat / sh.segb)

/-- Item codes a unit fetches per tile: 0 zero points, 1 selectors, 2 row scales. -/
def tileCodes (m : Cmd) (u : Nat) : List Nat :=
  let w := m.work
  if u = 8 then (if w.fo.zprow && w.fo.fmt.isInt then [0] else []) ++ (if w.fo.smode = 3 then [2] else [])
  else
    let f := feedFmt w (u == 4)
    (if f.zprow then [0] else []) ++ (if f.swrow then [1] else []) ++ (if f.smode = 3 then [2] else [])

/-- The dimension of a side descriptor that runs along rows: the one whose ORG selects the consumer's row origin; without one, dimension 0
of a one-dimensional READ, else the dimension beside KDIM. -/
def rowDim (x : Desc) (sel : Nat) : Nat :=
  match [0, 1, 2, 3].find? (fun n => Desc.dim x.org n == sel && !(x.kind == 4 && n == x.kdim)) with
  | some n => n
  | none => if x.kind = 0 ∧ x.ndim = 1 then 0 else if x.kdim = 0 then 1 else 0

/-- Where the code of a row (and K-block) lies in a side run: run byte and index along dimension 0, both counted from the run's origin. -/
def sideOff (x : Desc) (s : Serv) (sel row blk : Nat) : Int × Int :=
  let idx (n : Nat) : Int :=
    if n = rowDim x sel then (row : Int) - x.origin s n else if x.kind = 4 ∧ n = x.kdim then (blk : Int) - x.origin s n else 0
  (linOff x [idx 0, idx 1, idx 2, idx 3], idx 0)

/-- A side item to fetch: unit, tile, its item and step, item code, tensor K-block. -/
structure SideJob where
  u : Nat
  tile : Nat
  t : Serv
  it : Nat
  st : Nat
  code : Nat
  blk : Nat

/-- Per-tile jobs of a tile. -/
def tileJobs (m : Cmd) (u tile it : Nat) (t : Serv) : List SideJob := (tileCodes m u).map (fun code => ⟨u, tile, t, it, 0, code, 0⟩)

/-- The job of block x of an operand step. -/
def blockJob (m : Cmd) (u tile it : Nat) (t : Serv) (st x : Nat) : SideJob :=
  ⟨u, tile, t, it, st, 16 + (stepStart m.work st / 32 + x), stepStart m.work st / 32 + x⟩

/-- The serving origin a side job's run has. -/
def jobServ (p : Params) (m : Cmd) (j : SideJob) : Serv :=
  let x := itemServ p m ((workItems p m).getD j.it 0)
  { x with k0 := if j.u = 8 then m.work.kbeg else stepStart m.work j.st }

/-- The serving of the side region that a job reads. -/
def jobNo (p : Params) (m : Cmd) (j : SideJob) : Nat := if j.u = 8 then j.it else blockNo p m (j.u == 4) j.it j.st

/-- The run of a serving that carries a job's item: its descriptor, and the segment of the serving it begins at. -/
def jobRun (m : Cmd) (n : Nat) (sh : RegRec) (j : SideJob) : Desc × Nat :=
  let ds := m.descsOf n
  let codes := tileCodes m j.u
  let pos := if j.code < 16 then (codes.takeWhile (· != j.code)).length else codes.length
  (m.desc (ds.getD pos 0), ((ds.take pos).map (fun i => runSegs (m.desc i) sh)).foldl (· + ·) 0)

/-- Logical rows of a job, with where each lies in the run; none for a row beyond the tensor's extent (R109). -/
def jobOffs (p : Params) (m : Cmd) (x : Desc) (j : SideJob) : List (Option (Int × Int)) :=
  let a := j.u != 5
  (List.range p.opuDim).map (fun i =>
    let row := rowOrg a j.t + i
    if (if a then m.work.mext else m.work.next) ≤ row then none else some (sideOff x (jobServ p m j) (if a then 1 else 2) row j.blk))

/-- Segments of its serving that a job reads. -/
def jobSegs (p : Params) (m : Cmd) (n : Nat) (sh : RegRec) (j : SideJob) : List Nat :=
  let (x, s0) := jobRun m n sh j
  ((jobOffs p m x j).filterMap (fun o => (o.bind (fun e => runSegAt x sh e.1)).map (s0 + ·))).eraseDups

/-- The side item of a row, held by a side port. -/
def sideKey (uid tile code : Nat) : Nat := (uid * 2 ^ 20 + tile) * 2 ^ 20 + code

/-- The held side items of a unit. -/
def Opu.sideOf (o : Opu) (u : Nat) : List (Nat × List Byte) := if u = 4 then o.sideA else if u = 5 then o.sideB else o.sideD
def Opu.setSide (o : Opu) (u : Nat) (t : List (Nat × List Byte)) : Opu :=
  if u = 4 then { o with sideA := t } else if u = 5 then { o with sideB := t } else { o with sideD := t }

/-- A unit holds the item of a job. -/
def Opu.holds (o : Opu) (uid : Nat) (j : SideJob) : Bool := (o.sideOf j.u).any (fun e => e.1 == sideKey uid j.tile j.code)

/-- An operand has block scales. -/
def hasBlocks (m : Cmd) (u : Nat) : Bool := u != 8 && ((feedFmt m.work (u == 4)).smode == 1 || (feedFmt m.work (u == 4)).smode == 2)

/-- What a side reader has still to fetch for a tile from serving `no`. -/
def sideLeft (p : Params) (c : Core) (m : Cmd) (u no tile : Nat) : List SideJob :=
  match (tileItems p m)[tile]? with
  | none => []
  | some (it, t) =>
    let blocks := if hasBlocks m u then
      (List.range (stepCount m.work)).flatMap (fun st => (List.range (stepBlocks m.work st)).map (blockJob m u tile it t st)) else []
    (tileJobs m u tile it t ++ blocks).filter (fun j => jobNo p m j == no && !c.opu.holds m.uid j)

/-- A tile still to be worked on needs an item of segment w of serving `no` of a side region. -/
def sideNeeds (p : Params) (c : Core) (m : Cmd) (u n : Nat) (sh : RegRec) (no w : Nat) : Bool :=
  (u != 8 && mayKeep p m (u == 4) no) ||
  (List.range (if u = 8 ∧ m.work.accHold then 0 else (tileItems p m).length)).any (fun t =>
    decide ((if u = 8 then m.drained else m.filled) ≤ t) && (sideLeft p c m u no t).any (fun j => (jobSegs p m n sh j).contains w))

/-- The dimensions of a LOAD run that carry M and N: those whose ORG selects m₀ and n₀, else dimensions 1 and 0. -/
def loadDims (x : Desc) : Nat × Nat :=
  let find (v : Nat) : Option Nat := [0, 1, 2, 3].find? (fun n => Desc.dim x.org n == v)
  match find 1, find 2 with
  | some a, some b => (a, b)
  | some a, none => (a, if a = 0 then 1 else 0)
  | none, some b => (if b = 1 then 0 else 1, b)
  | none, none => (1, 0)

/-- Where element (row a, column b) of the result lies in the LOAD run of an item. -/
def loadOff (x : Desc) (sv : Serv) (a b : Nat) : Int :=
  let (md, nd) := loadDims x
  linOff x ([0, 1, 2, 3].map (fun q => if q = md then (a : Int) - x.origin sv md else if q = nd then (b : Int) - x.origin sv nd else 0))

/-- The elements of a tile, row by row, and whether one lies inside the tensor. -/
def tileCells (p : Params) (t : Serv) : List (Nat × Nat) :=
  (List.range p.opuDim).flatMap (fun a => (List.range p.opuDim).map (fun b => (t.m0 + a, t.n0 + b)))
def cellIn (m : Cmd) (e : Nat × Nat) : Bool := decide (e.1 < m.work.mext) && decide (e.2 < m.work.next)

/-- Segments of its serving that the load of a tile reads. -/
def loadSegs (p : Params) (m : Cmd) (n : Nat) (sh : RegRec) (it : Nat) (t : Serv) : List Nat :=
  let x := m.desc ((m.descsOf n).headD 0)
  let sv := itemServ p m ((workItems p m).getD it 0)
  (((tileCells p t).filter (cellIn m)).filterMap (fun e => runSegAt x sh (loadOff x sv e.1 e.2))).eraseDups

/-- An accumulator holds the tile of a command. -/
def hasTile (c : Core) (m : Cmd) (t : Nat) : Bool := c.opu.accs.any (fun a => a.st != .free && a.uid == m.uid && a.tile == t)

/-- A tile still to be loaded reads segment w of item `no`. -/
def loadNeeds (p : Params) (c : Core) (m : Cmd) (n : Nat) (sh : RegRec) (no w : Nat) : Bool :=
  let tiles := tileItems p m
  (List.range tiles.length).any (fun t => decide (m.filled ≤ t) && !hasTile c m t && (match tiles[t]? with
    | some (it, s) => it == no && (loadSegs p m n sh it s).contains w
    | none => false))

/-! ## Marks and release (R197, R200) -/

/-- Segment `rel` of a command's stream through the region of unit u will be read again. -/
def segNeeded (p : Params) (c : Core) (m : Cmd) (u n : Nat) (sh : RegRec) (rel : Nat) : Bool :=
  let no := rel / servSegs m n sh
  let w := rel % servSegs m n sh
  if u = 2 ∨ u = 3 then feedNeeds p c m (u == 2) n sh no w
  else if u = 6 then loadNeeds p c m n sh no w
  else sideNeeds p c m u n sh no w

/-- The segments of a command that a unit of the OPU has read for the last time are done, in ring order: feeder, side port, load path or drain
side read. A failed command reads none (R200, R235, R315, R568). -/
def passUnit (p : Params) (m : Cmd) (u : Nat) : Nat → Core → Core
  | 0, c => c
  | fuel + 1, c =>
    match unitRegion m u with
    | none => c
    | some (n, rg) =>
      let i := (c.ring rg.key).consumed u
      match (if rg.gone then none else rg.base) with
      | none => c
      | some b =>
        if (c.ring rg.key).isFull i && decide (b ≤ i) && decide (i < b + (servings p m rg.shape).length * servSegs m n rg.shape) &&
           (m.fail.isSome || !segNeeded p c m u n rg.shape (i - b)) then
          passUnit p m u fuel (c.doneTo rg.key u (i + 1) 1)
        else c

/-- The same for every unit of every matrix command. -/
def Core.passUnits (p : Params) (c : Core) : Core :=
  (c.cmds.filter (fun m => m.isMatrix && m.copied)).foldl (fun c m =>
    [2, 3, 4, 5, 6, 8].foldl (fun c u => passUnit p m u 257 c) c) c

/-- Segments that no unit reads again are done, and rings whose last sharer has produced everything and whose consumers have finished everything
are released (R197, R200). -/
def Core.sweep (p : Params) (c0 : Core) : Core :=
  let c := c0.passFabric.passUnits p
  (c.rings.map (·.1)).foldl (fun c key =>
    match (c.sharers key).getLast? with
    | none => c.freeRing key
    | some m =>
      let r := c.ring key
      if m.regions.all (fun e => e.2.key != key || produced p m e.1 e.2) && r.shape.consumers.all (fun u => r.consumed u == r.prod) &&
         r.segs.all (fun s => s.st == .free) then c.freeRing key else c) c

/-! ## Failure of a command in a core -/

/-- A retaining command of the queue that holds an accumulator is to continue in it (R123, R125). -/
def claims (m : Cmd) (a : Acc) : Bool :=
  a.st == .held && m.fail.isNone && m.isMatrix && m.work.accInit == accRetain && m.heldBy == some a.uid && a.holder == some m.q && !m.items.isEmpty

/-- An accumulator belongs to a command: it works in it, or it is held for the command to continue in (R123, R126). -/
def accOf (m : Cmd) (a : Acc) : Bool := a.st != .free && (a.uid == m.uid || claims m a)

/-- A command fails in a core: the first failure stands; its accumulators are zeroed and freed, a load of its is dropped, its streams stop (R126,
R184 to R186, R234, R235). -/
def Core.failCmd (c : Core) (uid : Nat) (st : Status) (det : Word) : Core :=
  match c.cmd uid with
  | none => c
  | some m =>
    if m.fail.isSome then c
    else
      let c1 := c.modCmd uid (fun m => { m with fail := some (st, det), takePending := false })
      let accs := c1.opu.accs.map (fun a => if accOf m a then Acc.zero else a)
      { c1 with
        opu := { c1.opu with
          accs := accs, fill := c1.opu.fill.filter (fun f => f.uid != uid), drain := c1.opu.drain.filter (fun x => x.uid != uid)
          fullq := c1.opu.fullq.filter (fun i => (accs.getD i Acc.zero).st == .full) }
        fab := { c1.fab with
          frozen := c1.fab.frozen || c1.fab.run == some uid, run := c1.fab.run.filter (· != uid)
          loadHalt := c1.fab.loadHalt.filter (fun h => h.uid != uid)
          planes := c1.fab.planes.map (fun x => if x.loading == some uid then { Plane.zero with failed := true } else x) }
        halt := c1.halt.filter (fun h => h.uid != uid)
        reqs := c1.reqs.map (fun r => if r.uid == uid && r.state == 1 then { r with state := 2 } else r) }

/-- The command of a core fails. -/
def failAt (d : Dev) (k uid : Nat) (st : Status) (det : Word) : Dev := d.modCore k (fun c => c.failCmd uid st det)

/-- The fault record of a core for a command (R271). -/
def coreInfo (d : Dev) (k : Nat) (m : Cmd) (i : FInfo) : FInfo :=
  { i with ctx := m.ctx, queue := qnum m.q, core := (siteIndex d k).getD 0x3FF, seq := m.seq.toNat, subidx := m.subidx, tag := m.tag }

/-- A permission fault of a core: the command fails and a KIND 2 record is written (R234, R401, R406). -/
def permFail (d : Dev) (k : Nat) (m : Cmd) (va access gen : Nat) (w4 : Word) : Dev :=
  let d1 := failAt d k m.uid .permFault 0
  if m.fail.isSome then d
  else d1.fault m.func (coreInfo d k m { status := .permFault, kind := 2, access := access, gen := gen, va := va, w4 := w4 })

/-- An absent translation: the core halts with a resume record, and one fault record is sent (R185, R230, R231). -/
def xlateHalt (d : Dev) (k : Nat) (m : Cmd) (h : Halt) (w4 : Word) : Dev :=
  let d1 := d.modCore k (fun c => if h.what = 4 then { c with fab := { c.fab with loadHalt := some h } } else { c with halt := some h })
  d1.fault m.func (coreInfo d k m { status := .xlateFault, kind := 1, access := h.access, gen := h.gen, va := h.va, w4 := w4 })

/-- A fault of a core's access: halt or failure. -/
def coreFault (d : Dev) (k : Nat) (m : Cmd) (h : Halt) (x : XFault) : Dev :=
  if x.perm then permFail d k m x.va h.access h.gen x.w4 else xlateHalt d k m { h with va := x.va } x.w4

/-! ## Requests -/

/-- A request touches a granule that the accumulate unit of the host port holds, or for which an operation waits there (R407, R412). -/
def atHostUnit (d : Dev) (a n : Nat) : Bool :=
  d.host.accBuf.any (fun g => overlaps g.addr 64 a n) || d.host.accq.any (fun r => overlaps r.addr (if r.two then 128 else 64) a n)

/-- What an initiator request is for, by the source of a request. -/
def hostUseOf : ReqSrc → HostUse
  | .core k i => .streamRead k i
  | .coreWrite k u va a g => .streamWrite k u va a g
  | .walk p i => .walkRead p i
  | .unit => .mcWrite

/-- A request put where its target serves it: a stack port's queue, the initiator channel, or the accumulate unit of the host port, behind which a
coherent request to one of its granules waits (R407, R410, R412, R413, R512). `mask`: byte enables of a write, element mask of an accumulate
or zeroing read. -/
def Dev.send (p : Params) (d : Dev) (func ctx core : Nat) (t : Target) (op : PortOp) (two : Bool) (mask : Nat) (data : List Byte) (src : ReqSrc) : Dev :=
  let n := if two then 128 else 64
  let unit (a : Nat) : Dev :=
    { d with host := { d.host with accq := d.host.accq ++ [⟨0, src, op, gran a, two, func, ctx, core, mask, data, 0, 0, 0⟩] } }
  let host (a : Nat) (coh : Bool) : Dev :=
    if coh && atHostUnit d (gran a) n then unit a
    else match op with
    | .read => d.issueFor func ctx (if coh then 3 else 0) (gran a) [] (List.replicate n true) (hostUseOf src)
    | .write => d.issueFor func ctx (if coh then 5 else 1) (gran a) data ((List.range n).map mask.testBit) (hostUseOf src)
    | _ => unit a
  match t with
  | .host a coh => host a coh
  | .phys pa =>
    match locate p pa with
    | .host a => host a true
    | .stack key a => d.modPort key (fun q => { q with
        waiting := q.waiting ++ [⟨q.nextId, src, op, gran a, two, func, ctx, core, mask, data, 0, 0, 0⟩], nextId := q.nextId + 1 })

/-! ## Translation by a core (R403, R404) -/

/-- The answer of a core's translation of one granule: a target, a fault, or a walk that is under way or must wait. -/
inductive CX where
  | ok (t : Target)
  | fault (x : XFault)
  | walk

/-- Walks in flight per panel. -/
def maxWalks : Nat := 16

/-- A translation from the core's cache or the panel's, which fills the core's; else a walk must be made. -/
def coreXlate (d : Dev) (k : Nat) (m : Cmd) (va : Nat) (kind : Acc3) : CX × Dev :=
  let use (e : TlbEntry) : CX := match useLeaf e.pte e.log2 va kind with | .ok t => .ok t | .error x => .fault x
  match leafFind (d.core k).tlb m.ctx m.root va with
  | some e => (use e, d)
  | none =>
    match leafFind (d.panel (keyPanel k)).tlb m.ctx m.root va with
    | some e => (use e, (d.modCore k (fun c => { c with tlb := cacheAdd coreCacheSize d.freeCtr e c.tlb })).draw)
    | none => (.walk, d)

/-- A walk of a panel stored as it stands after its last read: its next read is requested from where the table lies, for the context's function and
the core that asked (R404, R445). -/
def walkOn (p : Params) (d : Dev) (panel : Nat) (w : Walk) : Dev :=
  let (w1, a) := w.next d (d.panel panel).wcache
  let d1 := d.modPanel panel (fun q => { q with walks := q.walks.map (fun x => if x.id == w.id then w1 else x) })
  match a with
  | none => d1
  | some pa => d1.send p (d.ctx w.ctx).owner w.ctx ((siteIndex d w.site).getD 0) (.phys (gran pa)) .read false 0 [] (.walk panel w.id)

/-- A walk started for a core, unless the same walk is in flight or the panel has 16 of them (R404). -/
def startWalk (p : Params) (d : Dev) (k : Nat) (m : Cmd) (region va access gen : Nat) : Dev :=
  let panel := keyPanel k
  let q := d.panel panel
  if q.walks.any (fun w => w.site == k && w.uid == m.uid && w.va == va) || maxWalks ≤ q.walks.length then d
  else
    let w : Walk := ⟨q.nextWalk, k, m.uid, region, m.ctx, m.root, va, access, gen, 0, m.root, [], if walkable p d m.root va then none else some (.bad 0)⟩
    let d1 := (d.setPanel panel { q with walks := q.walks ++ [w], nextWalk := q.nextWalk + 1 }).won panel arbWalk ((siteIndex d k).getD 0)
    if w.res.isSome then d1 else walkOn p d1 panel w

/-- The granule that a walk asked for is here, or could not be read: the walk ends, or reads a level further (R400, R404, R406, R413). -/
def walkData (p : Params) (d : Dev) (panel id : Nat) (data : Option (List Byte)) : Dev :=
  match (d.panel panel).walks.find? (fun w => w.id == id) with
  | none => d
  | some w =>
    let off := match levels[w.level]? with | some l => entryAddr l w.tbl w.va % 64 | none => 0
    let w1 := w.take p d (data.map (fun bs => BitVec.ofNat 64 (leNat ((bs.drop off).take 8))))
    if w1.res.isSome then d.modPanel panel (fun q => { q with walks := q.walks.map (fun x => if x.id == id then w1 else x) })
    else walkOn p d panel w1

/-! ## Reads of a core outside its data streams (R401, R406) -/

/-- Requests of a front copy: `code` 18 the command block, 19 the bundle, 20 to 23 a swatch store, 24 the fabric image. -/
def frontReqs (c : Core) (uid code : Nat) : List CoreReq := c.reqs.filter (fun r => r.uid == uid && r.region == code)

/-- What a front copy is, as a resume record says it (R231): 1 bundle, 2 command block, 3 swatch, 4 image; 0 a stream. -/
def haltWhat (code : Nat) : Nat := if code = 18 then 2 else if code = 19 then 1 else if code = 24 then 4 else if 20 ≤ code then 3 else 0

/-- Granules of a front copy requested one by one, as far as they translate. -/
def frontIssue (p : Params) (k own : Nat) (m : Cmd) (code va : Nat) (kind : Acc3) : List Nat → Dev → Dev
  | [], d => d
  | i :: is, d =>
    match coreXlate d k m (va + 64 * i) kind with
    | (.walk, d) => startWalk p d k m code (va + 64 * i) kind.code 0
    | (.fault x, d) => coreFault d k m ⟨m.uid, code, x.va, kind.code, 0, haltWhat code, []⟩ x
    | (.ok t, d) =>
      let c := d.core k
      let r : CoreReq := ⟨c.nextReq, m.uid, code, i, 0, va + 64 * i, false, false, 0, [], [], [], []⟩
      frontIssue p k own m code va kind is
        ((d.setCore k { c with reqs := c.reqs ++ [r], nextReq := c.nextReq + 1, moved := true }).send p m.func m.ctx own t .read false 0 []
          (.core k r.id))

/-- One step of a front copy of n bytes: the granules not yet asked for are requested; once all are here their bytes are taken. -/
def frontStep (s : State) (k : Nat) (m : Cmd) (code va n : Nat) (kind : Acc3) : State × Option (List Byte) :=
  let c := s.dev.core k
  let rs := frontReqs c m.uid code
  let grans := List.range (ceilDiv n 64)
  let left := grans.filter (fun i => !rs.any (fun r => r.seg == i))
  if !left.isEmpty then
    (if c.halted then s else s.upd (frontIssue s.params k ((siteIndex s.dev k).getD 0) m code va kind left), none)
  else if rs.all (fun r => r.state == 1) then
    (s.upd (fun d => d.modCore k (fun c => { c with reqs := c.reqs.filter (fun r => !(r.uid == m.uid && r.region == code)) })),
     some ((grans.flatMap (fun i => match rs.find? (fun r => r.seg == i) with | some r => r.data | none => [])).take n))
  else (s, none)

end Sys2Proof.Machine
end

