-- ==== Sys2Proof/Machine/Admit.lean ====
section
/-! DEFINITION. Admission of a command to a core: command block (R282), region and port checks (R194, R285, R570), reservation of
banks (R195, R196), bundle copy with its checks and overrides (R203 to R213, R218, R222, R223, R228, R281, R316, R568), swatch copies
(R53, R111, R152) and bobbin takes (R320 to R324). -/

namespace Sys2Proof.Machine

/-- An event of the core with a logical index: nothing happens while the index is vacant or the instance is not in service. -/
def onCore (s : State) (idx : Nat) (f : Nat → State) : Out :=
  .next (match s.dev.siteOf idx with
    | some k => if s.dev.inService then f k else s
    | none => s)

/-! ## COMMAND_BLOCK_READ (R282) -/

/-- The first command of a core that satisfies a test and has not failed. -/
def firstCmd (c : Core) (f : Cmd → Bool) : Option Cmd := c.cmds.find? (fun m => m.fail.isNone && f m)

/-- Bytes of the command block that an opcode reads. -/
def blockBytes (m : Cmd) : Nat := if m.isOp rowMatmul then 128 else 640

/-- COMMAND_BLOCK_READ: the sequencer asks for the command block of its next work packet, and takes it once it is here. -/
def blockRead (s : State) (k : Nat) : State :=
  let c := s.dev.core k
  match firstCmd c (fun m => m.isWork && !m.admitted && m.block.isNone) with
  | none => s
  | some m => match frontStep s k m 18 m.work.cblock (blockBytes m) .desc with
    | (s1, none) => s1
    | (s1, some bs) => s1.upd (fun d => d.modCore k (fun c =>
        { c.modCmd m.uid (fun m => { m with block := some (bytesToWords (blockBytes m / 8) bs) }) with moved := true }))
def execCommandBlockRead (core : Nat) (s : State) : Out := onCore s core (blockRead s)

/-! ## Region checks (R194, R570) -/

/-- Units that a command must name in some region (R570). -/
def unitsNeeded (m : Cmd) : List Nat :=
  let w := m.work
  let side (f : FDesc) : Bool := f.zprow || f.swrow || f.smode != 0
  if m.isMatrix then
    [2, 3, 7] ++ (if w.accInit = accLoad then [6] else []) ++ (if side w.fa then [4] else []) ++ (if side w.fb then [5] else []) ++
    (if w.fo.smode == 3 || (w.fo.fmt.isInt && w.fo.zprow) then [8] else [])
  else []

/-- Units that a command may name (R570). -/
def unitsUsed (m : Cmd) : List Nat := 0 :: 1 :: unitsNeeded m ++ (if m.hasKernel then [9] else [])

/-- The producer and consumer pairs of R193. -/
def pairAllowed (prod cons : Nat) : Bool :=
  match prod with
  | 1 => [2, 3, 4, 5, 6, 8, 9].contains cons
  | 7 => cons == 1 || cons == 9
  | 9 => cons == 1
  | _ => false

/-- One region record under R194. -/
def regionOk (p : Params) (m : Cmd) (r : RegRec) : Bool :=
  let w := r.bytes
  let row := p.opuDim * m.work.fo.fmt.bits / 8
  r.resv == 0 && decide (r.width < 5) && decide (0 < r.segb) && decide (r.bank + r.nb ≤ 64) &&
  decide (r.ns * r.segb ≤ r.nb * p.bankBytes) && r.segb % (r.nb * w) == 0 &&
  r.prod != 0 && r.consumers.all (pairAllowed r.prod) && [1, 7, 9].contains r.prod &&
  (r.cons0 != 0 || r.cons1 == 0) && (r.cons0 == 0 || r.cons0 != r.cons1) &&
  (!(r.consumes 2 || r.consumes 3) || (r.nb == p.groupBanks && r.bank % p.groupBanks == 0 && r.width == 1)) &&
  (r.prod != 7 || decide (row ≤ r.nb * w)) && (!r.consumes 6 || decide (p.opuDim * 4 ≤ r.nb * w)) &&
  (!r.consumes 1 || decide (r.segb ≤ 32768)) &&
  ([r.prod, r.cons0, r.cons1].all (unitsUsed m).contains)

/-- The declared region records of a command. -/
def recordsOf (m : Cmd) : List Word := ((m.block.getD []).take m.work.nreg)

/-- Every region of a command, each by itself and together (R194, R570). -/
def regionsOk (p : Params) (m : Cmd) : Bool :=
  let rs := (recordsOf m).map RegRec.ofWord
  let names (u : Nat) : Nat := (rs.filter (fun r => r.prod == u || r.consumes u)).length
  rs.all (regionOk p m) &&
  (List.range 64).all (fun b => decide ((rs.filter (fun r => decide (r.bank ≤ b) && decide (b < r.bank + r.nb))).length ≤ 1)) &&
  [2, 3, 4, 5, 6, 7, 8].all (fun u => decide (names u ≤ 1)) &&
  (unitsNeeded m).all (fun u => decide (1 ≤ names u))

/-- The port bindings under R285, as far as they do not depend on the plane. -/
def portsOk (m : Cmd) : Bool :=
  !m.hasKernel ||
  (List.range 32).all (fun i =>
    let b := portBind (m.block.getD []) i
    b.resv == 0 && (!b.en || (b.stride != 0 && decide (b.region < m.work.nreg) && decide (b.sregion < m.work.nreg))))

/-! ## ADMISSION (R195, R196) -/

/-- What admission finds for one region: it takes over a ring, reserves its banks, waits for banks, or does not match its holder. -/
inductive Place where
  | takes | fresh | waits | clash
  deriving DecidableEq, Repr

def placeOf' (c : Core) (w : Word) : Place :=
  let r := RegRec.ofWord w
  let held := c.banks.any (fun b => decide (r.bank ≤ b.1) && decide (b.1 < r.bank + r.nb))
  if !held then .fresh
  else if !r.cont then .waits
  else
    let g := c.ring r.bank
    if c.rings.any (fun e => e.1 == r.bank) && g.decl == setFld w 48 48 0 &&
       (match c.lastAdm with | some u => (c.sharers r.bank).any (fun m => m.uid == u) | none => false) then .takes
    else .clash

/-- A region's place in the command. -/
def newRegion (w : Word) : Region :=
  { decl := w, base := none, runIdx := 0, segIdx := 0, pos := 0, runSeg := 0, closing := false, credited := [], taken := 0, gone := false }

/-- Banks of a fresh region reserved, their aspects set, its ring empty. -/
def Core.reserve (c : Core) (uid : Nat) (w : Word) : Core :=
  let r := RegRec.ofWord w
  let bs := (List.range r.nb).map (fun i => r.bank + i)
  { c with
    banks := bs.foldl (fun t b => Tbl.set b (uid + 1) t) c.banks
    aspects := bs.foldl (fun t b => Tbl.set b r.width t) c.aspects
    rings := Tbl.set r.bank (RingSt.fresh w) c.rings }

/-- Descriptor slots of the stream engine in use (R210). -/
def slotsUsed (c : Core) : Nat := ((c.cmds.filter (fun m => m.reserved && m.isWork)).map (fun m => m.work.ndesc)).foldl (· + ·) 0

/-- The regions that a command's records declare. -/
def regionsOf (m : Cmd) : List (Nat × Region) :=
  (List.range (recordsOf m).length).map (fun i => (i, newRegion (wordAt (recordsOf m) i)))

/-- The matrix command whose hold a matrix command admitted now finds: the one admitted just before it, when it holds an accumulator or is
to hold one (R123). -/
def holdBefore (c : Core) : Option Nat :=
  c.opu.lastMat.filter (fun u => c.opu.accs.any (fun a => a.st == .held && a.uid == u) || (c.cmd u).any (fun m => m.fail.isNone && m.work.accHold))

/-- A matrix command comes to the M engine: an accumulator held for no command that continues in it is zeroed and FREE (R123, R125). -/
def Core.endHolds (c : Core) (uid : Nat) : Core :=
  { c with opu := { c.opu with
      lastMat := some uid, accs := c.opu.accs.map (fun a => if a.st == .held && !c.cmds.any (fun m => claims m a) then Acc.zero else a) } }

/-- The first command not yet admitted is admitted, fails its checks, or waits (R194 to R196, R285, R322, R326). `planeBad`: what is wrong
with the command's port bindings against its plane's edge records; `planeWaits`: a load of its plane is still in progress. -/
def admitNext (p : Params) (planeWaits : Cmd → Bool) (planeBad : Cmd → Option Status) (c : Core) : Core :=
  match c.cmds.find? (fun m => !m.admitted) with
  | none => c
  | some m =>
    let done (c : Core) (f : Cmd → Cmd) : Core := c.modCmd m.uid (fun m => f { m with admitted := true })
    if m.fail.isSome || !m.isWork then done c id
    else match m.block with
    | none => c
    | some _ =>
      let recs := recordsOf m
      let places := recs.map (placeOf' c)
      if !(regionsOk p m && portsOk m) || places.contains .clash then done (c.failCmd m.uid .badParam 0) id
      else if planeWaits m then c
      else match planeBad { m with regions := regionsOf m } with
      | some x => done (c.failCmd m.uid x 0) id
      | none =>
      if places.contains .waits || decide (128 < slotsUsed c + m.work.ndesc) then c
      else
        let c1 := (recs.zip places).foldl (fun c e => if e.2 == .fresh then c.reserve m.uid e.1 else c) c
        let bob := m.isMatrix && m.work.bobbin != 0
        let c2 := done { c1 with lastAdm := some m.uid } (fun m =>
          { m with
            reserved := true
            regions := regionsOf m
            takePending := bob
            heldBy := if m.isMatrix then holdBefore c else none
            items := if m.isMatrix && !bob then pinnedItems p.opuDim m.work m.rank else [] })
        if m.isMatrix then c2.endHolds m.uid else c2

/-! ## BUNDLE_COPY (R209 to R213, R281) -/

/-- Logical members of a multicast descriptor (R218). -/
def mcMembers (x : Desc) : List Nat := ((List.range 16).filter x.mcmask.testBit).map (fun i => x.mcbase + i)

/-- Bytes from the start of the entry that the whole tensor of a PUSH or POP takes, over all origins and groups (R222, R223, R316). -/
def tensorEnd (x : Desc) (groups : Nat) : Nat :=
  let far (d : Nat) : Nat := (Desc.dim x.text d - 1) * Desc.dim x.stride d
  x.va + ceilDiv (Desc.dim x.text 0 * x.bits) 8 + far 1 + far 2 + far 3 + (groups - 1) * Desc.dim x.stride 3

/-- Side items that a feeder or the drain calls for, in order: descriptor kinds (R568). -/
def sideKinds (m : Cmd) (u : Nat) : List Nat :=
  let w := m.work
  let f := if u = 4 then w.fa else if u = 5 then w.fb else w.fo
  (if f.zprow then [0] else []) ++ (if f.swrow && u != 8 then [0] else []) ++ (if f.smode = 3 then [0] else []) ++
  (if u != 8 && (f.smode == 1 || f.smode == 2) then [4] else [])

/-- One descriptor of a bundle under R207 to R209, R218, R222, R223, R228 and R316. -/
def descOk (p : Params) (d : Dev) (idx : Nat) (m : Cmd) (recs : List RegRec) (bundle : List Desc) (x : Desc) : Bool :=
  let r := recs.getD x.region (RegRec.ofWord 0)
  let w := m.work
  let groups := if m.isMatrix then (Tiling.ofWord w.tiling).grp else 1
  let ms := mcMembers x
  let y := bundle.getD x.pair x
  let pr := recs.getD y.region (RegRec.ofWord 0)
  let high (i : Nat) : Bool := i < x.ndim || (Desc.dim x.text i == 1 && Desc.dim x.ext i == 1 && Desc.dim x.org i == 0)
  !x.resv && decide (x.kind < 7) && decide (x.layout < 3) && decide (x.mc < 3) && decide (x.fmt < 10) &&
  x.ext.all (· != 0) && decide (x.region < recs.length) && (if x.fills then r.prod == 1 else r.consumes 1) &&
  (x.layout != 1 ||
    (r.nb == p.groupBanks && r.bank % p.groupBanks == 0 && r.width == 1 && x.rlen != 0 && x.rlen % p.groupBanks == 0 &&
     r.segb % (p.groupBanks * x.rlen * 8) == 0 && decide (Desc.dim x.ext 0 ≤ x.rlen * 64 / x.bits))) &&
  decide (x.footprint ≤ r.ns * r.segb) && (x.kind != 2 || x.fmt == 9) &&
  (x.mc == 0 || ((x.kind == 0 || x.kind == 4) && ms.contains idx &&
    (ms.all (fun i => (d.siteOf i).map keyPanel == (d.siteOf idx).map keyPanel)))) &&
  (x.kind != 5 || (w.push != 0 && decide (tensorEnd x groups ≤ w.push))) &&
  (x.kind != 6 || (match m.pop with | some e => w.pop && decide (tensorEnd x groups ≤ e.2) | none => false)) &&
  (if x.kind = 4 then
    decide (x.pair < bundle.length) && y.kind == 0 &&
    ((r.consumes 4 && pr.consumes 2) || (r.consumes 5 && pr.consumes 3) ||
     (r.consumes 9 && (List.range 32).any (fun i =>
       let b := portBind (m.block.getD []) i
       b.en && b.region == y.region && b.sregion == x.region)))
   else x.pair == 0) &&
  [1, 2, 3].all high && (x.layout != 2 || (x.kind == 1 && x.bits == 8)) && (groups == 1 || decide (x.ndim < 4))

/-- The bundle as a whole under R209, R568. -/
def bundleOk (p : Params) (d : Dev) (idx : Nat) (m : Cmd) (bundle : List Desc) : Bool :=
  let recs := (recordsOf m).map RegRec.ofWord
  bundle.all (descOk p d idx m recs bundle) &&
  [4, 5, 8].all (fun u =>
    match (List.range recs.length).find? (fun i => (recs.getD i (RegRec.ofWord 0)).consumes u) with
    | none => true
    | some i => (bundle.filter (fun x => x.region == i)).map (·.kind) == sideKinds m u)

/-- The overrides of R281 applied to descriptor i. -/
def override (w : WorkL) (i : Nat) (ws : List Word) : List Word :=
  if i < w.nva ∧ wordAt w.vas i ≠ 0 then updAt (fun v => setFld v 51 0 (wordAt w.vas i).toNat) 1 ws else ws

/-- The 64-byte pieces of a bundle as descriptors. -/
def splitDescs : Nat → List Byte → List (List Word)
  | 0, _ => []
  | n + 1, bs => bytesToWords 8 bs :: splitDescs n (bs.drop 64)

/-- GEN, and RD_BYTES of the command's context. -/
def countUsage (d : Dev) (ctx : Nat) (f : Usage → Usage) : Dev := d.modCtx ctx (fun x => { x with usage := f x.usage })

/-- BUNDLE_COPY: the next admitted command's bundle is asked for, and once it is here it is copied and checked. -/
def bundleCopy (s : State) (k : Nat) : State :=
  let c := s.dev.core k
  match firstCmd c (fun m => m.isWork && m.admitted && !m.copied) with
  | none => s
  | some m =>
    let n := 64 * m.work.ndesc
    match frontStep s k m 19 m.work.bundle n .desc with
    | (s1, none) => s1
    | (s, some bs) =>
      let raw := splitDescs m.work.ndesc bs
      let ds := (List.range raw.length).map (fun i => override m.work i (raw.getD i []))
      let bundle := ds.map Desc.ofWords
      let gens := bundle.map (·.gen)
      let gen := gens.headD 0
      let idx := (siteIndex s.dev k).getD 0
      let d1 := s.dev.modCore k (fun c => { c.modCmd m.uid (fun m => { m with descs := ds, copied := true }) with moved := true })
      let d2 := (countUsage d1 m.ctx (fun u => { u with rdBytes := u.rdBytes + BitVec.ofNat 64 n })).modPkt m.q m.uid (fun q =>
        { q with copied := q.copied ++ [(idx, gen)], mixed := q.mixed || gens.any (· != gen) })
      s.withDev (if bundleOk s.params d2 idx m bundle then d2 else failAt d2 k m.uid .badParam 0)
def execBundleCopy (core : Nat) (s : State) : Out := onCore s core (bundleCopy s)

/-! ## SWATCH_COPY (R53, R111, R152) -/

/-- The swatch word of a command for store n: 0 A, 1 B, 2 SW0, 3 SW1. -/
def swatchVa (w : WorkL) (n : Nat) : Nat := match n with | 0 => w.swa | 1 => w.swb | 2 => w.sw0 | _ => w.sw1

/-- Does a command copy a swatch into a store from memory. -/
def swatchNeeded (m : Cmd) (n : Nat) : Bool :=
  match n with
  | 0 => m.isMatrix && m.work.fa.fmt.isCodebook
  | 1 => m.isMatrix && m.work.fb.fmt.isCodebook
  | 2 => m.hasKernel && m.work.sw0 != 0
  | 3 => m.hasKernel && m.work.sw1 != 0
  | _ => false

/-- The stores of a command's engine e (1 M, 2 V) are complete. -/
def swatchReady (m : Cmd) (e : Nat) : Bool :=
  (if e = 1 then [0, 1] else [2, 3]).all (fun n => !swatchNeeded m n || m.swDone.contains n)

/-- The command whose swatch a store takes next: the first of the store's engine that has not finished there. -/
def swatchCmd (p : Params) (c : Core) (n : Nat) : Option Cmd :=
  let e := if n < 2 then 1 else 2
  match (partsDone p c c.cmds []).find? (fun x => x.1.fail.isNone && x.1.isWork && x.1.uses e &&
      !(if e = 1 then itemsFinal x.1 && decide ((tileServs p x.1).length ≤ x.1.filled) else x.2.getD 2 true)) with
  | some x => if x.1.admitted && swatchNeeded x.1 n && !x.1.swDone.contains n then some x.1 else none
  | none => none

/-- SWATCH_COPY: the swatch of the next command of a store's engine is asked for, and once it is here it fills the store. -/
def swatchCopy (s : State) (n k : Nat) : State :=
  let c := s.dev.core k
  match swatchCmd s.params c n with
  | none => s
  | some m => match frontStep s k m (20 + n) (swatchVa m.work n) 256 .read with
    | (s1, none) => s1
    | (s1, some bs) => s1.upd (fun d => d.modCore k (fun c =>
        { c.modCmd m.uid (fun m => { m with swDone := m.swDone ++ [n] }) with stores := updAt (fun _ => bs) n c.stores, moved := true }))
def execSwatchCopy (core store : Nat) (s : State) : Out := onCore s core (swatchCopy s store)

/-! ## BOBBIN_TAKE (R320 to R324) -/

/-- A take of size c from (NEXT, REMAIN): the range, and what remains; none stands for EMPTY. -/
def takeFrom (next remain : BitVec 32) (c : Nat) : Option (List Nat × BitVec 32 × BitVec 32) :=
  if remain = 0 then none
  else
    let r := min c remain.toNat
    some ((List.range r).map (fun i => (next + BitVec.ofNat 32 i).toNat), next + BitVec.ofNat 32 r, remain - BitVec.ofNat 32 r)

/-- BOBBIN_TAKE: the take of the first command of the core that is due one reaches the bobbin unit; a range without an item of the command takes
again. Takes are served in the order in which they arrive, one a command (log entry 8). -/
def bobbinTake (s : State) (k : Nat) : State :=
  let c := s.dev.core k
  match firstCmd c (fun m => m.takePending) with
  | none => s
  | some m =>
    let r : ObjRef := ⟨3, m.work.bobbin % 2 ^ 20⟩
    match (s.dev.entry r).payload with
    | .bobbin next remain =>
      let d := s.dev.won (r.slot / 1024) arbBobbin ((siteIndex s.dev k).getD 0)
      (match takeFrom next remain (2 ^ (Tiling.ofWord m.work.tiling).take) with
       | none => s.withDev (d.modCore k (fun c => (c.modCmd m.uid (fun m => { m with takePending := false, empty := true })).sweep s.params))
       | some (vs, next', remain') =>
         let some' := vs.any (fun v => decide (v < itemCount s.params.opuDim m.work))
         s.withDev ((d.modEntry r (fun e => { e with payload := .bobbin next' remain' })).modCore k (fun c =>
           (c.modCmd m.uid (fun m => { m with items := m.items ++ vs, takePending := !some' })).sweep s.params)))
    | _ => s
def execBobbinTake (core : Nat) (s : State) : Out := onCore s core (bobbinTake s)

end Sys2Proof.Machine
end

