-- ==== Sys2Proof/Machine/Geometry.lean ====
section
/-! DEFINITION. Where the elements of a run lie, in memory and in its region: origins and valid extents (R204, R314, R316), layouts
(R206, R207, R208), the granules a run touches (R215) and the metadata of a segment (R199, R227). -/

namespace Sys2Proof.Machine

namespace Desc

/-- The valid extent along dimension n. -/
def valid (x : Desc) (s : Serv) (n : Nat) : Nat := min (dim x.ext n) (dim x.text n - x.origin s n)

/-- Indices (i₁, i₂, i₃) of stored row r of the window. -/
def rowIndex (x : Desc) (r : Nat) : Nat × Nat × Nat :=
  (r % dim x.ext 1, r / dim x.ext 1 % dim x.ext 2, r / (dim x.ext 1 * dim x.ext 2))

/-- A stored row holds a valid element. -/
def rowValid (x : Desc) (s : Serv) (r : Nat) : Bool :=
  let (a, b, c) := x.rowIndex r
  decide (a < x.valid s 1) && decide (b < x.valid s 2) && decide (c < x.valid s 3) && decide (0 < x.valid s 0)

/-- Bytes of a valid row that hold valid elements. -/
def rowBytes (x : Desc) (s : Serv) : Nat := ceilDiv (x.valid s 0 * x.bits) 8

/-- Memory address of the first valid byte of stored row r; `base` is the spool entry's start for PUSH and POP (R204, R222, R316). -/
def rowAddr (x : Desc) (s : Serv) (base groups r : Nat) : Nat :=
  let (a, b, c) := x.rowIndex r
  let at' : Nat := base + x.va + x.origin s 0 * x.bits / 8 + (x.origin s 1 + a) * dim x.stride 1 + (x.origin s 2 + b) * dim x.stride 2 +
    (x.origin s 3 + c) * dim x.stride 3
  if 1 < groups then at' + s.g * dim x.stride 3 else at'

/-- The address of a byte of a row: with folded groups it wraps at 2⁵² (R316). -/
def wrap (groups va : Nat) : Nat := if 1 < groups then va % 2 ^ 52 else va

/-- The odd start of a row of a 4-bit format that fails a run (R204). -/
def oddStart (x : Desc) (s : Serv) : Bool := x.bits == 4 && x.origin s 0 % 2 == 1

/-- Row of a layout descriptor in which row r of the data lies; none when its window does not reach there (R221). -/
def rowIn (x lay : Desc) (r : Nat) : Option Nat :=
  let (a, b, c) := x.rowIndex r
  if a < dim lay.ext 1 ∧ b < dim lay.ext 2 ∧ c < dim lay.ext 3 then some ((c * dim lay.ext 2 + b) * dim lay.ext 1 + a) else none

end Desc

/-- A piece of a run inside one granule: byte of the run, memory address, length. -/
structure Piece where
  at_ : Nat
  va : Nat
  len : Nat
  deriving DecidableEq, Repr

/-- The valid pieces of a run whose run bytes lie in [lo, hi), in descriptor order. -/
def segPieces (x lay : Desc) (s : Serv) (base groups lo hi : Nat) : List Piece :=
  (List.range x.rows).flatMap (fun r =>
    match x.rowIn lay r with
    | none => []
    | some q =>
      let a := q * lay.pitch
      let b := a + x.rowBytes s
      let lo' := max a lo
      let hi' := min b hi
      if x.rowValid s r && decide (lo' < hi') then
        let va := x.rowAddr s base groups r + (lo' - a)
        (pieces va (hi' - lo') ((hi' - lo') / 64 + 2)).map (fun pc => ⟨lo' + (pc.1 - va), Desc.wrap groups pc.1, pc.2⟩)
      else [])

/-- The granules of pieces, in order, each once (R215). -/
def grans (ps : List Piece) : List Nat := (ps.map (fun q => gran q.va)).eraseDups

/-- Pieces that lie in one of the granules from a granule's address on. -/
def inGran (ps : List Piece) (va : Nat) : List Piece := ps.filter (fun q => gran q.va == va)

/-- Groups of a command. -/
def groupsOf (m : Cmd) : Nat := if m.isMatrix then (Tiling.ofWord m.work.tiling).grp else 1

/-- Start of the spool entry that a PUSH or POP descriptor's VA counts from (R222, R223). -/
def spoolStart (d : Dev) (m : Cmd) (x : Desc) : Nat :=
  match (if x.kind = 5 then m.push else if x.kind = 6 then m.pop else none) with
  | some e => (d.ctx m.ctx).spoolBase + e.1
  | none => 0

/-- Window indices along KDIM of the elements of stored row r whose bytes lie in [lo, hi): the first, and how many. -/
def kSpan (x : Desc) (lo hi r : Nat) : Nat × Nat :=
  let (a, b, c) := x.rowIndex r
  match x.kdim with
  | 0 =>
    let at' := r * x.pitch
    let i := min ((max lo at' - at') * 8 / x.bits) (Desc.dim x.ext 0 - 1)
    (i, min (ceilDiv ((min hi (at' + x.pitch) - at') * 8) x.bits) (Desc.dim x.ext 0) - i)
  | 1 => (a, 1)
  | 2 => (b, 1)
  | _ => (c, 1)

/-- Number of K-block (or of scale element) of window index i along KDIM, before BSEQ (R227). -/
def blockAt (x : Desc) (s : Serv) (i : Nat) : Nat := if x.kind = 4 then x.origin s x.kdim + i else (x.origin s x.kdim + i) / 32

/-- The K-blocks (or scale elements) that run bytes [lo, hi) hold, in the order of their bytes, each once. -/
def blocksOf (x : Desc) (s : Serv) (lo hi : Nat) : List Nat :=
  let h := min hi x.footprint
  let r0 := lo / max 1 x.pitch
  ((List.range (ceilDiv h (max 1 x.pitch) - r0)).flatMap (fun q =>
    let (i, n) := kSpan x lo h (r0 + q)
    (List.range n).map (fun e => blockAt x s (i + e)))).eraseDups

/-- Sequence number of the first K-block of run bytes [lo, hi) (R227). -/
def seqAt (x : Desc) (s : Serv) (lo hi : Nat) : Nat := (x.bseq + (blocksOf x s lo hi).headD (blockAt x s 0)) % 256

/-- Metadata of the segment that a run begins at run byte lo (R199). -/
def segMeta (x : Desc) (s : Serv) (ps : List Piece) (run lo hi : Nat) (last : Bool) : Seg :=
  { Seg.zero with
    valid := (ps.map (fun q => q.at_ + q.len - lo)).foldl max 0
    m0 := s.m0, n0 := s.n0, k0 := s.k0, bseq := seqAt x s lo hi, nblk := (blocksOf x s lo hi).length, run := run, last := last }

/-- The layout of a stream channel's region: FEEDER placement with its row length, or LINEAR. -/
def Core.put (p : Params) (c : Core) (sh : RegRec) (x : Desc) (at' : Nat) (bs : List Byte) : Core :=
  c.tmWrite p sh (x.layout == 1) x.rlen (at' % (sh.ns * sh.segb)) bs
def Core.take (p : Params) (c : Core) (sh : RegRec) (x : Desc) (at' n : Nat) : List Byte :=
  c.tmRead p sh (x.layout == 1) x.rlen (at' % (sh.ns * sh.segb)) n

/-- Zero bytes over the footprint bytes of a segment that no valid element covers: LINEAR runs (R206). The valid bytes land later. -/
def Core.zeroFill (p : Params) (c : Core) (sh : RegRec) (x : Desc) (at' lo hi : Nat) : Core :=
  if x.layout = 1 then c else c.put p sh x (at' + lo) (List.replicate (min hi x.footprint - lo) 0)

end Sys2Proof.Machine
end

