-- ==== Sys2Proof/Machine/Health.lean ====
section
/-! DEFINITION. Health counters and thresholds (R484 to R487, R506), and the removal of a core after an uncorrectable error (R28, R236,
R336, R492, R493). -/

namespace Sys2Proof.Machine

/-! ## Counters -/

/-- The threshold of a counter per window (R486). -/
def threshold (code : Nat) : Nat :=
  match code with | 0 => 64 | 1 => 8 | 2 => 8 | 3 => 4096 | 4 => 4 | 5 => 65536 | _ => 0

/-- One correctable error of counter 0 at a site. -/
def countSite (d : Dev) (k : Nat) : Dev :=
  let s := d.site k
  let n := satAdd 32 s.ceWin 1
  let d1 := d.setSite k { s with ceWin := n, ceTotal := satAdd 32 s.ceTotal 1 }
  let idx := (siteIndex d k).getD 0x3FF
  if n = threshold 0 then healthRecord d1 0 1 idx (idCore idx) n else d1

/-- The physical line of logical line i when the lines a and b are retired: the i-th one that is not (R95); 0x7F names none. -/
def physLine (i a b : Nat) : Nat :=
  let lo := min a b
  let hi := max a b
  let j := if lo ≤ i then i + 1 else i
  if lo ≠ hi ∧ hi ≤ j then j + 1 else j

/-- Physical row and column of the cell that holds logical row i and column j of a site's accumulators (R95). -/
def Site.row (x : Site) (i : Nat) : Nat := physLine i x.rowA x.rowB
def Site.col (x : Site) (j : Nat) : Nat := physLine j x.colA x.colB

/-- A counter table with one more at a key; counts saturate (R484). -/
def bump (k : Nat) (t : List (Nat × Nat)) : List (Nat × Nat) := Tbl.set k (satAdd 32 (Tbl.get 0 k t) 1) t

/-- One accumulator correction at a logical row and column, counted for the physical ones (R95, R98, R484, R485). -/
def countAcc (d : Dev) (k row col : Nat) : Dev :=
  let s := d.site k
  let (r, c) := (s.row row, s.col col)
  let idx := (siteIndex d k).getD 0x3FF
  let t := { s with rowCe := bump r s.rowCe, colCe := bump c s.colCe, rowTotal := bump r s.rowTotal, colTotal := bump c s.colTotal }
  let (nr, nc) := (Tbl.get 0 r t.rowCe, Tbl.get 0 c t.colCe)
  let d1 := countSite (d.setSite k t) k
  let d2 := if nr = threshold 1 then healthRecord d1 1 2 idx (idRow idx r) nr else d1
  if nc = threshold 2 then healthRecord d2 2 3 idx (idRow idx c) nc else d2

/-- The unit that a full table of counter 4 drops: the one with the lowest window count (R485). -/
def lowUnit : List (Nat × Nat) → Nat
  | [] => 0
  | e :: es => (es.foldl (fun m x => if x.2 < m.2 then x else m) e).1

/-- Counter 4: one more correction in a 4 KiB unit of a port, in its window and in its total; a full table drops a unit (R484, R485). -/
def StackPort.countUnit (q : StackPort) (unit : Nat) : StackPort :=
  if q.unitCe.any (fun e => e.1 == unit) || q.unitCe.length < 256 then
    { q with unitCe := bump unit q.unitCe, unitTotal := bump unit q.unitTotal }
  else
    let low := lowUnit q.unitCe
    { q with unitCe := bump unit (Tbl.del low q.unitCe), unitTotal := bump unit (Tbl.del low q.unitTotal) }

/-- One corrected read of a stack port (R485, R486). -/
def countPort (d : Dev) (key addr : Nat) : Dev :=
  let q := d.port key
  let n := satAdd 32 q.ceWin 1
  let q1 := { q with ceWin := n, ceTotal := satAdd 32 q.ceTotal 1 }.countUnit (addr / 4096)
  let d1 := d.setPort key q1
  let d2 := if n = threshold 3 then healthRecord d1 3 4 0x3FF (idRange false key 0) n else d1
  let u := Tbl.get 0 (addr / 4096) q1.unitCe
  if u = threshold 4 then healthRecord d2 4 4 0x3FF (idRange false key (addr / 4096 * 4096)) u else d2

/-- A KIND 8 record (R502, R503). -/
def linkRecord (d : Dev) (what : Nat) (ident : Word) : Dev := d.health { status := .done, kind := 8, w4 := ident, w5 := place what 0 }

/-! ## Removal of a core (R28, R336) -/

/-- Number of elements with a valid byte, as a mask over 4-byte elements. -/
def elemMask (base : Nat) (ps : List Piece) : Nat :=
  (ps.flatMap (fun q => (List.range (ceilDiv q.len 4)).map (fun i => (q.va - base) / 4 + i))).foldl (fun m i => m ||| 2 ^ i) 0

/-- Byte enables of pieces in the granule at `base`. -/
def byteMask (base : Nat) (ps : List Piece) : Nat :=
  (ps.flatMap (fun q => (List.range q.len).map (fun i => q.va - base + i))).foldl (fun m i => m ||| 2 ^ i) 0

/-- The granules of every element that a command's ACCW descriptors could reach, over all its items (R235). -/
def accReach (p : Params) (m : Cmd) : List (Nat × Nat × Nat) :=
  let all := { m with items := List.range (itemCount p.opuDim m.work) }
  ((List.range m.descs.length).filter (fun i => (m.desc i).kind == 2)).flatMap (fun i =>
    let x := m.desc i
    match m.region x.region with
    | none => []
    | some rg => (servings p all rg.shape).flatMap (fun sv =>
        let ps := segPieces x x sv 0 (groupsOf m) 0 x.footprint
        (grans ps).map (fun va => (m.root, va, elemMask va (inGran ps va)))))

/-- The failures after which a command's accumulate regions are indeterminate (R235), by themselves or as outputs of an abort (R437, R442). -/
def spoilsAcc (st : Status) : Bool :=
  [Status.scaleSkew, .fabricPhase, .stallWatchdog, .permFault, .coreRetired, .functionReset, .partitionCleared].contains st

/-- Bytes that lie at a virtual address of a command now; none where they cannot be read. -/
def peek (s : State) (m : Cmd) (va n : Nat) : List Byte :=
  ((pieces va n (n / 64 + 2)).foldlM (fun (bs : List Byte) (pc : Nat × Nat) =>
    match translate s [] m.ctx m.root pc.1 .read with
    | .ok t => (readTarget s t pc.2).map (bs ++ ·)
    | .error _ => none) []).getD []

/-- A work command with its command block and bundle, those that it has not copied yet as they lie in memory: what tells which elements it could
reach (R235). -/
def wholeCmd (s : State) (m : Cmd) : Cmd :=
  if !m.isWork then m
  else
    let m1 := if m.block.isSome then m else { m with block := some (bytesToWords (blockBytes m / 8) (peek s m m.work.cblock (blockBytes m))) }
    let m2 := if m1.regions.isEmpty then { m1 with regions := regionsOf m1 } else m1
    if m2.copied then m2
    else
      let raw := splitDescs m2.work.ndesc (peek s m2 m2.work.bundle (64 * m2.work.ndesc))
      { m2 with descs := (List.range raw.length).map (fun i => override m2.work i (raw.getD i [])) }

/-- What a member's report tells the packet of its accumulate regions: the first report names them, and a failure of R235 spoils them. -/
def Pkt.spoilt (p : Pkt) (reach : List (Nat × Nat × Nat)) (st : Status) : Pkt :=
  { p with reach := if p.reach.isEmpty then reach else p.reach, spoiled := p.spoiled || spoilsAcc st }

/-- A command has ended with a status: after a failure of R235 the elements that its ACCW descriptors could reach are indeterminate. -/
def spoilCmd (s : State) (m : Cmd) (st : Status) : State :=
  let s1 := s.upd (fun d => d.modPkt m.q m.uid (fun p => p.spoilt (accReach s.params (wholeCmd s m)) st))
  match s1.dev.pkt m.q m.uid with | some p => spoil s1 p | none => s1

/-- The report of a member for a command: what it spoils is indeterminate at once, and again at retirement, when every member has stopped. -/
def reportCmd (s : State) (m : Cmd) (idx : Nat) (st : Status) (det : Word) : State := reportCore (spoilCmd s m st) m.q m.uid idx st det

/-- Every packet multicast to a core reported with a status. -/
def reportAll (s : State) (idx : Nat) (c : Core) (st : Status) : State :=
  let s1 := c.cmds.foldl (fun s m => reportCmd s m idx st 0) s
  match c.fitting with
  | some f => reportCore s1 f.q f.uid idx st 0
  | none => s1

/-- An uncorrectable error removes the core at a site (R28, R236, R336, R492, R493). `unit`: the command, first address and length of
the write unit that an error of the write buffer leaves indeterminate. -/
def removeCoreFor (s : State) (k : Nat) (unit : Option (Cmd × Nat × Nat)) : State :=
  match siteIndex s.dev k with
  | none => s
  | some idx =>
    let c := s.dev.core k
    let d1 := match unit, c.cmds.head? with
      | some (m, va, n), _ =>
        s.dev.fault m.func (coreInfo s.dev k m { status := .coreRetired, kind := 4, va := va, w4 := BitVec.ofNat 64 n })
      | none, some m => s.dev.fault m.func (coreInfo s.dev k m { status := .coreRetired, kind := 4 })
      | none, none => s.dev
    let s1 := reportAll (s.withDev (vacate (lostStarts d1 idx) k .retired)) idx c .coreRetired
    s1.upd (fun d =>
      let gone := d.mc.changes.filter (fun x => x.retires idx)
      let d2 := spareRecord { d with mc := { d.mc with changes := d.mc.changes.filter (fun x => !x.retires idx) } } 1 2 idx (idCore idx) 0
      gone.foldl dropChange d2)
def removeCore (s : State) (k : Nat) : State := removeCoreFor s k none

/-- What the error logic of a core does with what it saw on a read: nothing, a count, or a removal (R98, R191, R505). -/
def onEcc (s : State) (k : Nat) (e : Ecc) (go : State → State) : State :=
  match e with
  | .ok => go s
  | .accFixed row col => go (s.upd (fun d => countAcc d k row col))
  | .memFixed => go (s.upd (fun d => countSite d k))
  | .double | .buffer => removeCore s k

/-! ## MULTICAST (R255, R317 to R319, R505) -/

/-- DESIGN CHOICE (log entry 14): a core has room for a packet while none of its three engine queues of 256 entries is full. -/
def queueRoom (c : Core) : Bool := [0, 1, 2].all (fun e => decide ((c.cmds.filter (fun m => m.uses e)).length < 256))

/-- MULTICAST: the packet of a queue that has passed steps 1 to 9 reaches every present member, once each has room for it; a queue that has stopped
accepts no further packet (R256). A parity error in the sequencer queue of the member named removes that core (R505). -/
def multicastQueue (q : QRef) (parity : Option Nat) (s : State) : State :=
  match (s.dev.queue q).flight.find? (fun p => p.stage == .multicast) with
  | none => s
  | some p =>
    if !mayGoOn s.dev q || !(mcastMembers s.dev p).all (fun i => match s.dev.siteOf i with | some k => queueRoom (s.dev.core k) | none => true)
    then s
    else
      let s1 := multicastPkt s p
      match parity.bind (fun i => if (mcastMembers s.dev p).contains i then s.dev.siteOf i else none) with
      | some k => removeCore s1 k
      | none => s1
def execMulticast (q : QRef) (parity : Option Nat) (s : State) : Out := .next (multicastQueue q parity s)

end Sys2Proof.Machine
end

