-- ==== Sys2Proof/Machine/Stream.lean ====
section
/-! DEFINITION. The stream engine: granule requests of READ, RDZ, SCALE and POP runs, write units of WRITE, ACCW and PUSH runs, arrival of
data, multicast, COPY, FILL, ACC_CLEAR and STATS, the stall watchdog, and completion of a command in its core (R198 to R239, R287,
R294, R295, R569). -/

namespace Sys2Proof.Machine

/-! ## The present run of a stream channel -/

/-- A stream channel as it stands: region, its shape, the run's serving, descriptor, spool base and segments. -/
structure Chan where
  rg : Region
  sh : RegRec
  sv : Serv
  di : Nat
  x : Desc
  base : Nat
  groups : Nat
  segs : Nat

/-- The present run of region n of a command; none when no run is known. -/
def chanOf (p : Params) (d : Dev) (m : Cmd) (n : Nat) : Option Chan :=
  match m.region n, runOf p m n (match m.region n with | some r => r.runIdx | none => 0) with
  | some rg, some (sv, i) =>
    let x := m.desc i
    some ⟨rg, rg.shape, sv, i, x, spoolStart d m x, groupsOf m, runSegs x rg.shape⟩
  | _, _ => none

/-- Pieces of segment j of the run, laid out by `lay`. -/
def Chan.pieces (h : Chan) (lay : Desc) (j : Nat) : List Piece :=
  segPieces h.x lay h.sv h.base h.groups (j * h.sh.segb) ((j + 1) * h.sh.segb)

/-- The serving is that of the last item received so far, with a bobbin that may give more (R322). -/
def lastItem (p : Params) (m : Cmd) (sv : Serv) : Bool :=
  m.isMatrix && m.work.bobbin != 0 && !m.empty &&
  (match (workItems p m).getLast? with
   | some v => (let y := itemServ p m v; y.g == sv.g && y.m0 == sv.m0 && y.n0 == sv.n0)
   | none => false)

/-- The next segment of the present run of region n begun: zero fill, metadata, cursors, and the take of R322 at the first run of the
last item. -/
def beginNext (p : Params) (c : Core) (m : Cmd) (n : Nat) (h : Chan) : Core :=
  let j := h.rg.segIdx
  let lo := j * h.sh.segb
  let hi := lo + h.sh.segb
  let first := if j = 0 then (c.ring h.rg.key).prod else h.rg.runSeg
  let c1 := c.zeroFill p h.sh h.x (first * h.sh.segb) lo hi
  let c2 := c1.beginSeg m.uid n (segMeta h.x h.sv (h.pieces h.x j) h.rg.runIdx lo hi (j + 1 == h.segs))
  { c2.modCmd m.uid (fun m =>
      { m.modRegion n (fun r => { r with segIdx := j + 1, pos := 0, runSeg := first }) with
        takePending := m.takePending || (j == 0 && lastItem p m h.sv) }) with moved := true }

/-- A segment whose granules are all requested: FULL once nothing of it is outstanding (R200). -/
def settleSeg (c : Core) (uid n key seg : Nat) : Core :=
  let g := c.ring key
  if (g.seg seg).issued && (g.seg seg).st == .filling && !c.reqs.any (fun r => r.uid == uid && r.region == n && r.seg == seg) then
    { c.modRing key (fun g => g.markFull seg) with moved := true }
  else c

/-- Every granule of the present segment is requested: the segment settles, and the run ends with its last segment. -/
def endSegment (p : Params) (c : Core) (uid n segs : Nat) : Core :=
  match (c.cmd uid).bind (fun m => m.region n) with
  | none => c
  | some r =>
    let seg := (c.ring r.key).prod - 1
    let c1 := (c.modRing r.key (fun g => g.modSeg seg (fun s => { s with issued := true }))).modCmd uid (fun m => m.modRegion n (fun r =>
      if r.segIdx = segs then { r with runIdx := r.runIdx + 1, segIdx := 0, pos := 0 } else r))
    (settleSeg c1 uid n r.key seg).sweep p

/-- The present segment has granules still to be requested (the channel is inside a segment). -/
def inside (c : Core) (h : Chan) : Bool := decide (0 < h.rg.segIdx) && !((c.ring h.rg.key).seg ((c.ring h.rg.key).prod - 1)).issued

/-! ## Multicast (R218 to R221) -/

/-- The issuer of a multicast descriptor: its lowest member (R219). -/
def issuerOf (x : Desc) : Nat := (mcMembers x).headD 0

/-- The other members of a multicast run, as their site, command, region and channel, where they hold the packet. -/
def mcastOthers (p : Params) (d : Dev) (own : Nat) (m : Cmd) (h : Chan) : List (Nat × Nat × Cmd × Nat × Chan) :=
  ((mcMembers h.x).filter (· != own)).filterMap (fun i =>
    (d.siteOf i).bind (fun k => ((d.core k).cmd m.uid).bind (fun y =>
      let n := (y.desc h.di).region
      if y.fail.isSome then none else (chanOf p d y n).map (fun g => (i, k, y, n, g)))))

/-- The values that the issuer sends differ from a member's own (R221). -/
def mcastDiffers (a b : Chan) : Bool :=
  a.x.va != b.x.va || a.x.text != b.x.text || a.x.ext != b.x.ext || a.x.gen != b.x.gen ||
  [0, 1, 2, 3].any (fun i => a.x.origin a.sv i != b.x.origin b.sv i) || a.sv.g != b.sv.g

/-- MIXED and MCAST_MISMATCH live with the packet: a member whose values differ sets its flag. -/
def markMismatch (p : Params) (d : Dev) (own : Nat) (m : Cmd) (h : Chan) : Dev :=
  if (mcastOthers p d own m h).any (fun e => mcastDiffers h e.2.2.2.2) then
    d.modPkt m.q m.uid (fun q => { q with mcastMismatch := true }) else d

/-- Every other member has a credit outstanding. -/
def creditsReady (rg : Region) (own : Nat) (x : Desc) : Bool :=
  (mcMembers x).all (fun i => i == own || decide (0 < Tbl.get 0 i rg.credited))

/-- One credit of every member used. -/
def useCredits (c : Core) (uid n : Nat) : Core :=
  c.modCmd uid (fun m => m.modRegion n (fun r => { r with credited := Tbl.mapv (fun x => x - 1) r.credited }))

/-! ## GRANULE_ISSUE (R214, R215, R230) -/

/-- Access kind of a producing descriptor. -/
def readKind (x : Desc) : Acc3 := if x.kind = 3 then .zeroRead else .read

/-- The request of one member of a run for a granule or a pair, placed by the descriptor `lay`: `own` is the channel whose data they are. -/
def memberReq (c : Core) (y : Cmd) (n : Nat) (own g : Chan) (lay : Desc) (va : Nat) (two : Bool) : CoreReq :=
  let covers (q : Piece) : Bool := gran q.va == va || (two && gran q.va == va + 64)
  let odd := own.x.bits == 4 && own.x.valid own.sv 0 % 2 == 1
  let mine := (own.pieces lay (own.rg.segIdx - 1)).filter covers
  let ends := mine.filter (fun q => odd && (q.at_ + q.len - 1) % max 1 lay.pitch == own.x.rowBytes own.sv - 1)
  { id := c.nextReq, uid := y.uid, region := n, seg := (c.ring g.rg.key).prod - 1, gran := own.rg.pos, va := va, two := two
    zeroing := own.x.kind == 3, state := 0, data := [], links := []
    place := mine.map (fun q => (g.rg.runSeg * g.sh.segb + q.at_, q.va - va, q.len))
    pads := ends.map (fun q => g.rg.runSeg * g.sh.segb + q.at_ + q.len - 1) }

/-- The mesh line along which a multicast reaches a site: its row for MC = 1, its column for MC = 2 (R16, R220); one line for a unicast. -/
def meshLine (mc k : Nat) : Nat := if mc = 0 then 0 else if mc = 1 then keySite k / 12 else keySite k % 12

/-- Requests of one line: the first member's carries links to the others' on the line. -/
def linkLine (d : Dev) : List (Nat × Nat) → Dev
  | [] | [_] => d
  | (k, id) :: rest => d.modCore k (fun c => { c with reqs := c.reqs.map (fun r => if r.id == id then { r with links := rest } else r) })

/-- The requests of the members of a run for one granule or pair, and those that are sent: one for each mesh line that holds a member (R220). -/
def addReqs (p : Params) (d : Dev) (k own : Nat) (m : Cmd) (n : Nat) (h : Chan) (va : Nat) (two : Bool) : Dev × List (Nat × Nat) :=
  let others := if h.x.mc = 0 then [] else mcastOthers p d own m h
  let (d1, made) := ((own, k, m, n, h) :: others).foldl (fun (acc : Dev × List (Nat × Nat)) e =>
    let (_, k', y, n', g) := e
    let c := acc.1.core k'
    let r := memberReq c y n' h g g.x va two
    (acc.1.setCore k' { c with reqs := c.reqs ++ [r], nextReq := c.nextReq + 1, moved := true }, acc.2 ++ [(k', r.id)])) (d, [])
  let lines := ((made.map (fun e => meshLine h.x.mc e.1)).eraseDups).map (fun l => made.filter (fun e => meshLine h.x.mc e.1 == l))
  (lines.foldl linkLine d1, lines.filterMap (·.head?))

/-- The present segment ends in the issuer and in every member. -/
def endSegments (p : Params) (d : Dev) (k own : Nat) (m : Cmd) (n : Nat) (h : Chan) : Dev :=
  let others := if h.x.mc = 0 then [] else mcastOthers p d own m h
  let d1 := others.foldl (fun d e => d.modCore e.2.1 (fun c => endSegment p c e.2.2.1.uid e.2.2.2.1 e.2.2.2.2.segs)) d
  d1.modCore k (fun c => endSegment p c m.uid n h.segs)

/-- The next granule of the present segment of region n requested (with the one after it when `two` and they are one pair of a 4 KiB
unit), or the segment ended when it has none. -/
def issueNext (s : State) (k own uid n : Nat) (two : Bool) : State :=
  match (s.dev.core k).cmd uid with
  | none => s
  | some m =>
    match chanOf s.params s.dev m n with
    | none => s
    | some h =>
      let ps := h.pieces h.x (h.rg.segIdx - 1)
      let gs := grans ps
      match gs[h.rg.pos]? with
      | none => s.upd (fun d => endSegments s.params d k own m n h)
      | some va =>
        let two' := two && gs[h.rg.pos + 1]? == some (va + 64) && (va + 64) % 4096 != 0
        let kind := readKind h.x
        match coreXlate s.dev k m va kind with
        | (.walk, d) => s.withDev (startWalk s.params d k m n va kind.code h.x.gen)
        | (.fault x, d) => s.withDev (coreFault d k m ⟨m.uid, n, x.va, kind.code, h.x.gen, 0, h.rg.credited.map (·.1)⟩ x)
        | (.ok t, d) =>
          let mask := elemMask va (ps.filter (fun q => gran q.va == va || (two' && gran q.va == va + 64)))
          let (d1, carriers) := addReqs s.params d k own m n h va two'
          let d2 := carriers.foldl (fun d e =>
            d.send s.params m.func m.ctx own t (if h.x.kind = 3 then .zeroRead else .read) two' mask [] (.core e.1 e.2)) d1
          let step := if two' then 2 else 1
          let d3 := d2.modCore k (fun c => c.modCmd uid (fun m => m.modRegion n (fun r => { r with pos := r.pos + step })))
          s.withDev (if gs.length ≤ h.rg.pos + step then endSegments s.params d3 k own m n h else d3)

/-- Region n of a command: its next segment begun when the present one is requested whole, then its next granule (R198, R204, R219); a
multicast to a core being cleared fails it (R442). -/
def issueRegion (s : State) (k own : Nat) (m : Cmd) (n : Nat) (two : Bool) : State :=
  let c := s.dev.core k
  match chanOf s.params s.dev m n with
  | none => s
  | some h =>
    if h.x.mc != 0 && own != issuerOf h.x then s
    else if h.x.mc != 0 && (mcMembers h.x).any (fun i => match s.dev.siteOf i with | some j => (s.dev.core j).clearing | none => false) then
      s.upd (fun d => failAt d k m.uid .partitionCleared 0)
    else if inside c h then issueNext s k own m.uid n two
    else if h.rg.segIdx = 0 ∧ h.x.oddStart h.sv then s.upd (fun d => failAt d k m.uid .badParam 0)
    else if !c.producerTurn s.params m.uid h.rg.key || !(c.ring h.rg.key).canBegin || (h.x.mc != 0 && !creditsReady h.rg own h.x) then s
    else
      let d1 := if h.x.mc = 0 then s.dev else markMismatch s.params (s.dev.modCore k (fun c => useCredits c m.uid n)) own m h
      issueNext (s.withDev (d1.modCore k (fun c => beginNext s.params c m n h))) k own m.uid n two

/-- The command whose region n the stream engine works on next: the first in order with something left to produce there (R216). -/
def channelCmd (p : Params) (c : Core) (n : Nat) (producing : Bool) : Option Cmd :=
  firstCmd c (fun m => m.isWork && m.admitted && (match m.region n with
    | some r => if producing then r.shape.prod == 1 && !produced p m n r else r.shape.consumes 1 && !taken p m n r
    | none => false))

/-! ### Stream packets -/

/-- The stream packet at work: the first in the core whose granules are not all begun (R294). -/
def streamCmd (c : Core) (f : Cmd → Bool) : Option Cmd :=
  firstCmd c (fun m => m.isStream && m.admitted && f m && decide (m.cursor < ownGrans m (streamGrans m)))

/-- Number of the granule that a core takes at a cursor position. -/
def granAt (m : Cmd) (i : Nat) : Nat := m.rank + i * m.nmem

/-- Bits of a STATS element. -/
def statsBits (m : Cmd) : Nat := (FDesc.ofNat (fld (wordAt m.body 2) 31 0)).fmt.bits

/-- Addresses of the granules a step of a COPY or STATS reads: granule g of the range; for a STATS whose elements straddle granules, the
next one too. -/
def streamReads (m : Cmd) (g : Nat) : List Nat :=
  let a := gran (wordAt m.body 0).toNat + 64 * g
  let es := statsBits m / 8
  if m.isOp rowStats && decide (1 < es) && (wordAt m.body 0).toNat % es != 0 && decide (g + 1 < streamGrans m) then [a, a + 64] else [a]

/-- Requests for the addresses of one step, after all of them translate. -/
def streamIssue (s : State) (k own : Nat) (m : Cmd) : State :=
  let g := granAt m m.cursor
  let vas := streamReads m g
  let (d, ts) := vas.foldl (fun (acc : Dev × Option (List (Nat × Target))) va =>
    match acc.2 with
    | none => acc
    | some ts =>
      match coreXlate acc.1 k m va .read with
      | (.walk, d) => (startWalk s.params d k m 16 va 1 0, none)
      | (.fault x, d) => (coreFault d k m ⟨m.uid, 16, x.va, 1, 0, 0, []⟩ x, none)
      | (.ok t, d) => (d, some (ts ++ [(va, t)]))) (s.dev, some [])
  match ts with
  | none => s.withDev d
  | some ts =>
    let d1 := ts.foldl (fun d e =>
      let c := d.core k
      let r : CoreReq := ⟨c.nextReq, m.uid, 16, g, 0, e.1, false, false, 0, [], [], [], []⟩
      (d.setCore k { c with reqs := c.reqs ++ [r], nextReq := c.nextReq + 1, moved := true }).send s.params m.func m.ctx own e.2 .read false 0 []
        (.core k r.id)) d
    s.withDev (d1.modCore k (fun c => c.modCmd m.uid (fun m => { m with cursor := m.cursor + 1 })))

/-- GRANULE_ISSUE: the stream engine issues the next read of region `run`, or for 16 of the stream packet at work; nothing while its
streams are halted (R214, R230). -/
def granuleIssue (s : State) (run : Nat) (two : Bool) (k : Nat) : State :=
  let c := s.dev.core k
  let own := (siteIndex s.dev k).getD 0
  if c.halted then s
  else if run < 16 then
    match channelCmd s.params c run true with
    | some m => if m.copied && c.mayStart s.params m.uid 0 then issueRegion s k own m run two else s
    | none => s
  else
    match streamCmd c (fun m => m.isOp rowCopy || m.isOp rowStats) with
    | some m => if c.mayStart s.params m.uid 0 then streamIssue s k own m else s
    | none => s
def execGranuleIssue (core run : Nat) (two : Bool) (s : State) : Out := onCore s core (granuleIssue s run two)

/-! ## WRITE_UNIT_SEND (R214 to R217, R225, R569) -/

/-- One granule of a write unit: address, mask, data. -/
structure UnitGran where
  va : Nat
  mask : Nat
  data : List Byte

/-- The bytes of a granule at `va` from pieces and a source of bytes by run byte. -/
def granBytes (va : Nat) (ps : List Piece) (src : Nat → Byte) : List Byte :=
  (List.range 64).map (fun i =>
    match ps.find? (fun q => decide (q.va ≤ va + i) && decide (va + i < q.va + q.len)) with
    | some q => src (q.at_ + (va + i - q.va))
    | none => 0)

/-- The byte at run byte t of a consuming run, its pad nibble 0 (R39, R215). -/
def unitByte (p : Params) (c : Core) (h : Chan) (t : Nat) : Byte :=
  let b := (c.take p h.sh h.x (h.rg.runSeg * h.sh.segb + h.rg.taken + t) 1).headD 0
  let v := h.x.valid h.sv 0
  if h.x.bits = 4 ∧ v % 2 = 1 ∧ t % max 1 h.x.pitch = h.x.rowBytes h.sv - 1 then b &&& 0x0F#8 else b

/-- The pieces of the write unit that the present run takes from its present segment. -/
def unitPieces (h : Chan) : List Piece :=
  let j := h.rg.segIdx + h.rg.taken / h.sh.segb
  segPieces h.x h.x h.sv h.base h.groups (j * h.sh.segb - h.rg.taken) ((j + 1) * h.sh.segb - h.rg.taken)

/-- Its granules. -/
def unitGrans (p : Params) (c : Core) (h : Chan) : List UnitGran :=
  let ps := unitPieces h
  (grans ps).map (fun va =>
    let qs := inGran ps va
    ⟨va, if h.x.kind = 2 then elemMask va qs else byteMask va qs, granBytes va qs (unitByte p c h)⟩)

/-- Translation of every granule of a unit: the targets, or the device in which a walk was started or a fault was taken. -/
def unitTargets (p : Params) (d : Dev) (k : Nat) (m : Cmd) (n : Nat) (kind : Acc3) (gen what : Nat) : List UnitGran → List (UnitGran × Target) →
    Dev × Option (List (UnitGran × Target))
  | [], acc => (d, some acc)
  | g :: gs, acc =>
    match coreXlate d k m g.va kind with
    | (.walk, d) => (startWalk p d k m n g.va kind.code gen, none)
    | (.fault x, d) => (coreFault d k m ⟨m.uid, n, x.va, kind.code, gen, what, []⟩ x, none)
    | (.ok t, d) => unitTargets p d k m n kind gen what gs (acc ++ [(g, t)])

/-- Access kind of a write unit. -/
def unitKind (h : Chan) : Acc3 := if h.x.kind = 2 then .accum else .write

/-- A unit whose bytes an error of the write buffer leaves indeterminate: free values (R236). -/
def spoilUnit (ctr : Nat) (ts : List (UnitGran × Target)) : List (UnitGran × Target) :=
  (List.range ts.length).zip ts |>.map (fun e =>
    ({ e.2.1 with data := (List.range 16).flatMap (fun i => leBytes 4 (Config.freeWord32 (ctr + 16 * e.1 + i) 0).toNat) }, e.2.2))

/-- Number of ones in a mask of n bits. -/
def ones (n mask : Nat) : Nat := ((List.range n).filter mask.testBit).length

/-- The granules of a unit sent, each counted until it is acknowledged (R217). -/
def sendUnit (p : Params) (d : Dev) (k own : Nat) (m : Cmd) (op : PortOp) (gen : Nat) (gs : List (UnitGran × Target)) : Dev :=
  let access := if op = .write then 2 else if op = .clear then 4 else 3
  let d1 := gs.foldl (fun d e => d.send p m.func m.ctx own e.2 op false e.1.mask e.1.data (.coreWrite k m.uid e.1.va access gen)) d
  d1.modCore k (fun c => { c.modCmd m.uid (fun m => { m with acks := m.acks + gs.length }) with moved := c.moved || !gs.isEmpty })

/-- Segments of a finished serving passed, up to its last one, as far as they are FULL. -/
def passServing (c : Core) (uid n key : Nat) : Nat → Core
  | 0 => c
  | fuel + 1 =>
    let g := c.ring key
    let i := g.consumed 1
    if g.isFull i then
      let last := (g.seg i).last
      let c1 := c.doneTo key 1 (i + 1) 1
      if last then c1.modCmd uid (fun m => m.modRegion n (fun r => { r with closing := false, runSeg := i + 1 }))
      else passServing c1 uid n key fuel
    else c

/-- After the unit of the present run from its present segment is buffered: the cursors move, and segments no later run of the serving
reads are done (R200, R569). `last`: the segment is the last its producer made for the serving. -/
def unitTaken (c : Core) (m : Cmd) (n : Nat) (h : Chan) (last : Bool) : Core :=
  let rg := h.rg
  let nd := max 1 (m.descsOf n).length
  let j := rg.segIdx + rg.taken / h.sh.segb
  let fin := rg.taken + h.x.footprint
  let more := decide ((j + 1) * h.sh.segb < fin)
  let lastRun := (rg.runIdx + 1) % nd == 0
  let next := if more then (j + 1) * h.sh.segb else fin
  let upTo (c : Core) (i : Nat) : Core := c.doneTo rg.key 1 i (h.sh.ns + 1)
  let set (c : Core) (f : Region → Region) : Core := c.modCmd m.uid (fun m => m.modRegion n f)
  let nextServ (r : Region) : Region := { r with runIdx := (r.runIdx / nd + 1) * nd, segIdx := 0, taken := 0 }
  if last && (lastRun && !more || decide ((j + 1) * h.sh.segb ≤ next)) then
    set (upTo c (rg.runSeg + j + 1)) (fun r => { nextServ r with runSeg := rg.runSeg + j + 1, closing := false })
  else if more then set (upTo c (rg.runSeg + j + 1)) (fun r => { r with segIdx := r.segIdx + 1 })
  else if !lastRun then set (upTo c (rg.runSeg + next / h.sh.segb)) (fun r => { r with runIdx := r.runIdx + 1, segIdx := 0, taken := fin })
  else passServing (set (upTo c (rg.runSeg + next / h.sh.segb)) (fun r => { nextServ r with closing := true })) m.uid n rg.key (h.sh.ns + 1)

/-- The next write unit of region n. -/
def unitSend (s : State) (k own : Nat) (m : Cmd) (n : Nat) (ecc : Ecc) : State :=
  let c0 := s.dev.core k
  match m.region n with
  | none => s
  | some r0 =>
    if r0.closing then s.upd (fun d => d.modCore k (fun c => (passServing c m.uid n r0.key (r0.shape.ns + 1)).sweep s.params))
    else
      -- the command's first serving begins where its producer began (R196, R569)
      let start := if r0.runIdx = 0 ∧ r0.segIdx = 0 ∧ r0.taken = 0 then r0.base else some r0.runSeg
      match start, chanOf s.params s.dev m n with
      | some st, some h0 =>
        let h := { h0 with rg := { h0.rg with runSeg := st } }
        let j := h.rg.segIdx + h.rg.taken / h.sh.segb
        let seg := st + j
        let g := c0.ring h.rg.key
        if !g.isFull seg || decide (seg < g.consumed 1) then s
        else if h.rg.segIdx = 0 ∧ h.x.oddStart h.sv then s.upd (fun d => failAt d k m.uid .badParam 0)
        else if ecc == .buffer then
          match unitTargets s.params s.dev k m n (unitKind h) h.x.gen 0 (unitGrans s.params c0 h) [] with
          | (d, none) => s.withDev d
          | (d, some ts) =>
            let d1 := { sendUnit s.params d k own m (if h.x.kind = 2 then .accum else .write) h.x.gen (spoilUnit d.freeCtr ts) with
              freeCtr := d.freeCtr + 16 * ts.length }
            let ps := unitPieces h
            let lo := ((ps.map (·.va)).min?).getD 0
            removeCoreFor (s.withDev d1) k (some (m, lo, ((ps.map (fun q => q.va + q.len)).foldl max lo) - lo))
        else onEcc s k ecc (fun s =>
          let c := s.dev.core k
          match unitTargets s.params s.dev k m n (unitKind h) h.x.gen 0 (unitGrans s.params c h) [] with
          | (d, none) => s.withDev d
          | (d, some ts) =>
            let last := (g.seg seg).last
            let d1 := sendUnit s.params d k own m (if h.x.kind = 2 then .accum else .write) h.x.gen ts
            let n4 := (ts.map (fun e => 4 * ones 16 e.1.mask)).foldl (· + ·) 0
            let n1 := (ts.map (fun e => ones 64 e.1.mask)).foldl (· + ·) 0
            let d2 := countUsage d1 m.ctx (fun u =>
              if h.x.kind = 2 then { u with accBytes := u.accBytes + BitVec.ofNat 64 n4 } else { u with wrBytes := u.wrBytes + BitVec.ofNat 64 n1 })
            s.withDev (d2.modCore k (fun c =>
              (unitTaken (c.modCmd m.uid (fun m => m.modRegion n (fun r => { r with runSeg := st }))) m n h last).sweep s.params)))
      | _, _ => s

/-- The next write of a stream packet: the data of a COPY granule that has arrived, or the next granule of a FILL or ACC_CLEAR. -/
def streamWrite (s : State) (k own : Nat) : State :=
  let c := s.dev.core k
  let word (m : Cmd) (i : Nat) : Nat := (wordAt m.body i).toNat
  match c.reqs.find? (fun r => r.region == 16 && r.state == 3 && (match c.cmd r.uid with | some m => m.isOp rowCopy && m.fail.isNone | none => false)) with
  | some r =>
    match c.cmd r.uid with
    | none => s
    | some m =>
      match unitTargets s.params s.dev k m 16 .write 0 0 [⟨word m 1 + 64 * r.seg, fullMask, r.data⟩] [] with
      | (d, none) => s.withDev d
      | (d, some ts) =>
        s.withDev ((sendUnit s.params d k own m .write 0 ts).modCore k (fun c => { c with reqs := c.reqs.filter (fun x => x.id != r.id) }))
  | none =>
    match streamCmd c (fun m => m.isOp rowFill || m.isOp rowAccClear) with
    | none => s
    | some m =>
      if !c.mayStart s.params m.uid 0 then s
      else
        let clear := m.isOp rowAccClear
        let data := if clear then List.replicate 64 0 else wordsToBytes (List.replicate 8 (wordAt m.body 2))
        let g : UnitGran := ⟨word m 0 + 64 * granAt m m.cursor, if clear then 65535 else fullMask, data⟩
        match unitTargets s.params s.dev k m 16 (if clear then .zeroRead else .write) 0 0 [g] [] with
        | (d, none) => s.withDev d
        | (d, some ts) =>
          s.withDev ((sendUnit s.params d k own m (if clear then .clear else .write) 0 ts).modCore k (fun c =>
            c.modCmd m.uid (fun m => { m with cursor := m.cursor + 1 })))

/-- WRITE_UNIT_SEND: the next write unit of region `run`, or for 16 the next write of a stream packet (R214). -/
def writeUnitSend (s : State) (run : Nat) (ecc : Ecc) (k : Nat) : State :=
  let c := s.dev.core k
  let own := (siteIndex s.dev k).getD 0
  if c.halted then s
  else if run < 16 then
    match channelCmd s.params c run false with
    | some m => if m.copied && c.mayStart s.params m.uid 0 then unitSend s k own m run ecc else s
    | none => s
  else streamWrite s k own
def execWriteUnitSend (core run : Nat) (ecc : Ecc) (s : State) : Out := onCore s core (writeUnitSend s run ecc)

/-! ## READ_DATA_ARRIVAL (R199, R200, R220, R295) -/

/-- The elements of a STATS whose first byte lies in a granule: their byte addresses, or nibble numbers for 4-bit elements. -/
def statsElems (m : Cmd) (g : Nat) : List Nat :=
  let va := (wordAt m.body 0).toNat
  let n := (wordAt m.body 1).toNat
  let bits := statsBits m
  let lo := gran va + 64 * g
  (List.range (64 * 8 / bits + 1)).filterMap (fun i =>
    -- the first element at or after the granule's first byte, and those that follow
    let e := ceilDiv ((lo - va) * 8) bits + i
    if e < n ∧ va + e * bits / 8 < lo + 64 then some e else none)

/-- The code of element e of a STATS in bytes that begin at address `lo`. -/
def statsCode (m : Cmd) (lo : Nat) (bs : List Byte) (e : Nat) : Nat :=
  let bits := statsBits m
  let a := (wordAt m.body 0).toNat + e * bits / 8 - lo
  if bits = 4 then (byteAt bs a).toNat / 16 ^ (e % 2) % 16 else leNat ((bs.drop a).take (bits / 8))

/-- One element observed by a STATS: its exact value, and whether its conversion to the target would overflow (R295). DESIGN CHOICE (log entry 76):
with ZPROW = 1, for which a STATS has no array, the zero point is that of the descriptor's ZP field, 0. -/
def statsObserve (src tgt : FDesc) (hlo : Int) (acc : Stats × Nat) (code : Nat) : Stats × Nat :=
  let x := decodeElem src.fmt [] code src.zp 0
  let draw := Config.random16 acc.2
  let ovf := (encodeElem tgt [] tgt.zp 0 draw (f32Val x)).ovf
  (acc.1.observe hlo x ovf, if tgt.rnd = 2 then acc.2 + 1 else acc.2)

/-- A STATS granule observed once all its data are here. -/
def statsArrive (d : Dev) (k : Nat) (m : Cmd) (r : CoreReq) : Dev :=
  let c := d.core k
  let mates := c.reqs.filter (fun x => x.uid == r.uid && x.region == 16 && x.seg == r.seg)
  if mates.any (fun x => x.id != r.id && x.state != 3) then
    d.setCore k { c with reqs := c.reqs.map (fun x => if x.id == r.id then { x with state := 3 } else x) }
  else
    let lo := gran (wordAt m.body 0).toNat + 64 * r.seg
    let bs := (mates.map (fun x => x.data)).flatten
    let w := wordAt m.body 2
    let (st, ctr) := ((statsElems m r.seg).map (statsCode m lo bs)).foldl
      (statsObserve (.ofNat (fld w 31 0)) (.ofNat (fld w 63 32)) (hloInt (fld (wordAt m.body 4) 7 0))) (statsOf m.stats, d.freeCtr)
    { d with freeCtr := ctr }.setCore k { c.modCmd m.uid (fun m => { m with stats := st.record (fld (wordAt m.body 4) 7 0) }) with
      reqs := c.reqs.filter (fun x => !(x.uid == r.uid && x.region == 16 && x.seg == r.seg)) }

/-- The data of one request placed into its region, or kept for a COPY's write, or observed by a STATS. -/
def arrive (p : Params) (d : Dev) (k : Nat) (r : CoreReq) : Dev :=
  let c := d.core k
  let drop (c : Core) : Core := { c with reqs := c.reqs.filter (fun x => x.id != r.id), moved := true }
  match c.cmd r.uid with
  | none => d.setCore k (drop c)
  | some m =>
    if m.fail.isSome || r.state == 2 then d.setCore k (drop c)
    else if r.region = 16 then
      (if m.isOp rowStats then statsArrive d k m r
       else d.setCore k { c with reqs := c.reqs.map (fun x => if x.id == r.id then { x with state := 3 } else x), moved := true })
    else
      match m.region r.region with
      | none => d.setCore k (drop c)
      | some rg =>
        let sh := rg.shape
        let x := m.desc ((m.descsOf r.region).headD 0)
        let c0 := r.place.foldl (fun c q => c.put p sh x q.1 ((r.data.drop q.2.1).take q.2.2)) (drop c)
        let c1 := r.pads.foldl (fun c a => c.put p sh x a ((c.take p sh x a 1).map (fun b => b &&& 0x0F#8))) c0
        d.setCore k ((settleSeg c1 m.uid r.region rg.key r.seg).sweep p)

/-- A request of a core whose answer is here and is not kept for a front copy still to be taken. -/
def mayArrive (c : Core) (r : CoreReq) : Bool :=
  r.state == 2 || (r.state == 1 && (decide (r.region ≤ 16) || !(c.cmd r.uid).any (fun m => m.fail.isNone)))

/-- READ_DATA_ARRIVAL: the data of a request whose response is here reach tile memory. -/
def dataArrival (s : State) (req k : Nat) : State :=
  match (s.dev.core k).reqs.find? (fun r => r.id == req && mayArrive (s.dev.core k) r) with
  | none => s
  | some r => s.upd (fun d => arrive s.params d k r)
def execReadDataArrival (core req : Nat) (s : State) : Out := onCore s core (dataArrival s req)

/-! ## MCAST_FREE_REPORT (R219) -/

/-- MCAST_FREE_REPORT: a member's next segment for a multicast run is FREE; it begins it and the issuer takes the credit; the report
to a core being cleared fails the command (R442). -/
def freeReport (s : State) (run issuer k : Nat) : State :=
  let c := s.dev.core k
  let own := (siteIndex s.dev k).getD 0
  match channelCmd s.params c run true, s.dev.siteOf issuer with
  | some m, some ki =>
    if (s.dev.core ki).clearing && (match chanOf s.params s.dev m run with | some h => h.x.mc != 0 && issuerOf h.x == issuer | none => false)
    then s.upd (fun d => failAt d k m.uid .partitionCleared 0)
    else (match chanOf s.params s.dev m run, (s.dev.core ki).cmd m.uid with
     | some h, some mi =>
       let ni := (mi.desc h.di).region
       if h.x.mc == 0 || issuer == own || issuerOf h.x != issuer || !(mcMembers h.x).contains own || c.halted || !m.copied || !mi.copied ||
          mi.fail.isSome || !c.mayStart s.params m.uid 0 || inside c h || !c.producerTurn s.params m.uid h.rg.key || !(c.ring h.rg.key).canBegin then s
       else
         s.upd (fun d => (d.modCore k (fun c => beginNext s.params c m run h)).modCore ki (fun c =>
           c.modCmd m.uid (fun y => y.modRegion ni (fun r => { r with credited := Tbl.set own (Tbl.get 0 own r.credited + 1) r.credited }))))
     | _, _ => s)
  | _, _ => s
def execMcastFreeReport (member run issuer : Nat) (s : State) : Out := onCore s member (freeReport s run issuer)

/-! ## The stall watchdog (R237 to R239) -/

/-- The cores that a channel of a command waits on, with the kind of wait: 0 FREE report, 1 multicast data. -/
def waitsOf (p : Params) (d : Dev) (k own : Nat) (m : Cmd) (n : Nat) : List (Nat × Nat) :=
  let c := d.core k
  match chanOf p d m n with
  | none => []
  | some h =>
    if h.x.mc == 0 || h.sh.prod != 1 || m.fail.isSome || !m.copied || !c.mayStart p m.uid 0 then []
    else if issuerOf h.x == own then
      (if !inside c h && c.producerTurn p m.uid h.rg.key && (c.ring h.rg.key).canBegin then
        ((mcMembers h.x).filter (fun i => i != own && Tbl.get 0 i h.rg.credited == 0)).map (fun i => (i, 0)) else [])
    else if inside c h || c.reqs.any (fun r => r.uid == m.uid && r.region == n && r.state == 0) then [(issuerOf h.x, 1)] else []

/-- Every wait of a command on other cores. -/
def waitPairs (p : Params) (d : Dev) (k own : Nat) (m : Cmd) : List (Nat × Nat) := m.regions.flatMap (fun r => waitsOf p d k own m r.1)

/-- Commands of a core with a wait on another core. -/
def waitingCmds (p : Params) (d : Dev) (k own : Nat) : List (Cmd × List (Nat × Nat)) :=
  ((d.core k).cmds.map (fun m => (m, waitPairs p d k own m))).filter (fun e => !e.2.isEmpty)

/-- The watchdog counts: a run waits, and no core awaited is halted at a translation fault (R237). -/
def watchdogRuns (p : Params) (d : Dev) (k own : Nat) : Bool :=
  let ws := waitingCmds p d k own
  !ws.isEmpty && ws.all (fun e => e.2.all (fun w => match d.siteOf w.1 with | some j => !(d.core j).halted | none => true))

/-- The words of up to eight waiting pairs (R272). -/
def pairWords (own : Nat) (ws : List (Nat × Nat)) : List Word :=
  let one (i : Nat) : Word := match ws[i]? with
    | some w => place (own % 1024) 22 ||| place (w.1 % 1024) 12 ||| place w.2 10 ||| place 1 0
    | none => 0
  [0, 2, 4, 6].map (fun i => one i ||| (one (i + 1) <<< 32))

/-- A command fails with STALL_WATCHDOG and its core writes its fault record (R238, R239). -/
def stallFail (d : Dev) (k own : Nat) (m : Cmd) (ws : List (Nat × Nat)) : Dev :=
  let w := pairWords own ws
  (failAt d k m.uid .stallWatchdog 0).fault m.func
    (coreInfo d k m { status := .stallWatchdog, kind := 3, w4 := wordAt w 0, w5 := wordAt w 1, w6 := wordAt w 2, w7 := wordAt w 3 })

/-- The count at which the watchdog fires (R238). -/
def watchdogLimit : Nat := 2 ^ 20

/-- STALL_WATCHDOG: the core's count has reached 2^20. -/
def stallFire (s : State) (k : Nat) : State :=
  let own := (siteIndex s.dev k).getD 0
  if !watchdogRuns s.params s.dev k own then s
  else match waitingCmds s.params s.dev k own with
    | [] => s
    | (m, ws) :: _ => s.upd (fun d => stallFail (d.modCore k (fun c => { c with wdCount := watchdogLimit })) k own m ws)
def execStallWatchdog (core : Nat) (s : State) : Out := onCore s core (stallFire s)

/-- WATCHDOG_ABORT: the abort of a core whose command failed at its watchdog reaches a core with a run that waits on it, or that it
waits on (R238). -/
def abortFire (s : State) (source k : Nat) : State :=
  let own := (siteIndex s.dev k).getD 0
  match (waitingCmds s.params s.dev k own).find? (fun e => e.2.any (fun w => w.1 == source) &&
      (match s.dev.siteOf source with
       | some j => (match (s.dev.core j).cmd e.1.uid with | some y => (y.fail.map (·.1)) == some .stallWatchdog | none => true)
       | none => true)) with
  | some (m, ws) => s.upd (fun d => stallFail d k own m ws)
  | none => s
def execWatchdogAbort (core source : Nat) (s : State) : Out := onCore s core (abortFire s source)

/-! ## CORE_COMPLETION (R133, R217, R223, R257, R287) -/

/-- The statistics records a core writes for a command: address and words (R131, R287, R295). -/
def statsWrites (own : Nat) (m : Cmd) : List (Nat × List Word) :=
  let w := m.work
  let rec' (ws : List Word) : List Word := (statsOf ws).record w.hlo
  if m.isWork then
    (if w.stats = 0 then [] else [(w.stats + 192 * own, rec' m.stats), (w.stats + 192 * (512 + own), rec' m.portStats)])
  else if m.isOp rowStats then
    [((wordAt m.body 3).toNat + 192 * own, (statsOf m.stats).record (fld (wordAt m.body 4) 7 0))]
  else []

/-- The granules of bytes written at an address. -/
def bytesGrans (va : Nat) (bs : List Byte) : List UnitGran :=
  (((pieces va bs.length (bs.length / 64 + 2)).map (fun pc => gran pc.1)).eraseDups).map (fun g =>
    let ps : List Piece := (pieces va bs.length (bs.length / 64 + 2)).map (fun pc => ⟨pc.1 - va, pc.1, pc.2⟩)
    ⟨g, byteMask g (inGran ps g), granBytes g (inGran ps g) (fun i => byteAt bs i)⟩)

/-- Every part of a command has done its work in its core, in queue order. -/
def allParts (p : Params) (c : Core) (uid : Nat) : Bool :=
  match (partsDone p c c.cmds []).find? (fun x => x.1.uid == uid) with
  | some x => [0, 1, 2].all (fun e => !x.1.uses e || x.2.getD e true)
  | none => false

/-- A command leaves its core: its regions go, a kernel command's plane is the active one (R183), its report is sent. -/
def leaveCore (s : State) (k own : Nat) (m : Cmd) : State :=
  let (st, det) := m.fail.getD (.done, 0)
  let s1 := s.upd (fun d => d.modCore k (fun c =>
    let c1 := c.sweep s.params
    { c1 with
      cmds := c1.cmds.filter (fun x => x.uid != m.uid)
      fab := if m.hasKernel && decide (c1.fab.activeArr ≤ m.arr) then { c1.fab with active := some m.work.plane, activeArr := m.arr + 1 } else c1.fab
      }.sweep s.params))
  reportCmd s1 m own st det

/-- CORE_COMPLETION: a command whose parts are done writes its statistics, and when all is acknowledged it completes in its core. -/
def coreComplete (s : State) (uid k : Nat) : State :=
  let c := s.dev.core k
  let own := (siteIndex s.dev k).getD 0
  match c.cmd uid with
  | none => s
  | some m =>
    if !allParts s.params c uid || !c.atHead uid || m.acks != 0 then s
    else if m.fail.isSome || m.statsWritten || (statsWrites own m).isEmpty then leaveCore s k own m
    else if c.halted then s
    else
      match unitTargets s.params s.dev k m 17 .write 0 0 ((statsWrites own m).flatMap (fun e => bytesGrans e.1 (wordsToBytes e.2))) [] with
      | (d, none) => s.withDev d
      | (d, some ts) =>
        s.withDev ((sendUnit s.params d k own m .write 0 ts).modCore k (fun c => c.modCmd uid (fun m => { m with statsWritten := true })))
def execCoreCompletion (core uid : Nat) (s : State) : Out := onCore s core (coreComplete s uid)

end Sys2Proof.Machine
end

