-- ==== Sys2Proof/Machine/Opu.lean ====
section
/-! DEFINITION. The outer-product unit: operand feeders and side ports (R99 to R112, R568), beats and the block-scale stage (R113 to
R117), accumulators and the load path (R118 to R126), the drain with its side read, conversion, statistics and layout (R127 to R132,
R569). -/

namespace Sys2Proof.Machine

/-! ## Places in operand, side and load regions -/

/-- A segment of a ring changed state: it shows to the watchdog when the stream engine produces or consumes the ring (R237). -/
def Core.stirred (c : Core) (sh : RegRec) : Core := { c with moved := c.moved || sh.prod == 1 || sh.consumes 1 }

/-- Every listed segment is FULL. -/
def segsFull (c : Core) (key : Nat) (segs : List Nat) : Bool := segs.all (fun i => (c.ring key).isFull i)

/-- Ring byte `off` bytes into the run that begins at segment seg; a byte before the run lies further back in the ring (R284). -/
def ringAt (sh : RegRec) (seg : Nat) (off : Int) : Nat := (((seg * sh.segb : Nat) + off) % ((sh.ns * sh.segb : Nat) : Int)).toNat

/-- A little-endian code of `bits` bits at a run byte; for 4 bits the nibble that index i₀ selects (R39). -/
def codeAt (p : Params) (c : Core) (sh : RegRec) (feeder : Bool) (rlen seg : Nat) (off i0 : Int) (bits : Nat) : Nat :=
  if bits = 4 then (leNat (c.tmRead p sh feeder rlen (ringAt sh seg off) 1)) / 16 ^ (i0 % 2).toNat % 16
  else leNat ((List.range (bits / 8)).map (fun (j : Nat) => (c.tmRead p sh feeder rlen (ringAt sh seg (off + j)) 1).headD 0))

/-! ## Operand feeders (R102 to R107, R313) -/

/-- Stored row and element of logical row r (from the item's origin) and K index k (from the step's): R104, R105. -/
def feedPlace (turned : Bool) (r k : Nat) : Nat × Nat := if turned then (r, k) else (k, r)

/-- One operand element of a beat: logical row i of the tile and K index k, with the segment that must be FULL for it; selvage is +0 and reads nothing
(R107), and a byte outside the run's segments is read as it stands (R284). -/
structure FeedElem where
  seg : Option Nat
  val : F32

def sideCode (t : List (Nat × List Byte)) (key bytes i : Nat) : Nat := leNat (((Tbl.get [] key t).drop (i * bytes)).take bytes)

/-- The side items held by feeder A's or B's side port. -/
def Opu.side (o : Opu) (a : Bool) : List (Nat × List Byte) := if a then o.sideA else o.sideB

/-- Element (row i of the tile, K index k) of feeder A or B for a tile of item `it` at operand step `st`. -/
def feedElem (p : Params) (c : Core) (m : Cmd) (a : Bool) (it st tile : Nat) (t : Serv) (i k : Nat) : FeedElem :=
  let w := m.work
  let f := feedFmt w a
  let row := rowOrg a t + i
  if feedExt w a ≤ row ∨ min w.kext (w.kbeg + w.kcnt) ≤ k then ⟨none, f32Zero⟩
  else
    match unitRegion m (if a then 2 else 3) with
    | none => ⟨none, f32Zero⟩
    | some (n, rg) =>
      match servSeg m n rg (blockNo p m a it st) with
      | none => ⟨some (c.ring rg.key).prod, f32Zero⟩
      | some seg =>
        let sh := rg.shape
        let x := m.desc ((m.descsOf n).headD 0)
        let item := itemServ p m ((workItems p m).getD it 0)
        let (r, e) := feedPlace (feedTurned w a) (row - rowOrg a item) (k - stepStart w st)
        let off := r * x.rlen * 8 + e * f.fmt.bits / 8
        let code := codeAt p c sh true x.rlen seg off e f.fmt.bits
        let zp := if f.zprow then sideCode (c.opu.side a) (sideKey m.uid tile 0) 1 i else f.zp
        let sel := if f.swrow then sideCode (c.opu.side a) (sideKey m.uid tile 1) 1 i else f.swsel
        ⟨(runSegAt x sh off).map (seg + ·), decodeElem f.fmt (c.stores.getD (if a then 0 else 1) []) code zp sel⟩

/-! ## Side ports (R108 to R110, R568) -/

/-- Bytes per row of a stored side item. -/
def codeBytes (smode code : Nat) : Nat := if code < 2 then 1 else if code = 2 then 2 else if smode = 1 then 1 else 2

/-- The side code a row beyond the tensor's extent is given: zero point 0, selector 0, scale 1 (R109). -/
def sideDefault (smode code : Nat) : Nat := if code < 2 then 0 else if codeBytes smode code = 1 then 0x7F else 0x3F80

/-- The segments that an item of a side port needs, by their ring number; none while the region's producer has not begun (R135). -/
def jobPlace (p : Params) (m : Cmd) (j : SideJob) : Option (Region × Nat × Nat) :=
  (unitRegion m j.u).bind (fun e => (servSeg m e.1 e.2 (jobNo p m j)).map (fun s0 => (e.2, e.1, s0)))

/-- The side data of a job are marked ready. -/
def jobReady (p : Params) (c : Core) (m : Cmd) (j : SideJob) : Bool :=
  match jobPlace p m j with
  | none => false
  | some (rg, n, s0) => segsFull c rg.key ((jobSegs p m n rg.shape j).map (s0 + ·))

/-- The bytes of a side item: the code of every logical row, whatever its run left there (R109, R284, R568). -/
def sideBytes (p : Params) (c : Core) (m : Cmd) (j : SideJob) : List Byte :=
  match jobPlace p m j with
  | none => []
  | some (rg, n, s0) =>
    let sh := rg.shape
    let (x, at') := jobRun m n sh j
    let smode := if j.u = 8 then 3 else (feedFmt m.work (j.u == 4)).smode
    let w := codeBytes smode j.code
    (jobOffs p m x j).flatMap (fun o => leBytes w (match o with
      | none => sideDefault smode j.code
      | some e => codeAt p c sh false 0 (s0 + at') e.1 e.2 (if j.code = 1 then 4 else 8 * w)))

/-- The next matrix command and tile for the M engine to begin: the first command in order that has one (R120, R134). -/
def nextTile (p : Params) (c : Core) : Option (Cmd × Nat) :=
  match firstCmd c (fun m => m.isMatrix && !(itemsFinal m && m.admitted && decide ((tileServs p m).length ≤ startedTiles c m))) with
  | some m => if m.admitted && decide (startedTiles c m < (tileServs p m).length) then some (m, startedTiles c m) else none
  | none => none

/-- The command, tile, item, origin and step the M engine works on: the tile being filled, else the next to begin. -/
def workTile (p : Params) (c : Core) : Option (Cmd × Nat × Nat × Serv × Nat × Nat) :=
  match c.opu.fill with
  | some f => match c.cmd f.uid with
    | some m => (tileItems p m)[f.tile]?.map (fun e => (m, f.tile, e.1, e.2, f.step, f.beat))
    | none => none
  | none => match nextTile p c with
    | some (m, t) => (tileItems p m)[t]?.map (fun e => (m, t, e.1, e.2, 0, 0))
    | none => none

/-- What feeder A's or B's side port may fetch, in order: the present tile's items, its block scales up to two blocks ahead, then the
next tile's items (R110). -/
def feedJobs (p : Params) (c : Core) (u : Nat) : List (Cmd × SideJob) :=
  match workTile p c with
  | none => []
  | some (m, tile, it, t, st, beat) =>
    let b := beat * spcOf m.work.fa.fmt m.work.fb.fmt / 32
    let blocks := if hasBlocks m u then ((List.range 3).map (b + ·)).filter (fun x => decide (x < stepBlocks m.work st)) else []
    let next := match (tileItems p m)[tile + 1]? with
      | some e => tileJobs m u (tile + 1) e.1 e.2
      | none => []
    (tileJobs m u tile it t ++ blocks.map (blockJob m u tile it t st) ++ next).map (fun j => (m, j))

/-- What the drain's side read may fetch: the items of the tile it drains next (R129). -/
def drainJobs (p : Params) (c : Core) : List (Cmd × SideJob) :=
  match c.opu.fullq.head? with
  | none => []
  | some i =>
    let acc := c.opu.accs.getD i Acc.zero
    match c.cmd acc.uid with
    | none => []
    | some m => match (tileItems p m)[acc.tile]? with
      | some e => (tileJobs m 8 acc.tile e.1 e.2).map (fun j => (m, j))
      | none => []

/-- SIDE_PORT_READ: a side reader fetches the next item it needs, when the segments that hold it are FULL; `ecc`: what its read of tile memory saw
(R191). -/
def sideRead (s : State) (side : Side) (ecc : Ecc) (k : Nat) : State :=
  let c := s.dev.core k
  let u := match side with | .a => 4 | .b => 5 | .drain => 8
  let jobs := if u = 8 then drainJobs s.params c else feedJobs s.params c u
  match jobs.find? (fun e => !c.opu.holds e.1.uid e.2) with
  | none => s
  | some (m, j) =>
    if !jobReady s.params c m j then s
    else onEcc s k ecc (fun s => s.upd (fun d => d.modCore k (fun c =>
      { c with opu := c.opu.setSide u (Tbl.set (sideKey m.uid j.tile j.code) (sideBytes s.params c m j) (c.opu.sideOf u)) }.sweep s.params)))
def execSidePortRead (core : Nat) (side : Side) (s : State) (ecc : Ecc := .ok) : Out := onCore s core (sideRead s side ecc)

/-! ## Accumulators (R118 to R126) -/

/-- The first FREE accumulator after the one assigned last (R120). -/
def freeAcc (o : Opu) : Option Nat := ((List.range 4).map (fun i => (o.lastAcc + 1 + i) % 4)).find? (fun i => (o.accs.getD i Acc.zero).st == .free)

/-- Value (m, n) of an accumulator. -/
def Acc.val (dim : Nat) (a : Acc) (i j : Nat) : F32 := if a.vals.isEmpty then f32Zero else a.vals.getD (i * dim + j) f32Zero

/-- The accumulator in which a retaining command continues: held by the matrix command admitted just before it, of its own queue (R123). -/
def heldAcc (o : Opu) (m : Cmd) : Option Nat :=
  (List.range 4).find? (fun i =>
    let a := o.accs.getD i Acc.zero
    a.st == .held && m.heldBy == some a.uid && a.holder == some m.q)

/-- An accumulator given to a tile. -/
def assign (o : Opu) (i : Nat) (st : AccState) (vals : List F32) (m : Cmd) (tile : Nat) (t : Serv) : Opu :=
  { o with accs := updAt (fun _ => ⟨st, vals, none, m.uid, t.g, t.m0, t.n0, tile⟩) i o.accs, lastAcc := i }

/-! ### The load path (R121) -/

/-- The values that the load path puts into the accumulator of a tile: +0 beyond the tensor's extent, else what the item's run left there (R121,
R284). -/
def loadVals (p : Params) (c : Core) (m : Cmd) (n : Nat) (sh : RegRec) (seg it : Nat) (t : Serv) : List F32 :=
  let x := m.desc ((m.descsOf n).headD 0)
  let sv := itemServ p m ((workItems p m).getD it 0)
  (tileCells p t).map (fun e =>
    if cellIn m e then BitVec.ofNat 32 (codeAt p c sh false 0 seg (loadOff x sv e.1 e.2) 0 32) else f32Zero)

/-- The load of the next tile of a command with ACC_INIT = LOAD, once an accumulator is FREE and the region is ready: the core after it, none
while it must wait. DESIGN CHOICE (log entry 80): the accumulator stays LOADING until the tile's first beat. -/
def accLoadStep (p : Params) (c : Core) : Option Core :=
  match nextTile p c with
  | none => none
  | some (m, tile) =>
    if m.work.accInit != accLoad || !c.mayStart p m.uid 1 || c.opu.accs.any (fun a => a.st == .loading) then none
    else
      match (tileItems p m)[tile]?, unitRegion m 6, freeAcc c.opu with
      | some (it, t), some (n, rg), some i =>
        (match servSeg m n rg it with
         | none => none
         | some seg =>
           if !segsFull c rg.key ((loadSegs p m n rg.shape it t).map (seg + ·)) then none
           else some ({ c with opu := assign c.opu i .loading (loadVals p c m n rg.shape seg it t) m tile t }.sweep p))
      | _, _, _ => none

/-- ACC_LOAD: the accumulator of the next tile is assigned and loaded; `ecc`: what the load path's read of tile memory saw (R191). -/
def accLoadNext (s : State) (ecc : Ecc) (k : Nat) : State :=
  match accLoadStep s.params (s.dev.core k) with
  | none => s
  | some c => onEcc s k ecc (fun s => s.upd (fun d => d.setCore k c))
def execAccLoad (core : Nat) (s : State) (ecc : Ecc := .ok) : Out := onCore s core (accLoadNext s ecc)

/-! ## BEAT_ISSUE (R99, R100, R112 to R117) -/

/-- What beginning a tile gives: not yet, a command that fails (R123), or the OPU with the tile's fill. -/
inductive Begin where
  | wait
  | fails (uid : Nat)
  | fill (o : Opu) (f : Fill)

/-- The next tile begun, as far as accumulators, holds, loads, swatches and `BAR`s allow (R111, R120 to R123). -/
def beginTile (p : Params) (c : Core) : Begin :=
  match nextTile p c with
  | none => .wait
  | some (m, tile) =>
    if !c.mayStart p m.uid 1 || !swatchReady m 1 then .wait
    else
      match (tileItems p m)[tile]? with
      | none => .wait
      | some (it, t) =>
        let f (i : Nat) : Fill := ⟨m.uid, it, tile, 0, 0, i⟩
        if m.work.accInit = accLoad then
          match (List.range 4).find? (fun i => (let a := c.opu.accs.getD i Acc.zero; a.st == .loading && a.uid == m.uid && a.tile == tile)) with
          | some i => .fill { c.opu with accs := updAt (fun a => { a with st := .filling }) i c.opu.accs } (f i)
          | none => .wait
        else if m.work.accInit = accRetain then
          match heldAcc c.opu m with
          | none => .fails m.uid
          | some i => .fill { c.opu with accs := updAt (fun a => ⟨.filling, a.vals, none, m.uid, t.g, t.m0, t.n0, tile⟩) i c.opu.accs } (f i)
        else match freeAcc c.opu with
          | some i => .fill (assign c.opu i .filling [] m tile t) (f i)
          | none => .wait

/-- Sequence numbers of the j-th block of an operand step in the data run and in the scale run, each counted from its run's own origin along KDIM, for
an operand with block scales (R112, R227, R229). -/
def seqPair (p : Params) (m : Cmd) (a : Bool) (it st j : Nat) : Option (Nat × Nat) :=
  let f := feedFmt m.work a
  match unitRegion m (if a then 2 else 3), unitRegion m (if a then 4 else 5) with
  | some (n, _), some (n', _) =>
    if f.smode != 1 && f.smode != 2 then none
    else
      let x := m.desc ((m.descsOf n).headD 0)
      let y := m.desc ((m.descsOf n').getLast?.getD 0)
      let sv := { itemServ p m ((workItems p m).getD it 0) with k0 := stepStart m.work st }
      some ((x.bseq + (x.origin sv x.kdim + 32 * j) / 32) % 256, (y.bseq + y.origin sv y.kdim + j) % 256)
  | _, _ => none

/-- DETAIL of SCALE_SKEW (R270). -/
def skewDetail (port consumer data scale : Nat) : Word :=
  place (port % 32) 19 ||| place (consumer % 8) 16 ||| place (data % 256) 8 ||| place (scale % 256) 0

/-- The scale of a row for a block (R45, R59, R60). -/
def rowScale (o : Opu) (m : Cmd) (a : Bool) (tile blk i : Nat) : F32 :=
  let f := feedFmt m.work a
  match f.smode with
  | 1 => e8m0 (sideCode (o.side a) (sideKey m.uid tile (16 + blk)) 1 i)
  | 2 => bf16Scale (sideCode (o.side a) (sideKey m.uid tile (16 + blk)) 2 i)
  | 3 => bf16Scale (sideCode (o.side a) (sideKey m.uid tile 2) 2 i)
  | _ => f32One

/-- Side items that must be held before a beat of a tile: the per-tile items, and a block's scales at its last beat (R110, R116). -/
def sideReady (o : Opu) (m : Cmd) (tile blk : Nat) (lastOfBlock : Bool) : Bool :=
  [4, 5].all (fun u =>
    let sm := (feedFmt m.work (u == 4)).smode
    let held (code : Nat) : Bool := (o.sideOf u).any (fun e => e.1 == sideKey m.uid tile code)
    (tileCodes m u).all held && (!lastOfBlock || !(sm == 1 || sm == 2) || held (16 + blk)))

/-- The scale streams of both feeders have brought block x of an operand step: its numbers can be compared (R112, R135). -/
def scalesHere (p : Params) (c : Core) (m : Cmd) (tile it : Nat) (t : Serv) (st x : Nat) : Bool :=
  [4, 5].all (fun u => !hasBlocks m u || c.opu.holds m.uid (blockJob m u tile it t st x) || jobReady p c m (blockJob m u tile it t st x))

/-- The exact product of two decoded operands (R75); integer zero is +0 (R48). DESIGN CHOICE (log entry 78): a product below the FP32 subnormal range,
which R75 excepts, is rounded with RNE. -/
def opProduct (int : Bool) (x y : F32) : F32 := let z := fmul x y; if int && z == 0x80000000#32 then f32Zero else z

/-- The products of one beat summed: p₀, p₀ + p₁, or (p₀ + p₁) + (p₂ + p₃) (R114). -/
def beatSum : List F32 → F32
  | [a] => a
  | [a, b] => fadd a b
  | [a, b, c, d] => fadd (fadd a b) (fadd c d)
  | _ => f32Zero

/-- Contributions of a finished block added into an accumulator, through the scale-product registers (R97, R115, R117). -/
def addBlock (dim : Nat) (o : Opu) (m : Cmd) (tile blk acc : Nat) (bsum : List F32) : Opu :=
  let one := m.work.fa.smode == 0 && m.work.fb.smode == 0
  let sa := (List.range dim).map (rowScale o m true tile blk)
  let sb := (List.range dim).map (rowScale o m false tile blk)
  let a := o.accs.getD acc Acc.zero
  let prod := (List.range dim).flatMap (fun i => (List.range dim).map (fun j => if one then f32One else fmul (sa.getD i f32One) (sb.getD j f32One)))
  let vals := (List.range dim).flatMap (fun i => (List.range dim).map (fun j =>
    fadd (a.val dim i j) (fmul (prod.getD (i * dim + j) f32One) (bsum.getD (i * dim + j) f32Zero))))
  { o with sprod := prod, accs := updAt (fun a => { a with vals := vals }) acc o.accs }

/-- The accumulator of a tile after its last ACC add: FULL for the drain; or HELD, unless a matrix command admitted since does not continue in it, which
frees it (R119, R122, R123). -/
def heldOrFree (c : Core) (m : Cmd) (a : Acc) : Acc :=
  let b := { a with st := AccState.held, holder := some m.q }
  if c.opu.lastMat == some m.uid || c.cmds.any (fun y => claims y b) then b else Acc.zero

/-- A tile after its last ACC add. -/
def tileFilled (p : Params) (c : Core) (m : Cmd) (f : Fill) : Core :=
  let hold := m.work.accHold
  let o := c.opu
  let strip (t : List (Nat × List Byte)) : List (Nat × List Byte) := t.filter (fun e => e.1 / 2 ^ 20 != m.uid * 2 ^ 20 + f.tile)
  let c1 : Core := { c with opu := { o with
    fill := none
    accs := updAt (fun a => if hold then heldOrFree c m a else { a with st := .full, holder := none }) f.acc o.accs
    fullq := if hold then o.fullq else o.fullq ++ [f.acc]
    sideA := strip o.sideA, sideB := strip o.sideB } }
  (c1.modCmd m.uid (fun m => { m with filled := m.filled + 1 })).sweep p

/-- One beat of the tile being filled: none while an operand or side item it needs is not ready; a skewed block fails the command. DESIGN CHOICE (log
entry 79): a new block sum starts as the first beat's own result. -/
def doBeat (p : Params) (c : Core) (f : Fill) : Option Core :=
  match c.cmd f.uid with
  | none => none
  | some m =>
    match (tileItems p m)[f.tile]? with
    | none => none
    | some (it, t) =>
      let w := m.work
      let dim := p.opuDim
      let spc := spcOf w.fa.fmt w.fb.fmt
      let kb := f.beat * spc
      let k0 := stepStart w f.step
      let j := kb / 32
      let blk := k0 / 32 + j
      let firstOf := kb % 32 == 0
      let lastOf := (kb + spc) % 32 == 0
      let elems (a : Bool) : List (List FeedElem) :=
        (List.range dim).map (fun i => (List.range spc).map (fun u => feedElem p c m a it f.step f.tile t i (k0 + kb + u)))
      let ea := elems true
      let eb := elems false
      let ready (a : Bool) (es : List (List FeedElem)) : Bool :=
        match unitRegion m (if a then 2 else 3) with
        | some (_, rg) => segsFull c rg.key (((es.flatten).filterMap (·.seg)).eraseDups)
        | none => false
      let skew := [true, false].findSome? (fun a => match seqPair p m a it f.step j with
        | some (x, y) => if x != y then some (if a then 0 else 1, x, y) else none
        | none => none)
      if !(ready true ea && ready false eb && sideReady c.opu m f.tile blk lastOf && (!firstOf || scalesHere p c m f.tile it t f.step j)) then none
      else match (if firstOf then skew else none) with
      | some (u, x, y) => some (c.failCmd m.uid .scaleSkew (skewDetail 0 u x y))
      | none =>
        let int := w.fa.fmt.isInt
        let bsum := (List.range dim).flatMap (fun i => (List.range dim).map (fun j =>
          let ps := (List.range spc).map (fun u =>
            opProduct int (((ea.getD i []).getD u ⟨none, f32Zero⟩).val) (((eb.getD j []).getD u ⟨none, f32Zero⟩).val))
          let b := beatSum ps
          if firstOf then b else fadd (c.opu.bsum.getD (i * dim + j) f32Zero) b))
        let o1 : Opu := { c.opu with bsum := bsum }
        let c1 := { c with opu := if lastOf then addBlock dim o1 m f.tile blk f.acc bsum else o1 }
        let next (g : Fill) : Core := { c1 with opu := { c1.opu with fill := some g } }.sweep p
        some (if kb + spc < stepBlocks w f.step * 32 then next { f with beat := f.beat + 1 }
          else if f.step + 1 < stepCount w then next { f with step := f.step + 1, beat := 0 }
          else tileFilled p c1 m f)

/-- BEAT_ISSUE: the next beat of the M engine, beginning a tile when none is being filled. -/
def beatStep (s : State) (ecc : Ecc) (k : Nat) : State :=
  let c := s.dev.core k
  let run (c : Core) (f : Fill) : State :=
    match doBeat s.params c f with
    | none => s
    | some _ =>
      onEcc s k ecc (fun s => s.upd (fun d =>
        match doBeat s.params c f, c.cmd f.uid with
        | some c1, some m => countUsage (d.setCore k c1) m.ctx (fun u =>
            if (c1.cmd f.uid).any (fun m => m.fail.isSome) then u else { u with mBeats := u.mBeats + 1 })
        | _, _ => d))
  match c.opu.fill with
  | some f => run c f
  | none =>
    match beginTile s.params c with
    | .wait => s
    | .fails uid => s.upd (fun d => failAt d k uid .badParam 0)
    | .fill o f => run { c with opu := { o with fill := some f } } f
def execBeatIssue (core : Nat) (ecc : Ecc) (s : State) : Out := onCore s core (beatStep s ecc)

/-! ## DRAIN_ROW_READ (R127 to R132, R569) -/

/-- One drained row converted: element codes, block scale codes, statistics and draw counter. -/
structure RowOut where
  codes : List Nat
  scales : List Nat
  stats : Stats
  ctr : Nat

/-- One element of a block narrowed, with its overflow event. -/
def convElem (fo : FDesc) (store : List Byte) (zp sel : Nat) (inf : Bool) (hlo : Int) (acc : List Nat × Stats × Nat) (e : F32 × FVal) :
    List Nat × Stats × Nat :=
  let c := encodeElem fo store zp sel (Config.random16 acc.2.2) e.2
  let ovf := inf || c.ovf
  (acc.1 ++ [if inf then 0 else c.code], acc.2.1.observe hlo e.1 ovf, if fo.rnd = 2 then acc.2.2 + 1 else acc.2.2)

/-- The valid elements of a row converted under the output descriptor (R63 to R70, R91, R92). -/
def convRow (fo : FDesc) (store : List Byte) (zp sel : Nat) (rowScale : F32) (hlo : Int) (st : Stats) (ctr : Nat) (xs : List F32) : RowOut :=
  if fo.smode = 1 then
    let blocks := (List.range (ceilDiv xs.length 32)).map (fun b => (xs.drop (32 * b)).take 32)
    blocks.foldl (fun (r : RowOut) bx =>
      let (code, ex) := blockScale (fo.fmt.ffmt.getD .e4m3) bx
      let (cs, st, ctr) := (bx.map (fun x => (x, match ex with | some e => FVal.scale2 (-e) (f32Val x) | none => f32Val x))).foldl
        (convElem fo store zp sel ex.isNone hlo) ([], r.stats, r.ctr)
      ⟨r.codes ++ cs, r.scales ++ [code], st, ctr⟩) ⟨[], [], st, ctr⟩
  else
    let ys := xs.map (fun x => (x, f32Val (if fo.smode = 3 then fdiv x rowScale else x)))
    let (cs, st, ctr) := ys.foldl (convElem fo store zp sel false hlo) ([], st, ctr)
    ⟨cs, [], st, ctr⟩

/-- Codes packed little-endian at a format's width, a last lone nibble padded with 0 (R39). -/
def packCodes (bits : Nat) : List Nat → List Byte
  | [] => []
  | [c] => if bits = 4 then [BitVec.ofNat 8 (c % 16)] else leBytes (bits / 8) c
  | c :: c' :: cs => if bits = 4 then BitVec.ofNat 8 (c % 16 + 16 * (c' % 16)) :: packCodes bits cs
    else leBytes (bits / 8) c ++ packCodes bits (c' :: cs)

/-- Bytes of a tile's row slots and of its scale area (R569). -/
def slotBytes (sh : RegRec) : Nat := sh.nb * sh.bytes
def areaBytes (p : Params) (m : Cmd) : Nat := if m.work.fo.smode = 1 then p.opuDim * p.opuDim / 32 else 0
def tileBytes (p : Params) (m : Cmd) (sh : RegRec) : Nat := p.opuDim * slotBytes sh + areaBytes p m

/-- The drain's region. -/
def drainRegion (m : Cmd) : Option (Nat × Region) := m.regionBy (fun r => r.prod == 7)

/-- The drain begins the accumulator filled first, when its side items are held (R120, R127). -/
def beginDrain (c : Core) : Option Drain :=
  match c.opu.drain with
  | some x => some x
  | none =>
    match c.opu.fullq.head? with
    | none => none
    | some i =>
      let a := c.opu.accs.getD i Acc.zero
      match c.cmd a.uid with
      | none => none
      | some m =>
        if (tileCodes m 8).all (fun code => c.opu.sideD.any (fun e => e.1 == sideKey m.uid a.tile code)) then
          some ⟨a.uid, i, 0, a.m0, a.n0, a.tile, 0, []⟩
        else none

/-- Tile byte at which the drain's step `row` writes, and how many bytes of the tile it passes: a row slot, or a bank word of the scale
area after the last row. -/
def stepSpan (p : Params) (m : Cmd) (sh : RegRec) (row : Nat) : Nat × Nat :=
  let at' := row * slotBytes sh
  (at', min (slotBytes sh) (tileBytes p m sh - at'))

/-- The segment of a tile byte ready for the drain: the one being filled, or the next one begun when it is FREE. -/
def drainSeg (p : Params) (c : Core) (m : Cmd) (n : Nat) (rg : Region) (x : Drain) : Option (Core × Nat) :=
  let sh := rg.shape
  let (at', _) := stepSpan p m sh x.row
  if at' % sh.segb = 0 then
    let g := c.ring rg.key
    if c.producerTurn p m.uid rg.key && g.canBegin then
      let last := decide (tileBytes p m sh ≤ (at' / sh.segb + 1) * sh.segb)
      let c1 := (c.beginSeg m.uid n { Seg.zero with m0 := x.m0, n0 := x.n0, k0 := m.work.kbeg, run := x.tile, last := last }).stirred sh
      some (if x.row = 0 then c1.modCmd m.uid (fun m => { m with tileSegs := m.tileSegs ++ [g.prod] }) else c1, g.prod)
    else none
  else some (c, (c.ring rg.key).prod - 1)

/-- The scale-area bytes of one step, from the codes gathered. -/
def areaWrites (p : Params) (m : Cmd) (sh : RegRec) (x : Drain) : List (Nat × Nat) :=
  let (at', len) := stepSpan p m sh x.row
  let lo := at' - p.opuDim * slotBytes sh
  x.codes.filter (fun e => decide (lo ≤ e.1) && decide (e.1 < lo + len))

/-- One step of the drain: a row read, converted, observed and written, or a word of the scale area. The result is the core with the
draw counter; none while a slot is missing. -/
def drainStep (p : Params) (c0 : Core) (ctr : Nat) (x0 : Drain) : Option (Core × Nat) :=
  match c0.cmd x0.uid with
  | none => none
  | some m =>
    match drainRegion m with
    | none => none
    | some (n, rg) =>
      match drainSeg p c0 m n rg x0 with
      | none => none
      | some (c, seg) =>
        let sh := rg.shape
        let w := m.work
        let dim := p.opuDim
        let x := if x0.row = 0 then { x0 with seg := seg } else x0
        let (at', len) := stepSpan p m sh x.row
        let ringByte (off : Nat) : Nat := ringAt sh x.seg off
        let isRow := decide (x.row < dim)
        let acc := c.opu.accs.getD x.acc Acc.zero
        let nv := min dim (w.next - x.n0)
        let valid := isRow && decide (x.m0 + x.row < w.mext) && decide (0 < nv)
        let zp := if w.fo.zprow && w.fo.fmt.isInt then sideCode c.opu.sideD (sideKey m.uid x.tile 0) 1 x.row else w.fo.zp
        let rs := if w.fo.smode = 3 then bf16Scale (sideCode c.opu.sideD (sideKey m.uid x.tile 2) 2 x.row) else f32One
        let r : RowOut := if valid then
            convRow w.fo [] zp 0 rs (hloInt w.hlo) (statsOf m.stats) ctr ((List.range nv).map (fun j => acc.val dim x.row j))
          else ⟨[], [], statsOf m.stats, ctr⟩
        let bytes := packCodes w.fo.fmt.bits r.codes
        let area := if isRow then [] else areaWrites p m sh x
        let off := at' % sh.segb
        let areaAt (e : Nat × Nat) : Nat := dim * slotBytes sh + e.1
        let reach := if valid then off + bytes.length else (area.map (fun e => off + (areaAt e - at') + 1)).foldl max 0
        let c1 := c.tmWrite p sh false 0 (ringByte at') bytes
        let c2 := area.foldl (fun c e => c.tmWrite p sh false 0 (ringByte (areaAt e)) [BitVec.ofNat 8 e.2]) c1
        let c3 := (c2.modRing rg.key (fun g => g.modSeg seg (fun s => { s with valid := max s.valid reach }))).modCmd m.uid (fun m =>
          if valid then { m with stats := r.stats.record w.hlo } else m)
        let x' := { x with
          row := x.row + 1
          codes := x.codes ++ (List.range r.scales.length).map (fun b => (x.row * (dim / 32) + b, r.scales.getD b 0)) }
        let ovf := decide (tileBytes p m sh ≤ at' + len)
        let full := ovf || (at' + len) % sh.segb == 0
        let c4 := if full then (c3.modRing rg.key (fun g => g.markFull seg)).stirred sh else c3
        let accs := if x.row + 1 = dim then updAt (fun _ => Acc.zero) x.acc c4.opu.accs
          else if x.row = 0 then updAt (fun a => { a with st := .draining }) x.acc c4.opu.accs else c4.opu.accs
        let fullq := if x.row = 0 then c4.opu.fullq.filter (· != x.acc) else c4.opu.fullq
        let sideD := if ovf then c4.opu.sideD.filter (fun e => e.1 / 2 ^ 20 != m.uid * 2 ^ 20 + x.tile) else c4.opu.sideD
        let c5 : Core := { c4 with opu := { c4.opu with accs := accs, fullq := fullq, sideD := sideD, drain := if ovf then none else some x' } }
        some ((if ovf then c5.modCmd m.uid (fun m => { m with drained := m.drained + 1 }) else c5).sweep p, r.ctr)

/-- DRAIN_ROW_READ: the drain's next row, or word of the scale area. -/
def drainRow (s : State) (ecc : Ecc) (k : Nat) : State :=
  let c := s.dev.core k
  match beginDrain c with
  | none => s
  | some x =>
    match drainStep s.params c s.dev.freeCtr x with
    | none => s
    | some (c1, ctr) => onEcc s k ecc (fun s => s.upd (fun d => { d with freeCtr := ctr }.setCore k c1))
def execDrainRowRead (core : Nat) (ecc : Ecc) (s : State) : Out := onCore s core (drainRow s ecc)

end Sys2Proof.Machine
end

