-- ==== Sys2Proof/Machine/Fabric.lean ====
section
/-! DEFINITION. The vector fabric at work: port bindings against a plane and port accesses (R168 to R171, R200, R202, R229, R285), one
tick of the grid (R140, R141, R150 to R163, R174, R176, R178), kernel runs (R186, R187, R286) and `FAB_LOAD` (R183 to R185). -/

namespace Sys2Proof.Machine

/-! ## Port uses -/

/-- A port as an edge record of the plane uses it. -/
structure PUse where
  port : Nat
  out : Bool
  conv : Bool
  b : PortBind

/-- The use of a port by an edge record's input or output path. -/
def portUse (m : Cmd) (w : Word) (out : Bool) : PUse :=
  let port := if out then Edge.outPort w else Edge.inPort w
  ⟨port, out, if out then Edge.outConv w else Edge.inConv w, portBind (m.block.getD []) port⟩

/-- Every port use of a plane. -/
def portUses (g : Img) (m : Cmd) : List PUse :=
  g.edges.flatMap (fun w =>
    (if Edge.inKind w = 1 then [portUse m w false] else []) ++ (if Edge.outKind w = 1 then [portUse m w true] else []))

namespace PUse
def key (u : PUse) : Nat := 2 * u.port + u.out.toNat
/-- Bits of a position (R202). -/
def bits (u : PUse) : Nat := if u.conv then u.b.fdesc.fmt.bits else 32
/-- Position i, in elements from the start of the region's stream. -/
def place (u : PUse) (i : Nat) : Nat := u.b.off + i * u.b.stride
/-- Byte of position i. -/
def byte (u : PUse) (i : Nat) : Nat := u.place i * u.bits / 8
/-- Bytes of a block scale of the port, 0 when it has none. -/
def scaleBytes (u : PUse) : Nat :=
  if !u.conv then 0 else if u.b.fdesc.smode = 1 then 1 else if u.b.fdesc.smode = 2 && !u.out then 2 else 0
/-- Number of the scale that goes with position i: of 32 consecutive stored elements for an input port, of 32 consecutive elements of the port itself
for an output port. DESIGN CHOICE (log entry 77): the spec gives the scale codes of an output port no place in their SREGION; the code of the port's
block j lies at byte OFF mod STRIDE + (OFF / STRIDE / 32 + j) × STRIDE. -/
def scaleNo (u : PUse) (i : Nat) : Nat :=
  if u.out then u.b.off % u.b.stride + (u.b.off / u.b.stride / 32 + i / 32) * u.b.stride else u.place i / 32
end PUse

/-- The port bindings of a command against its plane's edge records (R186, R285). -/
def planePortsOk (g : Img) (m : Cmd) : Bool :=
  (portUses g m).all (fun u =>
    let role (n : Nat) : Bool := match m.region n with
      | some r => if u.out then r.shape.prod == 9 else r.shape.consumes 9
      | none => false
    u.b.en && role u.b.region &&
    (!u.conv || (u.b.fdesc.ok (if u.out then .fabricOut else .fabricIn) && (u.scaleBytes == 0 || role u.b.sregion))))

/-! ## Where positions lie -/

/-- First segment of the present run in a region that the fabric ports read (R202, R286). -/
def inBase (m : Cmd) (n : Nat) (r : Region) (run : Nat) : Option Nat :=
  if r.shape.prod = 7 then m.tileSegs[run]? else r.base.map (fun b => b + run * servSegs m n r.shape)

/-- First segment of the present run in a region that the fabric ports write: where its first access began, else the ring's next segment. -/
def outBase (p : Params) (c : Core) (m : Cmd) (n : Nat) (r : Region) : Option Nat :=
  match c.fab.baseSeg.find? (fun e => e.1 == n) with
  | some e => some e.2
  | none => if c.producerTurn p m.uid r.key then some (c.ring r.key).prod else none

/-- Number of the command's present kernel run. -/
def curRun (m : Cmd) : Nat := m.krun - 1

/-- The base of a region for a port use. -/
def useBase (p : Params) (c : Core) (m : Cmd) (u : PUse) (n : Nat) : Option (Nat × Region) :=
  (m.region n).bind (fun r => (if u.out then outBase p c m n r else inBase m n r (curRun m)).map (fun b => (b, r)))

/-- An input byte is ready: its segment is FULL. An output byte is ready: its segment is FILLING by the ports, or FREE with every segment
before it (R198, R202). -/
def byteReady (p : Params) (c : Core) (m : Cmd) (u : PUse) (n off : Nat) : Bool :=
  match useBase p c m u n with
  | none => false
  | some (b, r) =>
    let g := c.ring r.key
    let seg := b + off / r.shape.segb
    if u.out then
      decide (seg < g.prod) ||
      (decide (seg < g.prod + r.shape.ns) && c.producerTurn p m.uid r.key &&
        (List.range (seg + 1 - g.prod)).all (fun i => (g.seg (g.prod + i)).st == .free))
    else g.isFull seg

/-- The access of position i can be served (R171, R202); positions at or beyond COUNT need nothing. -/
def posReady (p : Params) (c : Core) (m : Cmd) (u : PUse) (i : Nat) : Bool :=
  decide (u.b.count ≤ i) ||
  (byteReady p c m u u.b.region (u.byte i) && (u.scaleBytes == 0 || byteReady p c m u u.b.sregion (u.scaleNo i * u.scaleBytes)))

/-- Positions a port has passed. -/
def Fab.pos (f : Fab) (u : PUse) : Nat := Tbl.get 0 u.key f.portPos

/-- The accesses of a tick, or of a pair of ticks, can all be served. -/
def servable (p : Params) (c : Core) (m : Cmd) : List PUse → List Nat → Bool
  | [], _ => true
  | u :: us, before => posReady p c m u (c.fab.pos u + (before.filter (· == u.key)).length) && servable p c m us (before ++ [u.key])

/-! ## Reading and writing positions -/

/-- Swatch store of a converting port (R170). -/
def portStore (c : Core) (u : PUse) : List Byte := c.stores.getD (2 + u.b.swst) []

/-- A free item of a port at a position: the manual gives no place for a port's zero points (code 0), selectors (1) and row scales (2). -/
def freeItem (m : Cmd) (u : PUse) (code i : Nat) : Nat := Config.portItem code m.body u.port i

/-- Zero point, selector and row scale of a port at a position. -/
def portZp (m : Cmd) (u : PUse) (i : Nat) : Nat := if u.b.fdesc.zprow then freeItem m u 0 i % 256 else u.b.fdesc.zp
def portSel (m : Cmd) (u : PUse) (i : Nat) : Nat := if u.b.fdesc.swrow then freeItem m u 1 i % 16 else u.b.fdesc.swsel
def portScale (m : Cmd) (u : PUse) (i : Nat) : F32 := if u.b.fdesc.smode = 3 then bf16Scale (freeItem m u 2 i % 65536) else f32One

/-- Sequence number of the block, or of the scale, whose byte lies `off` bytes into the serving of run `run` in region n (R199, R227). -/
def portSeq (p : Params) (m : Cmd) (n : Nat) (r : Region) (run off : Nat) (seg : Seg) : Nat :=
  let sh := r.shape
  match segPlace m n sh (off / sh.segb) with
  | some (at', i) =>
    let x := m.desc ((m.descsOf n).getD at' 0)
    let s := (servings p m sh).getD run ⟨0, 0, 0, 0⟩
    let o := i * sh.segb + off % sh.segb
    (x.bseq + (blocksOf x s o (o + 1)).headD (blockAt x s 0)) % 256
  | none => seg.bseq

/-- What an input access gives: a word, or a skewed block. -/
inductive InWord where
  | word (w : BitVec 32)
  | skew (data scale : Nat)

/-- The word at position i of an input port (R170, R229). -/
def readPos (p : Params) (c : Core) (m : Cmd) (u : PUse) (i : Nat) : InWord :=
  match useBase p c m u u.b.region with
  | none => .word 0
  | some (b, r) =>
    let sh := r.shape
    let off := u.byte i
    let code := codeAt p c sh false 0 b off (u.place i) u.bits
    let seg := (c.ring r.key).seg (b + off / sh.segb)
    if !u.conv then .word (BitVec.ofNat 32 code)
    else
      let fd := u.b.fdesc
      let first := i == 0 || u.scaleNo i != u.scaleNo (i - 1)
      let so := u.scaleNo i * u.scaleBytes
      -- the scale's code, and the numbers of the data and of the scale
      let sc : Option (Nat × Nat × Nat) := if u.scaleBytes = 0 then none else
        (useBase p c m u u.b.sregion).map (fun e =>
          (codeAt p c e.2.shape false 0 e.1 so 0 (8 * u.scaleBytes), portSeq p m u.b.region r (curRun m) off seg,
           portSeq p m u.b.sregion e.2 (curRun m) so ((c.ring e.2.key).seg (e.1 + so / e.2.shape.segb))))
      match sc.filter (fun e => first && e.2.1 != e.2.2) with
      | some e => .skew e.2.1 e.2.2
      | none =>
        if seg.valid ≤ off % sh.segb then .word f32Zero
        else
          let v := decodeElem fd.fmt (portStore c u) code (portZp m u i) (portSel m u i)
          .word (match fd.smode, sc with
            | 1, some e => fmul (e8m0 e.1) v
            | 2, some e => fmul (bf16Scale e.1) v
            | 3, _ => fmul (portScale m u i) v
            | _, _ => v)

/-- Segments of an output region begun up to the one that holds byte `off` (R198). -/
def claim (p : Params) (c : Core) (m : Cmd) (u : PUse) (n off : Nat) : Core :=
  match useBase p c m u n with
  | none => c
  | some (b, r) =>
    let sv := (drainServs p m).getD (curRun m) ⟨0, 0, 0, 0⟩
    let need := b + off / r.shape.segb + 1 - (c.ring r.key).prod
    let c1 : Core := { c with fab := { c.fab with baseSeg := Tbl.set n b c.fab.baseSeg } }
    (List.range need).foldl (fun c _ => (c.beginSeg m.uid n { Seg.zero with m0 := sv.m0, n0 := sv.n0, k0 := sv.k0, run := curRun m }).stirred r.shape) c1

/-- Bytes written at a byte of the run in an output region; the segment's valid count covers them. -/
def putRun (p : Params) (c : Core) (m : Cmd) (u : PUse) (n off : Nat) (bs : List Byte) : Core :=
  match useBase p c m u n with
  | none => c
  | some (b, r) =>
    let sh := r.shape
    (c.tmWrite p sh false 0 (ringAt sh b off) bs).modRing r.key (fun g =>
      g.modSeg (b + off / sh.segb) (fun s => { s with valid := max s.valid (off % sh.segb + bs.length) }))

/-- An element code written at position i. -/
def putElem (p : Params) (c : Core) (m : Cmd) (u : PUse) (i code : Nat) : Core :=
  if u.bits = 4 then
    match useBase p c m u u.b.region with
    | none => c
    | some (b, r) =>
      let old := codeAt p c r.shape false 0 b (u.byte i) 0 8
      putRun p c m u u.b.region (u.byte i) (leBytes 1 (putField 4 (u.place i % 2) code old))
  else putRun p c m u u.b.region (u.byte i) (leBytes (u.bits / 8) code)

/-- FP32 words converted and written from position i on, with their statistics; a SMODE 1 block writes its scale code too (R64, R170). -/
def putWords (p : Params) (c : Core) (m : Cmd) (u : PUse) (i ctr : Nat) (xs : List F32) : Core × Nat :=
  let fd := u.b.fdesc
  let w := m.work
  let st := match c.cmd m.uid with | some y => statsOf y.portStats | none => statsOf m.portStats
  let r := convRow fd (portStore c u) (portZp m u i) (portSel m u i) (portScale m u i) (hloInt w.hlo) st ctr xs
  let ca := (List.zip (List.range r.codes.length) r.codes).foldl (fun c e => putElem p c m u (i + e.1) e.2) c
  let cb := (r.scales.take 1).foldl (fun c s => putRun p c m u u.b.sregion (u.scaleNo i) [BitVec.ofNat 8 s]) ca
  (cb.modCmd m.uid (fun y => { y with portStats := r.stats.record w.hlo }), r.ctr)

/-- The block a SMODE 1 output port has gathered is written. -/
def flushGather (p : Params) (c : Core) (m : Cmd) (u : PUse) (ctr : Nat) : Core × Nat :=
  let xs := Tbl.get [] u.key c.fab.gather
  if xs.isEmpty then (c, ctr)
  else
    let (c1, k) := putWords p c m u (c.fab.pos u - xs.length) ctr xs
    ({ c1 with fab := { c1.fab with gather := Tbl.del u.key c1.fab.gather } }, k)

/-- A captured word written to the next position of its port; beyond COUNT it is discarded (R169, R170). -/
def writePos (p : Params) (c : Core) (m : Cmd) (u : PUse) (w : BitVec 32) (ctr : Nat) : Core × Nat :=
  let i := c.fab.pos u
  if u.b.count ≤ i then (c, ctr)
  else
    let ca := claim p c m u u.b.region (u.byte i)
    let cb := if u.scaleBytes = 0 then ca else claim p ca m u u.b.sregion (u.scaleNo i)
    let cc : Core := { cb with fab := { cb.fab with portPos := Tbl.set u.key (i + 1) cb.fab.portPos } }
    if !u.conv then (putElem p cc m u i w.toNat, ctr)
    else if u.scaleBytes = 0 then putWords p cc m u i ctr [w]
    else
      let xs := Tbl.get [] u.key cc.fab.gather ++ [w]
      let cd : Core := { cc with fab := { cc.fab with gather := Tbl.set u.key xs cc.fab.gather } }
      if (i + 1) % 32 = 0 ∨ u.b.count ≤ i + 1 then flushGather p cd m u ctr else (cd, ctr)

/-! ## Marks (R200) -/

/-- The run bytes at which a port stands in a region: of its next position not yet written or read, none past its count. -/
def frontIn (f : Fab) (u : PUse) (n : Nat) : List (Option Nat) :=
  let i := f.pos u - (if u.out then (Tbl.get [] u.key f.gather).length else 0)
  let at' (off : Nat) : List (Option Nat) := [if u.b.count ≤ i then none else some off]
  (if u.b.region = n then at' (u.byte i) else []) ++ (if u.scaleBytes != 0 && u.b.sregion = n then at' (u.scaleNo i * u.scaleBytes) else [])

/-- The byte after the last one that a port takes from a region. -/
def endIn (u : PUse) (n : Nat) : Nat :=
  if u.b.count = 0 then 0
  else
    let i := u.b.count - 1
    max (if u.b.region = n then u.byte i + 1 else 0) (if u.scaleBytes != 0 && u.b.sregion = n then u.scaleNo i * u.scaleBytes + 1 else 0)

/-- Segments that every port bound to a region has passed: done for the inputs, FULL for the outputs; while every output port is past its
count the newest segment waits for the end of the run. -/
def markPassed (c : Core) (m : Cmd) (us : List PUse) : Core :=
  m.regions.foldl (fun c e =>
    let n := e.1
    let key := e.2.key
    let bound (out : Bool) : List PUse := us.filter (fun u => u.out == out && (u.b.region == n || (u.scaleBytes != 0 && u.b.sregion == n)))
    let fronts (out : Bool) : List (Option Nat) := (bound out).flatMap (fun u => frontIn c.fab u n)
    let low (out : Bool) : Option Nat := match (fronts out).filterMap id with | [] => none | x :: xs => some (xs.foldl min x)
    let segb := e.2.shape.segb
    let c1 := if (bound false).isEmpty then c else
      match inBase m n e.2 (curRun m) with
      | some b =>
        let upTo := match low false with
          | some off => off / segb
          | none => ceilDiv (((bound false).map (fun u => endIn u n)).foldl max 0) segb
        c.doneTo key 9 (b + upTo) (e.2.shape.ns + 1)
      | none => c
    match c1.fab.baseSeg.find? (fun x => x.1 == n) with
    | some x =>
      let g := c1.ring key
      let upTo := match low true with | some off => x.2 + off / segb | none => g.prod - 1
      (List.range e.2.shape.ns).foldl (fun c i =>
        let s := g.prod - e.2.shape.ns + i
        if x.2 ≤ s ∧ s < min upTo g.prod ∧ ((c.ring key).seg s).st = SegState.filling then
          (c.modRing key (fun g => g.markFull s)).stirred e.2.shape else c) c1
    | none => c1) c

/-! ## The grid (R153 to R163) -/

/-- Region q is clocked in tick t (R141). -/
def clocked (g : Img) (q t : Nat) : Bool := !g.slow q || t % 2 == 0
/-- Slot that issues in tick t. -/
def slotAt (g : Img) (q t : Nat) : Nat := if g.slow q then t / 2 % max 1 (g.period / 2) else t % max 1 g.period
/-- Schedule length of a region. -/
def schedLen (g : Img) (q : Nat) : Nat := if g.slow q then g.period / 2 else g.period

/-- A region whose clock is gated for the run (R178). -/
def gated (g : Img) (q : Nat) : Bool :=
  (List.zip (List.range g.cells.length) g.cells).all (fun e =>
    g.region (e.1 / 16) != q || (List.range (schedLen g q)).all (fun s => (e.2.slot s).opc == opNop)) &&
  (List.zip (List.range g.edges.length) g.edges).all (fun e => g.edgeRegion e.1 != q || Edge.off e.2)

namespace Fab
def cellSt (f : Fab) (i : Nat) : CellSt := f.cells.getD i CellSt.zero
def edgeSt (f : Fab) (e : Nat) : EdgeSt := f.edges.getD e EdgeSt.zero

/-- The word that cell i drives out of side d; `fuel` bounds its pass-throughs (R155, R156). -/
def outWord (g : Img) (f : Fab) : Nat → Nat → Nat → FWord
  | 0, _, _ => .empty
  | n + 1, i, d =>
    match osel (g.cell i).route d with
    | 0 => (f.cellSt i).out
    | 7 => .empty
    | o =>
      let s := o - 1
      if 0 < wreg (g.cell i).route s then ((f.cellSt i).wires.getD s []).getLast?.getD .empty
      else match neighbour g.rows i s with
        | some j => outWord g f n j (opposite s)
        | none => (f.edgeSt (g.edgeNo s (if s % 2 = 0 then i % 16 else i / 16))).drive

/-- The word on the wire into cell i from side d, before its wire registers. -/
def rawWord (g : Img) (f : Fab) (i d : Nat) : FWord :=
  match neighbour g.rows i d with
  | some j => f.outWord g 4 j (opposite d)
  | none => (f.edgeSt (g.edgeNo d (if d % 2 = 0 then i % 16 else i / 16))).drive

/-- The word a cell reads from side d. -/
def inWord (g : Img) (f : Fab) (i d : Nat) : FWord :=
  if 0 < wreg (g.cell i).route d then ((f.cellSt i).wires.getD d []).getLast?.getD .empty else f.rawWord g i d

/-- The word that arrives for the express register of cell i on lane l (R155, R157). -/
def laneWord (g : Img) (f : Fab) (i l : Nat) : FWord :=
  match laneFrom g.rows i l with
  | none => .empty
  | some j =>
    match xsel (g.cell j).route l with
    | 1 => (f.cellSt j).out
    | 2 => (f.cellSt j).exps.getD l .empty
    | _ => .empty

/-- What leaves side d of cell i is known to be empty whatever the registers hold. DESIGN CHOICE (log entry 83): of the second tick of a pair only
such captures count as known to be empty at the check (R171). -/
def knownEmpty (g : Img) : Nat → Nat → Nat → Bool
  | 0, _, _ => false
  | n + 1, i, d =>
    match osel (g.cell i).route d with
    | 0 => false
    | 7 => true
    | o =>
      let s := o - 1
      if 0 < wreg (g.cell i).route s then false
      else match neighbour g.rows i s with
        | some j => knownEmpty g n j (opposite s)
        | none => Edge.inKind (g.edges.getD (g.edgeNo s (if s % 2 = 0 then i % 16 else i / 16)) 0) == 0
end Fab

/-! ### Faults (R270) -/

def phaseDetail (where_ src expTag got tick : Nat) : Word :=
  place where_ 55 ||| place (src % 8) 52 ||| place (expTag % 4) 50 ||| place (got % 4) 48 ||| place (tick % 2 ^ 48) 0
def cellWhere (i : Nat) : Nat := i / 16 * 16 + i % 16
def edgeWhere (side i : Nat) : Nat := 256 + side * 64 + i % 16

/-- The tag expected of a word of declared age `lat` in tick t (R161). -/
def expected (t lat : Nat) : Nat := (t + 16 - lat) % 4

/-- What the issues of a tick gather: the first fault, the draw counter, results by cell, carry-outs by cell. -/
structure TickAcc where
  fault : Option Word
  ctr : Nat
  dues : List (Nat × Due)
  carry : List (Nat × Bool)

def TickAcc.flag (a : TickAcc) (w : Option Word) : TickAcc := { a with fault := match a.fault with | some x => some x | none => w }

/-- One operand of cell i: its word, whether it is empty, and a tag fault. -/
def operand (g : Img) (f : Fab) (t i k : Nat) (s : Nat × Nat) : Nat × Bool × Option Word :=
  let st := f.cellSt i
  let wire (w : FWord) : Nat × Bool × Option Word :=
    if !w.full then (0, true, none)
    else if w.tag.toNat = expected t s.2 then (w.w.toNat, false, none)
    else (w.w.toNat, false, some (phaseDetail (cellWhere i) k (expected t s.2) w.tag.toNat t))
  if s.1 < 4 then wire (f.inWord g i s.1)
  else if s.1 < 8 then wire (st.exps.getD (s.1 - 4) .empty)
  else if s.1 < 12 then ((st.regs.getD (s.1 - 8) 0).toNat, false, none)
  else match s.1 with
    | 12 => ((g.cell i).k0.toNat, false, none)
    | 13 => ((g.cell i).k1.toNat, false, none)
    | 14 => (st.out.w.toNat, false, none)
    | _ => (0, false, none)

/-- The three operands of an instruction, whether any is empty, and the first tag fault. -/
def operands (g : Img) (f : Fab) (t i : Nat) (x : FIns) : List Nat × Bool × Option Word :=
  let os := (List.zip (List.range 3) x.srcs).map (fun e => operand g f t i e.1 e.2)
  (os.map (·.1), os.any (fun o => o.2.1), os.findSome? (fun o => o.2.2))

/-- A result due after its latency (R153, R154): tagged with its issue tick. -/
def dueOf (g : Img) (t i : Nat) (x : FIns) (empty : Bool) (w : Nat) : Due :=
  let k := latency x.opc * (if g.slow (g.region (i / 16)) then 2 else 1)
  ⟨t + k, t, ⟨BitVec.ofNat 32 w, BitVec.ofNat 2 t, !empty⟩, x.outen, if 4 ≤ x.dst then some (x.dst - 4) else none⟩

/-- Cell i issues its slot's instruction, unless it is `NOP` or `WMUX`. -/
def issueCell (g : Img) (f : Fab) (stores : List (List Byte)) (t : Nat) (a : TickAcc) (i : Nat) : TickAcc :=
  let q := g.region (i / 16)
  let x := (g.cell i).slot (slotAt g q t)
  if !clocked g q t || x.opc == opNop || x.opc == opWmux then a
  else
    let (vs, empty, bad) := operands g f t i x
    let a1 := a.flag bad
    let west := if i % 16 = 0 then none else (a.carry.find? (fun e => e.1 == i - 1)).map (·.2)
    let head := x.aux.testBit 1
    let a2 := if x.carries && !head && west.isNone then a1.flag (some (phaseDetail (cellWhere i) 3 0 0 t)) else a1
    let cin := if head then x.aux.testBit 0 else west.getD false
    let (w, cout, ctr) := if empty then (0, Config.emptyCarry x.opc vs cin, a2.ctr)
      else cellOp x (g.table (i % 16)) stores cin a2.ctr (vs.getD 0 0) (vs.getD 1 0) (vs.getD 2 0)
    { a2 with ctr := ctr, dues := a2.dues ++ [(i, dueOf g t i x empty w)], carry := if x.carries then a2.carry ++ [(i, cout)] else a2.carry }

/-- A quad issues `WMUX` (R151): its leader is cell `lead`. -/
def issueQuad (g : Img) (f : Fab) (t : Nat) (a : TickAcc) (lead : Nat) : TickAcc :=
  let q := g.region (lead / 16)
  let mem := [lead, lead + 1, lead + 16, lead + 17]
  let ins (i : Nat) : FIns := (g.cell i).slot (slotAt g q t)
  let issues := mem.map (fun i => (ins i).opc == opWmux)
  if !clocked g q t || !issues.contains true then a
  else if issues.contains false then a.flag (some (phaseDetail (cellWhere lead) 4 0 0 t))
  else
    let os := mem.map (fun i => operands g f t i (ins i))
    let a1 := os.foldl (fun a o => a.flag o.2.2) a
    let reg (i r : Nat) : Nat := ((f.cellSt i).regs.getD r 0).toNat
    let cands := (List.zip mem os).flatMap (fun e => e.2.1 ++ [reg e.1 ((ins e.1).aux % 4)])
    let x := ins lead
    let pick := cands.getD (reg lead (x.aux / 4 % 4) % 16) 0
    let dst := mem.getD (x.aux / 16 % 4) lead
    { a1 with dues := a1.dues ++ [(dst, dueOf g t dst { x with outen := true, dst := 0 } (os.any (fun o => o.2.1)) pick)] }

/-- Leaders of the quads of an image (R151). -/
def quads (rows : Nat) : List Nat := (List.range (rows / 2)).flatMap (fun r => (List.range 8).map (fun c => 32 * r + 2 * c))

/-! ### Edge cells (R167 to R169, R174, R176) -/

/-- The word edge cell e captures in tick t, when its output path has the slot. -/
def captured (g : Img) (f : Fab) (t e : Nat) (w : Word) : Option FWord :=
  let q := g.edgeRegion e
  if Edge.outKind w != 0 && clocked g q t && Edge.outSlot w (slotAt g q t) then
    let x := f.outWord g 4 (g.edgeCell e) (g.edgeName e).1
    if x.full then some x else none
  else none

/-- The input path of edge cell e may access its port in tick t, but for the words left. -/
def inDue (g : Img) (t e : Nat) (w : Word) : Bool :=
  let q := g.edgeRegion e
  Edge.inKind w == 1 && clocked g q t && decide (Edge.inStart w ≤ t) && Edge.inSlot w (slotAt g q t)

/-- Tag fault of a capture. -/
def captureFault (g : Img) (t e : Nat) (w : Word) (x : FWord) : Option Word :=
  if x.tag.toNat = expected t (Edge.outLat w) then none
  else let (side, i) := g.edgeName e; some (phaseDetail (edgeWhere side i) 0 (expected t (Edge.outLat w)) x.tag.toNat t)

/-- Extension port of an east edge row. -/
def extPort (ports rows i : Nat) : Nat := ((List.range ports).find? (fun p => p * rows / ports == i)).getD 0

/-- Level of the return tag inputs of a port (R176): as driven, else as PULL and KEEP hold it, else free. -/
def tagLevel (f : Fab) (ctr : Nat) (w : Word) (port : Nat) (r : Option ExtRet) : Nat :=
  match r with
  | some r => r.tag % 4
  | none =>
    let pulled := if Edge.pull w = 1 then some 0 else if Edge.pull w = 2 then some 3 else none
    if Edge.keep w then
      (match f.keep.find? (fun e => e.1 == port) with
       | some e => e.2
       | none => pulled.getD ((Config.freeWord64 ctr).toNat % 4))
    else pulled.getD ((Config.freeWord64 ctr).toNat % 4)

/-- A sample of an extension return at edge cell e in tick t: the fault, or the word (R174, R176). -/
def sample (g : Img) (f : Fab) (ports t ctr e : Nat) (w : Word) (rets : List ExtRet) : Option (Except Word FWord) :=
  match (f.edgeSt e).sends.find? (fun s => s.1 == t) with
  | none => none
  | some s =>
    let (side, i) := g.edgeName e
    let port := extPort ports g.rows i
    let r := rets.find? (fun r => r.port == port)
    let lvl := tagLevel f ctr w port r
    (match r with
     | some x => if x.valid && x.tag % 4 == s.2 then some (.ok ⟨x.word, BitVec.ofNat 2 x.tag, true⟩)
       else some (.error (phaseDetail (edgeWhere side i) 5 s.2 lvl t))
     | none => some (.error (phaseDetail (edgeWhere side i) 5 s.2 lvl t)))

/-! ### One tick -/

/-- The accesses of tick t in the order of the edge records (R171); `blind`: the tick is checked before its captures are known. -/
def accesses (g : Img) (f : Fab) (m : Cmd) (t : Nat) (blind : Bool) : List PUse :=
  (List.zip (List.range g.edges.length) g.edges).flatMap (fun x =>
    let (e, w) := x
    let q := g.edgeRegion e
    let inU := portUse m w false
    let slotOut := Edge.outKind w == 1 && clocked g q t && Edge.outSlot w (slotAt g q t)
    (if inDue g t e w then [inU] else []) ++
    (if slotOut && (if blind then !Fab.knownEmpty g 4 (g.edgeCell e) (g.edgeName e).1 else (captured g f t e w).isSome) then
       [portUse m w true] else []))

/-- Every region that is not gated runs at ÷2, or not (R171). -/
def anySlow (g : Img) : Bool := (List.range 4).any (fun q => g.slow q && !gated g q)

/-- The fabric pauses in tick t. -/
def paused (p : Params) (g : Img) (c : Core) (m : Cmd) (t : Nat) : Bool :=
  !servable p c m (accesses g c.fab m t false ++ (if anySlow g && t % 2 == 0 then accesses g c.fab m (t + 1) true else [])) []

/-- Results due by tick t applied to a cell in order of issue (R153, R154). DESIGN CHOICE (log entry 81): an empty result that takes the output register
clears its fill bit and leaves the word there, which SELF reads. -/
def applyDue (t : Nat) (st : CellSt) : CellSt :=
  let st1 := (st.pend.filter (fun x => x.due == t)).foldl (fun st x =>
    let st1 := if x.out then (if x.word.full then { st with out := x.word } else { st with out := { st.out with full := false } }) else st
    match x.dst with
    | some r => if x.word.full then { st1 with regs := updAt (fun _ => x.word.w) r st1.regs } else st1
    | none => st1) st
  { st1 with pend := st1.pend.filter (fun x => t < x.due) }

/-- The cells as they stand at the start of tick t + 1. -/
def nextCells (g : Img) (f : Fab) (dues : List (Nat × Due)) (t : Nat) : List CellSt :=
  let live := (List.range 4).map (fun q => !gated g q && clocked g q (t + 1))
  (List.range (16 * g.rows)).map (fun i =>
    let st := f.cellSt i
    let go := live.getD (g.region (i / 16)) false
    let wires := (List.range 4).map (fun d =>
      let n := wreg (g.cell i).route d
      let old := st.wires.getD d []
      if go && decide (0 < n) then (f.rawWord g i d :: old).take n else old)
    let exps := if go then (List.range 4).map (fun l => if isStop i l then f.laneWord g i l else .empty) else st.exps
    applyDue (t + 1) { st with wires := wires, exps := exps, pend := st.pend ++ (dues.filter (fun x => x.1 == i)).map (·.2) })

/-- Edge cell e at the start of tick t + 1. -/
def nextEdge (t : Nat) (st : EdgeSt) (new : List (Nat × FWord)) (send : Option (FWord × Nat)) : EdgeSt :=
  let coming := st.coming ++ new
  { drive := match (coming.filter (fun x => x.1 == t + 1)).getLast? with | some x => x.2 | none => st.drive
    coming := coming.filter (fun x => decide (t + 1 < x.1))
    sends := st.sends.filter (fun s => decide (t < s.1)) ++ (match send with | some (w, k) => [(t + k, w.tag.toNat)] | none => [])
    sendWord := match send with | some (w, _) => w | none => .empty }

/-- The port accesses of a tick made in order: the core, the draw counter, the words taken by edge cell, or a skew. -/
def doAccesses (p : Params) (g : Img) (m : Cmd) (t : Nat) (f0 : Fab) :
    List (Nat × Word) → Core → Nat → List (Nat × FWord) → Except Word (Core × Nat × List (Nat × FWord))
  | [], c, ctr, got => .ok (c, ctr, got)
  | (e, w) :: rest, c, ctr, got =>
    let read : Except Word (Core × Nat × List (Nat × FWord)) :=
      if inDue g t e w then
        let u := portUse m w false
        let i := c.fab.pos u
        if u.b.count ≤ i then .ok (c, ctr, got ++ [(e, .empty)])
        else match readPos p c m u i with
          | .skew dn sn => .error (skewDetail u.port 2 dn sn)
          | .word x => .ok ({ c with fab := { c.fab with portPos := Tbl.set u.key (i + 1) c.fab.portPos } }, ctr,
                                got ++ [(e, ⟨x, BitVec.ofNat 2 t, true⟩)])
      else .ok (c, ctr, got)
    match read with
    | .error d => .error d
    | .ok (c1, ctr1, got1) =>
      let (c2, ctr2) := match (if Edge.outKind w = 1 then captured g f0 t e w else none) with
        | some x => writePos p c1 m (portUse m w true) x.w ctr1
        | none => (c1, ctr1)
      doAccesses p g m t f0 rest c2 ctr2 got1

/-- The fabric stops sending. -/
def quietEdges (f : Fab) : Fab := { f with edges := f.edges.map (fun e => { e with sendWord := .empty, sends := [] }) }

/-- A cell after everything it issued up to a faulting tick t has completed inside it: no latency exceeds 16 ticks (R153, R162). -/
def settleCell (t : Nat) (st : CellSt) : CellSt := (List.range 16).foldl (fun st i => applyDue (t + 1 + i) st) st

/-- A tick that faults: its issues complete inside the cells, no edge cell writes or sends, the fabric freezes and the command fails (R162, R229). -/
def Core.faultTick (c : Core) (uid t : Nat) (dues : List (Nat × Due)) (st : Status) (det : Word) : Core :=
  let c1 := c.failCmd uid st det
  let f := quietEdges c1.fab
  { c1 with fab := { f with
      cells := (List.range f.cells.length).map (fun i =>
        let x := f.cellSt i
        settleCell t { x with pend := x.pend ++ (dues.filter (fun e => e.1 == i)).map (·.2) }) } }

/-- One tick of a kernel run: the core and the draw counter; none while the fabric is paused (R171). -/
def fabTick (p : Params) (ports : Nat) (rets : List ExtRet) (c0 : Core) (m : Cmd) (ctr0 : Nat) : Option (Core × Nat) :=
  let f := c0.fab
  let t := f.tick
  let g := Img.ofBytes (f.planes.getD f.plane .zero).image
  if paused p g c0 m t then none
  else
    let c : Core := { c0 with fab := { f with keep := rets.foldl (fun k r => Tbl.set r.port (r.tag % 4) k) f.keep } }
    let a0 := (List.range (16 * g.rows)).foldl (issueCell g f ((c.stores.drop 2)) t) ⟨none, ctr0, [], []⟩
    let a1 := (quads g.rows).foldl (issueQuad g f t) a0
    let es := List.zip (List.range g.edges.length) g.edges
    let caps := es.map (fun e => (e.1, e.2, captured g f t e.1 e.2))
    let a2 := caps.foldl (fun a e => match e.2.2 with | some x => a.flag (captureFault g t e.1 e.2.1 x) | none => a) a1
    let samples := es.map (fun e => sample g f ports t a2.ctr e.1 e.2 rets)
    let a3 := samples.foldl (fun a r => match r with | some (.error d) => a.flag (some d) | _ => a) a2
    let ctr := a3.ctr + 1
    match a3.fault with
    | some d => some (c.faultTick m.uid t a3.dues .fabricPhase d, ctr)
    | none =>
      match doAccesses p g m t f es c ctr [] with
      | .error d => some (c.faultTick m.uid t a3.dues .scaleSkew d, ctr)
      | .ok (c1, ctr1, got) =>
        let edges := es.map (fun e =>
          let new := (got.filter (fun x => x.1 == e.1)).map (fun x => (t + 2, x.2)) ++
            (match samples.getD e.1 none with
             | some (.ok w) => if Edge.inKind e.2 = 2 then [(t + 1, w)] else []
             | _ => [])
          let send := match (if Edge.outKind e.2 = 2 then captured g f t e.1 e.2 else none) with
            | some w => some (w, Edge.xlat e.2)
            | none => none
          nextEdge t (f.edgeSt e.1) new send)
        let c2 : Core := { c1 with fab := { c1.fab with tick := t + 1, cells := nextCells g f a3.dues t, edges := edges } }
        let c3 := match c2.cmd m.uid with | some y => markPassed c2 y (portUses g y) | none => c2
        some (c3.sweep p, ctr1)

/-! ## Kernel runs (R183, R186, R187, R286) -/

/-- The V engine has started an entry of its queue. -/
def startedV (p : Params) (c : Core) (b : Cmd) : Bool :=
  b.fail.isSome || (if b.hasKernel then decide (0 < b.krun) || partDone p c b 2
    else if b.isOp rowFabLoad then b.vDone || c.fab.planes.any (fun q => q.loading == some b.uid) else true)

/-- The kernel command whose next run is due: the first that has a run left, with every entry before it started and every kernel command
before it ended. -/
def nextKernel (p : Params) (c : Core) : Option Cmd :=
  match firstCmd c (fun m => m.hasKernel && !partDone p c m 2) with
  | none => none
  | some m =>
    if m.admitted && c.fab.run.isNone && decide (m.krun < (drainServs p m).length) && c.mayStart p m.uid 2 &&
       ((c.before m.uid).filter (fun b => b.uses 2)).all (startedV p c) && swatchReady m 2 &&
       (!m.isMatrix || decide (m.krun < m.tileSegs.length)) then some m
    else none

/-- A kernel run begins: registers, wires and counters cleared, the command's swatches in place (R152, R187); its plane is the active one (R183). DESIGN
CHOICE (log entry 82): the word that SELF or a `FITTING` reads from an emptied register is 0. -/
def beginRun (c : Core) (m : Cmd) (plane rows : Nat) : Core :=
  let w := m.work
  let zero (n va : Nat) (st : List (List Byte)) : List (List Byte) := if va = 0 then updAt (fun _ => List.replicate 256 0) n st else st
  { c.modCmd m.uid (fun m => { m with krun := m.krun + 1, started := true }) with
    stores := zero 3 w.sw1 (zero 2 w.sw0 c.stores)
    fab := { c.fab with
      run := some m.uid, plane := plane, tick := 0, frozen := false, cells := List.replicate (16 * rows) CellSt.zero
      edges := List.replicate (32 + 2 * rows) EdgeSt.zero, portPos := [], baseSeg := [], gather := [], lastPlane := some plane
      active := if c.fab.activeArr ≤ m.arr then some plane else c.fab.active, activeArr := max c.fab.activeArr (m.arr + 1) } }

/-- KERNEL_RUN_START: the plane was found right at admission (R186, R285). -/
def kernelStart (p : Params) (c : Core) : Core :=
  match nextKernel p c with
  | none => c
  | some m =>
    let n := m.work.plane
    beginRun c m n (imgRows (BitVec.ofNat 64 (leNat (((c.fab.planes.getD n Plane.zero).image).take 8))))
def execKernelRunStart (core : Nat) (s : State) : Out := onCore s core (fun k => s.upd (fun d => d.modCore k (kernelStart s.params)))

/-- A `FAB_LOAD` taken before a kernel command and aimed at its plane is still to end: the command waits (R186). -/
def planeWaits (c : Core) (m : Cmd) : Bool :=
  m.hasKernel && (c.before m.uid).any (fun b => b.isOp rowFabLoad && !b.vDone && b.fail.isNone && fld (wordAt b.body 1) 0 0 == m.work.plane)

/-- What R186 and R285 find wrong with a kernel command's plane at admission. -/
def planeVerdict (c : Core) (m : Cmd) : Option Status :=
  let q := c.fab.planes.getD m.work.plane Plane.zero
  if !m.hasKernel then none
  else if !q.valid || q.failed then some .badParam
  else if q.owner != m.func then some .notOwner
  else if !planePortsOk (Img.ofBytes q.image) m then some .badParam
  else none

/-- ADMISSION (R195). -/
def execAdmission (core : Nat) (s : State) : Out :=
  onCore s core (fun k => s.upd (fun d => d.modCore k (fun c => admitNext s.params (planeWaits c) (planeVerdict c) c)))

/-- Ticks of a run of the present plane (R187). -/
def runTicks (c : Core) (m : Cmd) : Nat :=
  let g := Img.ofBytes (c.fab.planes.getD c.fab.plane Plane.zero).image
  m.work.iter * g.period + g.flush

/-- FABRIC_TICK: `ecc` is what its port accesses saw of tile memory (R191). -/
def fabricTick (s : State) (rets : List ExtRet) (ecc : Ecc) (k : Nat) : State :=
  let c := s.dev.core k
  match c.fab.run.bind c.cmd with
  | none => s
  | some m =>
    if c.fab.frozen || runTicks c m ≤ c.fab.tick then s
    else
      match fabTick s.params (if s.dev.opts.extEn then s.params.extPorts else 0) rets c m s.dev.freeCtr with
      | none => s
      | some (c1, ctr) => onEcc s k ecc (fun s =>
        s.upd (fun d => countUsage ({ d with freeCtr := ctr }.setCore k c1) m.ctx (fun u => { u with vTicks := u.vTicks + 1 })))
def execFabricTick (core : Nat) (rets : List ExtRet) (s : State) (ecc : Ecc := .ok) : Out := onCore s core (fabricTick s rets ecc)

/-- The output regions of a run closed: the newest segment is the run's last and FULL; a region whose newest segment is already FULL, or
that has none, gets one more. None while no segment is FREE for that. -/
def closeOutputs (p : Params) (us : List PUse) (m : Cmd) (c : Core) : Option Core :=
  (m.regions.filter (fun e => e.2.shape.prod == 9)).foldlM (fun c e =>
    match us.find? (fun u => u.out && (u.b.region == e.1 || (u.scaleBytes != 0 && u.b.sregion == e.1))) with
    | none => some c
    | some u =>
      let g := c.ring e.2.key
      let mine := match c.fab.baseSeg.find? (fun x => x.1 == e.1) with
        | some x => decide (x.2 < g.prod) && (g.seg (g.prod - 1)).st == SegState.filling
        | none => false
      let last (c : Core) : Core :=
        let n := (c.ring e.2.key).prod - 1
        (c.modRing e.2.key (fun g => (g.modSeg n (fun s => { s with last := true })).markFull n)).stirred e.2.shape
      if mine then some (last c)
      else if c.producerTurn p m.uid e.2.key && g.canBegin then
        let b := match c.fab.baseSeg.find? (fun x => x.1 == e.1) with | some x => x.2 | none => g.prod
        some (last (claim p c m u e.1 ((g.prod - b) * e.2.shape.segb)))
      else none) c

/-- KERNEL_RUN_END: the ticks are over, gathered blocks are written, segments marked, and the next run may start. -/
def kernelEnd (s : State) (k : Nat) : State :=
  let c := s.dev.core k
  match c.fab.run.bind c.cmd with
  | none => s
  | some m =>
    if c.fab.frozen || c.fab.tick < runTicks c m then s
    else
      let us := portUses (Img.ofBytes (c.fab.planes.getD c.fab.plane Plane.zero).image) m
      let (c1, ctr) := us.foldl (fun (acc : Core × Nat) u => if u.out then flushGather s.params acc.1 m u acc.2 else acc) (c, s.dev.freeCtr)
      match closeOutputs s.params us m c1 with
      | none => s
      | some c2 =>
        let c3 : Core := { c2.modCmd m.uid (fun m => { m with kdone := m.kdone + 1 }) with fab := { c2.fab with run := none } }
        s.upd (fun d => { d with freeCtr := ctr }.setCore k (c3.sweep s.params))
def execKernelRunEnd (core : Nat) (s : State) : Out := onCore s core (kernelEnd s)

/-! ## FAB_LOAD (R183 to R185) -/

/-- The `FAB_LOAD` that the V engine takes next, or whose load is under way. -/
def nextLoad (p : Params) (c : Core) : Option Cmd :=
  match firstCmd c (fun m => m.isOp rowFabLoad && !m.vDone) with
  | none => none
  | some m =>
    if c.mayStart p m.uid 2 && ((c.before m.uid).filter (fun b => b.uses 2)).all (startedV p c) && c.fab.loadHalt.isNone then some m else none

/-- A plane rewritten. -/
def Core.setPlane (c : Core) (n : Nat) (q : Plane) : Core := { c with fab := { c.fab with planes := updAt (fun _ => q) n c.fab.planes } }

/-- The plane that is active for an entry of the V engine: of the last kernel command before it (R183). -/
def planeBefore (c : Core) (m : Cmd) : Option Nat :=
  match ((c.before m.uid).filter (·.hasKernel)).getLast? with
  | some b => some b.work.plane
  | none => c.fab.active

/-- Bytes of a command's image: as its header says once the first granule is here, until then that granule. -/
def imageBytes (c : Core) (uid : Nat) : Nat :=
  match (frontReqs c uid 24).find? (fun r => r.seg == 0 && r.state == 1) with
  | some r => imgSize (BitVec.ofNat 64 (leNat (r.data.take 8)))
  | none => 64

/-- A `FAB_LOAD` ends: its plane as it leaves it, and its failure. -/
def Core.endLoad (c : Core) (uid n : Nat) (q : Plane) (bad : Option Status) : Core :=
  let c1 := (c.setPlane n q).modCmd uid (fun m => { m with vDone := true })
  match bad with | some st => c1.failCmd uid st 0 | none => c1

/-- FAB_LOAD_COMPLETE: the next `FAB_LOAD` is taken, its image asked for granule by granule and checked once it is here; a fault of a read halts or
fails it. The plane is invalid from the first request on. -/
def fabLoad (s : State) (k : Nat) : State :=
  let c := s.dev.core k
  match nextLoad s.params c with
  | none => s
  | some m =>
    let n := fld (wordAt m.body 1) 0 0
    let q := c.fab.planes.getD n Plane.zero
    if q.loading != some m.uid && planeBefore c m == some n then
      s.upd (fun d => d.modCore k (fun c => c.endLoad m.uid n { q with failed := true } (some .planeBusy)))
    else
      let s0 := if q.loading == some m.uid then s
        else s.upd (fun d => d.modCore k (fun c => c.setPlane n { Plane.zero with owner := m.func, loading := some m.uid }))
      match frontStep s0 k m 24 (wordAt m.body 0).toNat (imageBytes c m.uid) .read with
      | (s1, none) => s1
      | (s1, some bs) => s1.upd (fun d => d.modCore k (fun c =>
          if imageOk s.params d bs then c.endLoad m.uid n ⟨true, m.func, none, bs, false⟩ none
          else c.endLoad m.uid n { Plane.zero with failed := true } (some .badParam)))
def execFabLoadComplete (core : Nat) (s : State) : Out := onCore s core (fabLoad s)

end Sys2Proof.Machine
end

