-- ==== Sys2Proof/Machine/Seams.lean ====
section
/-! DEFINITION. Seam episodes: a SEAM starts in a core, a gang-scope episode releases its participants, a partition-scope episode applies
the staged changes and completes (R299, R329 to R331, R334). -/

namespace Sys2Proof.Machine

namespace Cmd
/-- Seam slot of a SEAM command. -/
def seamSlot (m : Cmd) : Nat := Sys2Proof.Machine.seamSlot (wordAt m.body 0)
/-- A SEAM of partition scope. -/
def seamPart (m : Cmd) : Bool := bitOf (wordAt m.body 1) 0
end Cmd

/-- SEAM_START (R299, R329, R331): the first SEAM of a core whose earlier entries have all left starts there; a partition-scope one is
done as soon as it starts, a gang-scope one counts toward its episode. -/
def seamStart (s : State) (k : Nat) : State :=
  let c := s.dev.core k
  match firstCmd c (fun m => m.isOp rowSeam && !m.started && c.atHead m.uid) with
  | none => s
  | some m =>
    let d1 := s.dev.modCore k (fun c => { c.modCmd m.uid (fun m => { m with started := true, released := m.seamPart }) with moved := true })
    if m.seamPart then s.withDev d1
    else
      let (_, sc, ep) := seamOf d1 m.seamSlot
      let own := (siteIndex s.dev k).getD 0
      s.withDev (setSeam d1 m.seamSlot sc (ep.map (fun e => { e with started := e.started ++ [own] })))
def execSeamStart (core : Nat) (s : State) : Out := onCore s core (seamStart s)

/-- The SEAM commands of the packets released in one core. -/
def releaseSeam (uids : List Nat) (c : Core) : Core :=
  { c with cmds := c.cmds.map (fun m => if m.isOp rowSeam && uids.contains m.uid then { m with released := true } else m) }

/-- SEAM_RELEASE (R329): the last participant of the seam's open gang-scope episode has started; every participant is released and the
episode ends. -/
def seamRelease (slot : Nat) (s : State) : State :=
  let (_, sc, ep) := seamOf s.dev slot
  match ep with
  | none => s
  | some e =>
    if !s.dev.inService || e.partScope || e.cores.isEmpty || !e.cores.all e.started.contains then s
    else s.upd (fun d => setSeam { d with cores := Tbl.mapv (releaseSeam e.pkts) d.cores } slot sc none)
def execSeamRelease (slot : Nat) (s : State) : Out := .next (seamRelease slot s)

/-! ## PARTITION_EPISODE_COMPLETE -/

/-- A joining packet has started in every member that is still present (R331). -/
def startedAll (d : Dev) (p : Pkt) : Bool :=
  p.stage == .left && p.members.all (fun i => match (d.siteOf i).bind (fun k => (d.core k).cmd p.uid) with | some m => m.started | none => true)

/-- A participating queue has arrived; a queue destroyed since the episode opened counts toward nothing. -/
def arrivedQueue (d : Dev) (e : Episode) (n : Nat) : Bool :=
  let x := d.queue (.work n)
  !x.live || x.flight.any (fun p => e.pkts.contains p.uid && startedAll d p)

/-- What a core about to be retired at an episode still holds of other packets reports CORE_RETIRED (an armed fitting). -/
def reportLeft (s : State) (idx k : Nat) : State :=
  let c := s.dev.core k
  reportAll s idx { c with cmds := c.cmds.filter (fun m => !m.released) } .coreRetired

/-- The changes that an episode over some partitions applies, with the reports of the cores they retire (R334). -/
def applyCovered (s : State) (covered : List Nat) : State :=
  let due (d : Dev) (c : Change) : Bool := match changePart d c with | some q => covered.contains q | none => false
  let s1 := (s.dev.mc.changes.filter (fun c => due s.dev c && !c.insert && c.kind == 1)).foldl (fun s c =>
    match s.dev.siteOf c.index with | some k => reportLeft s c.index k | none => s) s
  s1.upd (applyWhere s.params due)

/-- A joining packet completes with its episode, whatever its cores have still to report. -/
def completeJoined (uids : List Nat) (s : State) (q : QRef) : State :=
  ((s.dev.queue q).flight.filter (fun p => uids.contains p.uid && !p.done)).foldl (fun s p =>
    completePkt (s.upd (fun d => d.modPkt q p.uid (fun p => { p with waiting := [] }))) q p.uid) s

/-- Every queue that an episode of a seam held goes on. -/
def dropHolds (d : Dev) (slot : Nat) : Dev :=
  { d with queues := Tbl.mapv (fun x => { x with seamHolds := x.seamHolds.filter (· != slot) }) d.queues }

/-- A partition-scope episode ends: its joining packets complete and its queues go on. -/
def endEpisode (s : State) (slot : Nat) (e : Episode) : State :=
  let s1 := s.upd (fun d => setSeam d slot (seamOf d slot).2.1 none)
  (s1.dev.queueRefs.foldl (completeJoined e.pkts) s1).upd (fun d => dropHolds d slot)

/-- PARTITION_EPISODE_COMPLETE (R331, R334): every participating queue has arrived; the staged changes of the covered partitions are
applied, then the episode completes. -/
def partitionEpisode (slot : Nat) (s : State) : State :=
  match (seamOf s.dev slot).2.2 with
  | none => s
  | some e =>
    if !s.dev.inService || !e.partScope || !e.queues.all (arrivedQueue s.dev e) then s
    else endEpisode (applyCovered s e.covered) slot e
def execPartitionEpisodeComplete (slot : Nat) (s : State) : Out := .next (partitionEpisode slot s)

end Sys2Proof.Machine
end

