-- ==== Sys2Proof/Machine/FuncReset.lean ====
section
/-! DEFINITION. Function resets: the eight steps of R436, their start by FUNC_RESET or by the bridge, and the reset record
(R435 to R439, R441, R447, R516). -/

namespace Sys2Proof.Machine

/-! ## Steps 1 to 3 -/

/-- Control queue and live work queues of a function. -/
def fnQueues (d : Dev) (f : Nat) : List QRef := .ctl f :: (Tbl.keys (fun x => x.live && x.func == f) d.queues).map QRef.work

/-- A packet that the MC has accepted and runs to its end (R436). -/
def mcRunning (p : Pkt) : Bool := p.isCtl && p.stage == .left && !p.done

/-- Step 2 for one queue: packets in its ring, in assembly and waiting at step 2 or 3 go, with the holds of their waits. The second
component: how many. -/
def discardQueue (s : State) (q : QRef) : State × Nat :=
  let x := s.dev.queue q
  let early := x.flight.filter (fun p => p.stage == .entered)
  let s1 := dropRefs (s.upd (fun d => d.modQueue q (fun x => { x with
    flight := x.flight.filter (fun p => p.stage != .entered), entered := x.posted, asm := [], replay := none }))) (early.filterMap (·.waitHold))
  (s1, (x.posted - x.entered).toNat + early.length + (if x.asm.isEmpty then 0 else 1))

/-- What is left in flight acts no more when it ends: no tack action, no result, no reply. -/
def muteQueue (d : Dev) (q : QRef) : Dev :=
  d.modQueue q (fun x => { x with flight := x.flight.map (fun p =>
    { p with quiet := true, sigTack := none, ownTack := none, pendReg := none, pendPred := none }) })

/-- Step 3 in one core: the function's commands fail, its fitting is dropped, its halts with it. -/
def stopFunc (f : Nat) (c : Core) : Core :=
  let c1 := (c.cmds.filter (fun m => m.func == f)).foldl (fun c m => c.failCmd m.uid .functionReset 0) c
  { c1 with fitting := c1.fitting.filter (fun x => x.func != f) }

/-- What a function in reset still asks of a stack port's arbiter: its reads are withdrawn, and the granules of the write units that were being sent
join the port's own queue, so that the function requests nothing from step 1 on (R437, R447). DEDUCED (log entry 88). -/
def StackPort.withdraw (f : Nat) (q : StackPort) : StackPort :=
  let unit (r : PortReq) : Bool := match r.src with | .coreWrite .. => true | _ => false
  { q with waiting := q.waiting.filter (fun r => r.func != f), accq := q.accq ++ q.waiting.filter (fun r => r.func == f && unit r) }

/-- KIND of a fault record. -/
def FaultRec.kind (r : FaultRec) : Nat := fld (wordAt r.words 0) 55 52

/-- Steps 1 to 3 for one function; the counts discarded and aborted. -/
def beginFn (acc : State × Nat × Nat) (f : Nat) : State × Nat × Nat :=
  let (s0, disc, ab) := acc
  let s1 := s0.upd (fun d => d.modFn f (fun x => { x with inReset := true, asm := [], held := x.held.filter (fun r => r.kind != 1) }))
  let qs := fnQueues s1.dev f
  let (s2, n) := qs.foldl (fun (a : State × Nat) q => let (s, k) := discardQueue a.1 q; (s, a.2 + k)) (s1, disc)
  let m := (qs.map (fun q => ((s2.dev.queue q).flight.filter (fun p => !mcRunning p)).length)).foldl (· + ·) 0
  let s3 := s2.upd (fun d => let d1 := qs.foldl muteQueue d
                             { d1 with cores := Tbl.mapv (stopFunc f) d1.cores, ports := Tbl.mapv (StackPort.withdraw f) d1.ports })
  (s3, n, ab + m)

/-- The functions that a reset covers: all 256 when it is function 0's (R435). -/
def resetFns (r : FReset) : List Nat := if r.func = 0 then List.range 256 else [r.func]

/-- The reset that a request for function f joins. -/
def resetOf (d : Dev) (f : Nat) : Option FReset := d.resets.find? (fun r => (resetFns r).contains f)

/-! ## Step 4 -/

/-- A request of a function's commands is neither acknowledged nor abandoned. -/
def fnRequests (d : Dev) (f : Nat) : Bool :=
  d.ports.any (fun e => (e.2.waiting ++ e.2.accq ++ e.2.outR ++ e.2.outW).any (fun r => r.func == f && r.src != .unit)) ||
  d.host.accq.any (fun r => r.func == f) ||
  d.host.reqs.any (fun r => r.func == f && !r.abandoned && (match r.use with
    | .streamRead .. | .streamWrite .. | .walkRead .. | .accRead _ => true
    | _ => false))

/-- A function's commands leave a core, with everything the core keeps for them and for its queues. -/
def dropFunc (p : Params) (f : Nat) (qs : List QRef) (c : Core) : Core :=
  let uids := (c.cmds.filter (fun m => m.func == f)).map (·.uid)
  let accs := c.opu.accs.map (fun a =>
    if a.st != .free && (uids.contains a.uid || (match a.holder with | some q => qs.contains q | none => false)) then Acc.zero else a)
  if uids.isEmpty && accs == c.opu.accs then c
  else
    { c with
      cmds := c.cmds.filter (fun m => m.func != f)
      reqs := c.reqs.filter (fun r => !uids.contains r.uid)
      halt := c.halt.filter (fun h => !uids.contains h.uid)
      opu := { c.opu with accs := accs }
      fab := { c.fab with loadHalt := c.fab.loadHalt.filter (fun h => !uids.contains h.uid) } }.sweep p

/-- The function's packets complete with FUNCTION_RESET: their references are dropped and they leave. -/
def abortQueue (s : State) (q : QRef) : State :=
  let ps := (s.dev.queue q).flight
  dropRefs (s.upd (fun d => d.modQueue q (fun x => { x with flight := [] })))
    (ps.flatMap (·.holds) ++ ps.filterMap (·.waitHold))

/-- Images whose packet is gone are in service: a packet that the MC executes runs to its end (R436). -/
def settleImages (d : Dev) : Dev :=
  (d.mc.coming.filter (fun n => (d.pkt (.ctl 0) n.uid).isNone)).foldl (fun d n => imageRetires d n.uid) d

/-- The function's aborted commands leave their accumulate regions indeterminate (R235, R437). -/
def spoilFunc (s : State) (f : Nat) : State :=
  (s.dev.cores.flatMap (fun e => e.2.cmds.filter (fun m => m.func == f))).foldl (fun s m => spoilCmd s m .functionReset) s

/-! ## Step 5 -/

/-- Tacks that a function created (R382, R436). -/
def ownTacks (d : Dev) (f : Nat) : List ObjRef :=
  (List.range 4).flatMap (fun i => liveOf 2 (8192 * i) (d.objs.tacks.getD i (.empty 0)) (fun e => e.owner == f && e.payload.typ == 2))

/-- Waits of other functions on a tack. -/
def otherWaits (d : Dev) (f : Nat) (r : ObjRef) : Nat :=
  (d.queueRefs.map (fun q => ((d.queue q).flight.filter (fun p => p.func != f && waitsOn d r.slot p)).length)).foldl (· + ·) 0

/-- A tack broken and released. -/
def breakTack (s : State) (r : ObjRef) : State :=
  releaseObj (s.upd (fun d => d.modEntry r (fun e => match e.payload with
    | .tack v g _ => { e with payload := .tack v g true }
    | _ => e))) r

/-- Import entries, bobbins and seams of a function. -/
def ownShared (d : Dev) (f : Nat) : List ObjRef :=
  let mine (t : Nat) (e : Entry) : Bool := e.owner == f && e.payload.typ == t && e.href
  liveOf 7 0 d.objs.mem (mine 7) ++
  (List.range 4).flatMap (fun i => liveOf 3 (1024 * i) (d.objs.bobbins.getD i (.empty 0)) (mine 3)) ++ liveOf 4 0 d.objs.seam (mine 4)

/-- A seam's open episode abandoned: its queues are no longer held. -/
def abandonSeam (d : Dev) (r : ObjRef) : Dev :=
  if r.typ = 4 then dropHolds (setSeam d r.slot (seamOf d r.slot).2.1 none) r.slot else d

/-! ## Steps 6 and 7 -/

/-- Planes that a function loaded become invalid. -/
def dropPlanes (f : Nat) (c : Core) : Core :=
  { c with fab := { c.fab with planes := c.fab.planes.map (fun q => if (q.valid || q.loading.isSome) && q.owner == f then Plane.zero else q) } }

/-- The fault ring of a function is configured anew: records the bridge refused are held again, and those under way will be if it refuses them
(R513). -/
def refault (d : Dev) (f : Nat) : Dev :=
  let back := d.host.retry.filter (fun e => e.1 == f)
  let stale (r : HostReq) : HostReq := match r.use with
    | .faultRec g ws => if g == f then { r with use := .faultOld g ws } else r
    | _ => r
  let d1 : Dev := { d with host := { d.host with retry := d.host.retry.filter (fun e => e.1 != f), reqs := d.host.reqs.map stale } }
  d1.modFn f (fun x => { x with held := back.map (fun e => ⟨e.2.2⟩) ++ x.held })

/-- What is under way to the rings of a function whose reset ends: an error answer loses nothing of the function any more, but for records of KIND 6
and above (R438, R441). -/
def forgetRecords (d : Dev) (f : Nat) : Dev :=
  let forget (r : HostReq) : HostReq := match r.use with
    | .reply g _ => if g == f then { r with use := .mcWrite } else r
    | .faultOld g ws => if g == f && decide ((FaultRec.mk ws).kind < 6) then { r with use := .mcWrite } else r
    | _ => r
  let d1 := refault d f
  { d1 with host := { d1.host with reqs := d1.host.reqs.map forget } }

/-- Ring registers and interrupt configuration return to reset; QoS loses EN; records of KIND 6 and above stay held. -/
def resetFnRegs (f : Nat) (x : FuncSt) : FuncSt :=
  { FuncSt.reset f with
    vecBase := x.vecBase, vecCount := x.vecCount, held := x.held.filter (fun r => decide (6 ≤ r.kind))
    qos := setFld x.qos 63 63 0, qosNow := setFld x.qosNow 63 63 0, inReset := true, resetDone := x.resetDone }

/-- Steps 4 to 8 for one function but for its record; the counts of tacks broken and of waiters. -/
def finishFn (acc : State × Nat × Nat) (f : Nat) : State × Nat × Nat :=
  let (s0, broken, waiters) := acc
  let qs := fnQueues s0.dev f
  let s1 := qs.foldl abortQueue ((spoilFunc s0 f).upd (fun d => { d with cores := Tbl.mapv (dropFunc s0.params f qs) d.cores }))
  let ts := ownTacks s1.dev f
  let w := (ts.map (otherWaits s1.dev f)).foldl (· + ·) 0
  let s2 := ts.foldl breakTack s1
  let rs := ownShared s2.dev f
  let s3 := rs.foldl (fun s r => releaseObj (s.upd (fun d => abandonSeam d r)) r) s2
  let s4 := (Tbl.keys (fun x => x.live && x.owner == f) s3.dev.ctxs).foldl destroyCtx s3
  let s5 := s4.upd (fun d =>
    let d1 := qs.foldl (fun d q => match q with | .work _ => d.setQueue q Queue.none | .ctl _ => d.setQueue q (Queue.control f)) d
    let d2 : Dev := { d1 with
      gangs := Tbl.mapv (fun g => if g.live && g.func == f then Gang.none else g) d1.gangs
      cores := Tbl.mapv (dropPlanes f) d1.cores }
    let d3 := (forgetRecords (applyIdle s4.params d2) f).modFn f (resetFnRegs f)
    let d4 := (Tbl.keys (fun g => (g.state == 1 || (g.state == 2 && !g.wipe)) && g.owner == f) d3.grants).foldl (fun d g => fenceGrant d g true) d3
    settleImages (d4.modFn f (fun x => { x with inReset := false, resetDone := true })))
  (s5, broken + ts.length, waiters + w)

/-! ## Step 8 -/

/-- The reset record (R438) with cause 2 of R433; none for a reset of function 0. -/
def resetRecord (d : Dev) (r : FReset) (broken waiters : Nat) : Dev :=
  if r.func = 0 then d
  else
    let us := (d.time - r.start).toNat / max 1 d.opts.cclkMhz
    (d.reply 0 .control
      { seq := 0, tag := 0, status := Status.functionReset.code, mixed := false, mismatch := false, queue := 0xFFF, subidx := 0xFFFF
        gen := 0, core := 0x3FF, nfail := 0
        detail := place (min r.discarded 65535) 48 ||| place (min r.aborted 65535) 32 ||| place (min broken 65535) 16 |||
                  place (min waiters 65535) 0
        value := place (us % 2 ^ 32) 32 ||| placeB r.abandoned 9 ||| placeB r.bridge 8 ||| place r.func 0 }).raise 0 2

/-- Steps 4 to 8 of a reset whose requests are all acknowledged or abandoned. A function that another reset still covers, as function 0's sequence does
(R435), stays in reset until that one ends. -/
def finishReset (s : State) (r : FReset) : State :=
  let (s1, broken, waiters) := (resetFns r).foldl finishFn (s, 0, 0)
  let s2 := s1.upd (fun d =>
    let d1 := resetRecord d r broken waiters
    let left := d1.resets.filter (fun x => x != r)
    (((resetFns r).filter (fun f => left.any (fun x => (resetFns x).contains f))).foldl (fun d f => d.modFn f (fun x => { x with inReset := true })) d1 |>
      fun d2 => { d2 with resets := left, host := { d2.host with flrAcks := d2.host.flrAcks ++ r.acks } }))
  r.pkts.foldl (fun s u => completePkt s (.ctl 0) u) s2

/-- Every reset in progress that waits for nothing any more finishes (R436). -/
def advanceResets (s : State) : State :=
  s.dev.resets.foldl (fun s r => if (resetFns r).any (fnRequests s.dev) then s else finishReset s r) s

/-! ## Starts (R435, R516) -/

/-- A function reset started, or joined. -/
def startReset (s : State) (f : Nat) (bridge : Bool) (acks pkts : List Nat) : State :=
  match resetOf s.dev f with
  | some r =>
    s.upd (fun d => { d with resets := d.resets.map (fun x => if x == r then { x with acks := x.acks ++ acks, pkts := x.pkts ++ pkts } else x) })
  | none =>
    let r : FReset := ⟨f, bridge, acks, pkts, 0, 0, 0, s.dev.time, false⟩
    let (s1, disc, ab) := (resetFns r).foldl beginFn (s, 0, 0)
    advanceResets (s1.upd (fun d => { d with resets := d.resets ++ [{ r with discarded := disc, aborted := ab }] }))

/-- FUNC_RESET at step 10: started or joined; the packet completes with the reset. -/
def funcResetTen (s : State) (p : Pkt) : Ten := .later (startReset s (fld (p.b 0) 7 0) false [] [p.uid])

def semFuncReset : OpSem := ⟨rowFuncReset, fun _ p => fld (p.b 0) 7 0 != 0, noOwn, mcTen funcResetTen⟩

/-- FUNC_RESET (R435, R436). -/
def execFuncReset (q : QRef) (s : State) : Out := .next (acceptRow semFuncReset q s)

/-- FLR_REQUEST (R435, R516): the bridge asks for a function reset; ignored while the target channel is held not ready. -/
def execFlrRequest (func : Nat) (s : State) : Out :=
  .next (if s.dev.boot.inReset || !s.dev.boot.targetReady || 256 ≤ func then s
         else startReset (s.upd (fun d => { d with host := { d.host with flrAcks := [] } })) func true [func] [])

/-- The core for which a request of a stack port or of the host port's unit is made: its own, or the one whose walk it is. -/
def ReqSrc.site (d : Dev) : ReqSrc → Option Nat
  | .core k _ => some k
  | .coreWrite k _ _ _ _ => some k
  | .walk p i => ((d.panel p).walks.find? (fun w => w.id == i)).map (·.site)
  | .unit => none

/-- The operation for which the host port's unit reads a granule. -/
def accWaiter (d : Dev) (a : Nat) : Option PortReq := d.host.accq.find? (fun r => overlaps r.addr (if r.two then 128 else 64) a 64)

/-- The core for which an initiator request is made. -/
def HostUse.site (d : Dev) : HostUse → Option Nat
  | .streamRead k _ => some k
  | .streamWrite k _ _ _ _ => some k
  | .walkRead p i => ReqSrc.site d (.walk p i)
  | .accRead a => (accWaiter d a).bind (fun r => r.src.site d)
  | _ => none

/-- A request that a function reset or a partition clear may abandon. The MC's own reads, whose packets run to their end, are none (R436, R437). -/
def mayAbandon (d : Dev) (r : HostReq) : Bool :=
  (match r.use with | .mcRead _ => false | _ => (d.fn r.func).inReset) ||
  (match r.use.site d with | some k => (d.core k).clearing | none => false)

/-- HOST_REQUEST_ABANDON (R437): a request still unanswered at the limit of a function reset or of a partition clear is given up; its
late response is discarded. One that still waits for a tag (tag 1,024) is never sent; the operation of the host port's unit that waits for an abandoned
read goes with it. -/
def hostAbandon (s : State) (tag : Nat) : State :=
  match s.dev.host.reqs.find? (fun r => r.tag == tag && !r.abandoned && mayAbandon s.dev r) with
  | none => s
  | some r =>
    let waiter := match r.use with | .accRead a => accWaiter s.dev a | _ => none
    advanceResets (s.upd (fun d => { d with
      host := { d.host with
        reqs := if tag = noTag then d.host.reqs.erase r else d.host.reqs.map (fun x => if x == r then { x with abandoned := true } else x)
        accq := match waiter with | some w => d.host.accq.erase w | none => d.host.accq }
      resets := d.resets.map (fun x => if (resetFns x).contains r.func then { x with abandoned := true } else x) }))
def execHostRequestAbandon (tag : Nat) (s : State) : Out := .next (hostAbandon s tag)

end Sys2Proof.Machine
end

