-- ==== Sys2Proof/Machine/Clears.lean ====
section
/-! DEFINITION. Partition clears (R440 to R443). -/

namespace Sys2Proof.Machine

/-- Site keys of an enabled partition of a panel. -/
def partSites (p : Params) (d : Dev) (panel part : Nat) : List Nat :=
  ((List.range p.sites).filter (fun i => rowInEntry (d.part panel part) (i / 12))).map (siteKey panel)

/-- The runs of cores outside that wait on a core being cleared fail with PARTITION_CLEARED (R442). -/
def failWaiters (p : Params) (d : Dev) (cleared : List Nat) (k : Nat) : Dev :=
  if cleared.contains k then d
  else
    let own := (siteIndex d k).getD 0
    (waitingCmds p d k own).foldl (fun d e =>
      if e.2.any (fun w => match d.siteOf w.1 with | some j => cleared.contains j | none => false) then failAt d k e.1.uid .partitionCleared 0
      else d) d

/-- A core begins to be cleared: its work stops, and its engines hold nothing but what still awaits an acknowledgement. -/
def startClear (c : Core) : Core :=
  { c.cmds.foldl (fun c m => c.failCmd m.uid .partitionCleared 0) c with clearing := true }

/-- The seams whose open episode satisfies a test. -/
def seamsWith (d : Dev) (f : Episode → Bool) : List (Nat × Episode) :=
  d.objs.seam.entries.filterMap (fun e => match e.2.payload with
    | .seam _ _ (some ep) => if f ep then some (e.1, ep) else none
    | _ => none)

/-- An open partition-scope episode that covers the partition ends; its SEAM packets complete with PARTITION_CLEARED (R442). -/
def endCovered (s : State) (e : Nat × Episode) : State :=
  let mark (d : Dev) (q : QRef) : Dev := d.modQueue q (fun x => { x with flight := x.flight.map (fun p =>
    if e.2.pkts.contains p.uid && !p.done then { p with status := Status.higher p.status .partitionCleared } else p) })
  endEpisode (s.upd (fun d => d.queueRefs.foldl mark d)) e.1 e.2

/-- A partition clear begins in every core of the partition (R440, R442). -/
def beginClear (s : State) (panel part uid : Nat) : State :=
  let ks := partSites s.params s.dev panel part
  let d1 := ks.foldl (fun d k => match siteIndex d k with | some i => lostStarts d i | none => d) s.dev
  let d2 := (d1.cores.map (·.1)).foldl (fun d k => failWaiters s.params d ks k) d1
  let d3 := ks.foldl (fun d k => d.modCore k startClear) d2
  let s1 := s.withDev { d3 with mc := { d3.mc with clears := d3.mc.clears ++ [(16 * panel + part, uid)] } }
  (seamsWith s1.dev (fun ep => ep.partScope && ep.covered.contains (16 * panel + part))).foldl endCovered s1

/-- PART_CLEAR at step 10: clears of one partition run one at a time (R440). -/
def partClearTen (s : State) (p : Pkt) : Ten :=
  let panel := fld (p.b 0) 1 0
  let part := fld (p.b 0) 7 4
  if s.dev.mc.clears.any (fun c => c.1 == 16 * panel + part) then .wait s else .later (beginClear s panel part p.uid)

def semPartClear : OpSem :=
  ⟨rowPartClear, fun s p => decide (fld (p.b 0) 1 0 < s.params.panels) && bitOf (s.dev.part (fld (p.b 0) 1 0) (fld (p.b 0) 7 4)) 63, noOwn,
   mcTen partClearTen⟩

/-- PART_CLEAR (R440 to R442). -/
def execPartClear (q : QRef) (s : State) : Out := .next (acceptRow semPartClear q s)

/-! ## PARTITION_CLEAR_DONE -/

/-- A request of a core is neither acknowledged nor abandoned. -/
def siteRequests (d : Dev) (k : Nat) : Bool :=
  d.ports.any (fun e => (e.2.waiting ++ e.2.accq ++ e.2.outR ++ e.2.outW).any (fun r => r.src.site d == some k)) ||
  d.host.accq.any (fun r => r.src.site d == some k) ||
  d.host.reqs.any (fun r => !r.abandoned && r.use.site d == some k)

/-- A cleared core: everything it still held reports, and its domain is at reset (R440, R441). -/
def endClear (s : State) (k : Nat) : State :=
  let c := s.dev.core k
  let own := (siteIndex s.dev k).getD 0
  let s1 := c.cmds.foldl (fun s m =>
    let (st, det) := m.fail.getD (.partitionCleared, 0)
    reportCmd s m own st det) s
  let s2 := match c.fitting with
    | some f => reportCore s1 f.q f.uid own .partitionCleared 0
    | none => s1
  s2.upd (fun d => { d.setCore k { Core.zero with nextReq := c.nextReq } with
    panels := Tbl.mapv (fun q => { q with walks := q.walks.filter (fun w => w.site != k) }) d.panels })

/-- PARTITION_CLEAR_DONE (R440): the clear of a partition ends once no request of its cores is outstanding. -/
def clearDone (s : State) (panel part : Nat) : State :=
  match s.dev.mc.clears.find? (fun c => c.1 == 16 * panel + part) with
  | none => s
  | some c =>
    let others := (s.dev.mc.clears.filter (fun x => x != c && x.1 / 16 == panel)).flatMap (fun x => partSites s.params s.dev panel (x.1 % 16))
    let ks := ((List.range s.params.sites).map (siteKey panel)).filter (fun k => (s.dev.core k).clearing && !others.contains k)
    if ks.any (siteRequests s.dev) then s
    else
      let s1 := ks.foldl endClear s
      completePkt (s1.upd (fun d => { d with mc := { d.mc with clears := d.mc.clears.filter (fun x => x != c) } })) (.ctl 0) c.2
def execPartitionClearDone (panel part : Nat) (s : State) : Out := .next (clearDone s panel part)

end Sys2Proof.Machine
end

