-- ==== Sys2Proof/Machine/DeviceReset.lean ====
section
/-! DEFINITION. Device reset: its sources, the reset event, the holds and the release (R448 to R455, R510, R516, R538, R543). -/

namespace Sys2Proof.Machine

/-! ## The reset event (R449 to R451) -/

/-- A request put among requests in the order of their issue. -/
def inSeq (r : HostReq) : List HostReq → List HostReq
  | [] => [r]
  | x :: xs => if r.seq < x.seq then r :: x :: xs else x :: inSeq r xs

/-- Writes that the bridge has already been handed complete, oldest first, coherent ones too; requests without a tag were never handed over
(R450). -/
def landWrites (s : State) : State :=
  ((s.dev.host.late ++ s.dev.host.reqs).foldl (fun rs r => inSeq r rs) []).foldl (fun s r =>
    if r.tag != noTag && r.stores then { s with mem := { s.mem with host := Memory.writeEn r.addr r.data r.be s.mem.host } } else s) s

/-- The always-on domain at a reset event: count, cause, phase, and a load cut short (R450, R465). -/
def Aon.event (a : Aon) (b : Boot) (cause : Nat) : Aon :=
  { a with
    resetCount := BitVec.ofNat 32 (satAdd 32 a.resetCount.toNat 1)
    cause := cause
    fresh := true
    phase := if b.ready then 15 else b.phase
    loadAborts := if !b.ready && b.phase == 0 then satAdd 8 a.loadAborts 1 else a.loadAborts }

/-- Test logic after its reset: latches 0, mode taken as 0 (R543). -/
def TestPort.cleared (t : TestPort) : TestPort := { t with segment := [], status := [], latches := [], mode := false, so := false }

/-- What BIST reported goes with the repairs it made (R548). -/
def TestPort.unbist (t : TestPort) : TestPort := { t with log := [], nlog := 0, codes := [], shared := [], done := false }

/-- The device in reset: everything but the always-on domain, the pins and the test logic at its reset value; the ports keep whether
they trained in full last time (R451, R523). -/
def Dev.inResetOf (p : Params) (d : Dev) (aon : Aon) (hold : Nat) : Dev :=
  let d1 := Dev.reset p aon d.pins (Tbl.mapv TestPort.unbist d.test)
  { d1 with
    boot := { Boot.release with inReset := true, hold := hold }
    ports := Tbl.mapv (fun q => { StackPort.zero with fullLast := q.fullLast }) d.ports
    freeCtr := d.freeCtr }

/-- A source asserts: a reset event when the block is out of reset, nothing but the source's own hold otherwise, apart from a lower code within
one k3_aonclk period of the event. DESIGN CHOICE (log entry 84): that period ends with the first cycle the block counts in reset. `hold` is the cause of a 64-cycle
hold, 0 for a source that holds itself (R450). -/
def deviceReset (s : State) (cause hold : Nat) : State :=
  if s.dev.boot.inReset then
    (if s.dev.aon.fresh && decide (cause < s.dev.aon.cause) then s.upd (fun d => { d with aon := { d.aon with cause := cause } }) else s)
  else (landWrites s).upd (fun d => d.inResetOf s.params (d.aon.event d.boot cause) hold)

/-! ## Sources -/

/-- Some k3_hold_i input is not zero (R510). -/
def Pins.held (x : Pins) : Bool := x.holdIn.any (fun e => e.2 != 0)

/-- What the root-clock monitor of a panel holds for: 5 missing, 6 out of range, 0 nothing. -/
def Aon.holds (a : Aon) (panel : Nat) : Nat := Tbl.get 0 panel a.monitor

/-- k3_hold_o of a panel: the lowest cause code among its own sources; RESET_DEVICE and the reset key are sources of panel 0 only (R510). -/
def holdOut (d : Dev) (panel : Nat) : Nat :=
  if d.pins.pwrLow.contains panel then 1
  else if d.pins.rstLow.contains panel then 2
  else if panel = 0 ∧ d.boot.hold ≠ 0 then d.boot.hold
  else d.aon.holds panel

/-- No source of R448 holds in any panel, nor any k3_hold_i. -/
def released (p : Params) (d : Dev) : Bool := (List.range p.panels).all (fun i => holdOut d i == 0) && !d.pins.held

/-- A number put into or taken out of a list of numbers. -/
def mark (on : Bool) (i : Nat) (xs : List Nat) : List Nat := let ys := xs.filter (· != i); if on then ys ++ [i] else ys

/-- PWROK_CHANGE (R448, R455, R543): the fall resets the panel's test logic too; after the rise its root-clock monitor holds for two windows. -/
def pwrokChange (s : State) (panel : Nat) (level : Bool) : State :=
  if s.params.panels ≤ panel || level == !s.dev.pins.pwrLow.contains panel then s
  else if level then
    s.upd (fun d => { d with
      pins := { d.pins with pwrLow := mark false panel d.pins.pwrLow }
      aon := { d.aon with monitor := Tbl.set panel 6 d.aon.monitor, goodWindows := Tbl.del panel d.aon.goodWindows } })
  else
    (deviceReset s 1 0).upd (fun d =>
      ({ d with pins := { d.pins with pwrLow := mark true panel d.pins.pwrLow } }).setTest panel (d.testPort panel).cleared)
def execPwrokChange (level : Bool) (s : State) (panel : Nat := 0) : Out := .next (pwrokChange s panel level)

/-- RST_N_CHANGE (R449). -/
def rstNChange (s : State) (panel : Nat) (level : Bool) : State :=
  if s.params.panels ≤ panel then s
  else (if level then s else deviceReset s 2 0).upd (fun d => { d with pins := { d.pins with rstLow := mark (!level) panel d.pins.rstLow } })
def execRstNChange (level : Bool) (s : State) (panel : Nat := 0) : Out := .next (rstNChange s panel level)

/-- HOLD_IN_CHANGE (R510): k3_hold_i of another panel. -/
def holdInChange (s : State) (panel code : Nat) : State :=
  if panel = 0 ∨ s.params.panels ≤ panel ∨ 8 ≤ code then s
  else
    (if code = 0 then s else deviceReset s code 0).upd (fun d =>
      { d with pins := { d.pins with holdIn := if code = 0 then Tbl.del panel d.pins.holdIn else Tbl.set panel code d.pins.holdIn } })
def execHoldInChange (panel code : Nat) (s : State) : Out := .next (holdInChange s panel code)

/-- RESET_HOLD_EXPIRE (R448): 64 MCLK cycles after a `RESET_DEVICE` or the completing key write. -/
def execResetHoldExpire (s : State) : Out := .next (s.upd (fun d => { d with boot := { d.boot with hold := 0 } }))

/-- RESET_RELEASE (R449): every source has ceased; bring-up starts at phase 0 with the device time counter at 0. -/
def resetRelease (p : Params) (d : Dev) : Dev :=
  if d.boot.inReset && released p d then { d with boot := Boot.release, time := 0, aon := { d.aon with fresh := false } } else d
def execResetRelease (s : State) : Out := .next (s.upd (resetRelease s.params))

/-- TARGET_CHANNEL_READY (R454): 32 MCLK cycles after release. -/
def execTargetChannelReady (s : State) : Out :=
  .next (if s.dev.boot.inReset then s else s.upd (fun d => { d with boot := { d.boot with targetReady := true } }))

/-! ## The root-clock monitor (R455) -/

/-- A window of 32 k3_aonclk periods gives a frequency in range: each divided edge stands for 1,024 root periods, and the window for
1/1,024 s. -/
def clockInRange (edges : Nat) : Bool :=
  decide (1800000000 ≤ edges * 1048576) && decide (edges * 1048576 ≤ 2700000000)

/-- The monitor of a panel fails: it holds from the first failing result. -/
def monitorFail (s : State) (panel code : Nat) : State :=
  if s.params.panels ≤ panel then s
  else (deviceReset s code 0).upd (fun d => { d with aon := { d.aon with
    monitor := if d.aon.holds panel = 0 then Tbl.set panel code d.aon.monitor else d.aon.monitor
    goodWindows := Tbl.del panel d.aon.goodWindows } })

/-- ROOTCLK_WINDOW: out of range it holds the block in reset; two consecutive windows in range end the hold. -/
def rootclkWindow (s : State) (panel edges : Nat) : State :=
  if !clockInRange edges then monitorFail s panel 6
  else if s.dev.aon.holds panel = 0 ∨ s.dev.pins.pwrLow.contains panel then s
  else
    let a := s.dev.aon
    let next : Aon :=
      if Tbl.get 0 panel a.goodWindows = 0 then { a with goodWindows := Tbl.set panel 1 a.goodWindows }
      else { a with monitor := Tbl.del panel a.monitor, goodWindows := Tbl.del panel a.goodWindows }
    s.upd (fun d => { d with aon := next })
def execRootclkWindow (edges : Nat) (s : State) (panel : Nat := 0) : Out := .next (rootclkWindow s panel edges)

/-- ROOTCLK_MISSING: no divided edge within four k3_aonclk periods. -/
def execRootclkMissing (s : State) (panel : Nat := 0) : Out := .next (monitorFail s panel 5)

/-! ## The always-on supply, RESET_DEVICE and the fatal timer -/

/-- BACKUP_SUPPLY_FAILURE (R538): the always-on state at its power-up values; the root-clock monitor's present hold stays, for the clock is
what it was. -/
def execBackupSupplyFailure (s : State) : Out :=
  .next (s.upd (fun d => { d with aon := { Aon.powerUp with monitor := d.aon.monitor, goodWindows := d.aon.goodWindows } }))

/-- RESET_DEVICE at step 10: the MC accepts it; the 64-cycle hold begins. -/
def semResetDevice : OpSem :=
  ⟨rowResetDevice, noCheck, noOwn, mcTen (fun s _ => .later (s.upd (fun d => { d with boot := { d.boot with hold := 3 } })))⟩

/-- RESET_DEVICE (R289, R448, R450): it writes no reply. -/
def execResetDevice (q : QRef) (s : State) : Out :=
  let s1 := acceptRow semResetDevice q s
  .next (if s1.dev.boot.hold = 3 ∧ !s1.dev.boot.inReset then deviceReset s1 3 3 else s1)

/-- The units of R15 with arrays that R505 calls shared, by place in its table: dispatch unit, bobbin unit, tack store, seam network,
remap table of a stack port, MC. -/
def sharedUnits : List Nat := [3, 4, 5, 6, 7, 9]

/-- A double-bit error in a shared array (R505, R506): its KIND 11 record, and a device reset to follow after 10 ms. -/
def sharedError (d : Dev) (unit : Nat) : Dev :=
  if d.boot.inReset || !sharedUnits.contains unit then d
  else Dev.health { d with mc := { d.mc with fatal := true } } { status := .done, kind := 11, w4 := 2, w5 := BitVec.ofNat 64 unit }

/-- FATAL_RESET_TIMER (R504, R505): a shared error starts the 10 ms that a KIND 11 record gives; at their end the device resets. -/
def execFatalResetTimer (shared : Option Nat) (s : State) : Out :=
  .next (match shared with
    | some u => s.upd (fun d => sharedError d u)
    | none => if s.dev.mc.fatal then deviceReset s 3 3 else s)

end Sys2Proof.Machine
end

