-- ==== Sys2Proof/Machine/Links.lean ====
section
/-! DEFINITION. Panel links: training checks and maps (R498 to R501, R470), flits, replay, credits and relays (R527 to R532), lane and
module repair and the loss of a link (R502 to R504). -/

namespace Sys2Proof.Machine

/-! ## Links and their ends (R14) -/

/-- The panels of a link, lower first. -/
def linkEnds (l : Nat) : Nat × Nat :=
  match l with | 0 => (0, 1) | 1 => (1, 3) | 2 => (2, 3) | _ => (0, 2)

/-- The panel that a direction of a link runs toward. -/
def rxPanel (l : Nat) (up : Bool) : Nat := if up then (linkEnds l).2 else (linkEnds l).1

/-- The other link of a panel, and the direction away from the panel on it. -/
def otherLink (p : Params) (l panel : Nat) : Option (Nat × Bool) :=
  ((List.range p.links).find? (fun j => j != l && ((linkEnds j).1 == panel || (linkEnds j).2 == panel))).map
    (fun j => (j, (linkEnds j).1 == panel))

def Link.dir (x : Link) (up : Bool) : LinkDir := if up then x.up else x.down
def Link.setDir (x : Link) (up : Bool) (y : LinkDir) : Link := if up then { x with up := y } else { x with down := y }
def modDir (d : Dev) (l : Nat) (up : Bool) (f : LinkDir → LinkDir) : Dev :=
  let x := d.link l
  d.setLink l (x.setDir up (f (x.dir up)))

/-- Modules of a link end, spares included (R480). -/
def nModules : Nat := 26
/-- Lanes of a module, redundant lanes included (R480). -/
def nLanes : Nat := 68

/-- Modules that are not out of service; at most 24 of them carry flits (R501). -/
def LinkDir.usable (x : LinkDir) : Nat := nModules - x.out.length
/-- The modules in use: 0 to 23 as far as they are not out of service, each of those replaced by the lowest-numbered spare that is not (R501). A spare that
replaces none carries nothing (R480). -/
def LinkDir.inUse (x : LinkDir) : List Nat :=
  let base := (List.range 24).filter (fun m => !x.out.contains m)
  base ++ ([24, 25].filter (fun m => !x.out.contains m)).take (24 - base.length)
/-- A spare module is free: more than 24 are usable. -/
def LinkDir.spareFree (x : LinkDir) : Bool := decide (24 < x.usable)
def LinkDir.bad (x : LinkDir) (m : Nat) : List Nat := Tbl.get [] m x.badLanes

/-- The physical lane of a logical lane: a failing data lane is replaced by the next redundant lane that does not fail (R501, R527). -/
def physLane (bad : List Nat) (i : Nat) : Nat :=
  if bad.contains i then
    ([64, 65, 66, 67].filter (fun j => !bad.contains j)).getD ((bad.filter (fun j => decide (j < i))).length) 67
  else i

/-- Lane j of a module whose lane order is reversed faces lane 67 − j of the other end (R500). -/
def LinkDir.turned (x : LinkDir) (m j : Nat) : Nat := if x.rev.contains m then 67 - j else j
/-- The sending and the receiving lane of a logical lane of a module; failing lanes are counted at the receiver (R500, R501, R527). -/
def LinkDir.txLane (x : LinkDir) (m i : Nat) : Nat := physLane ((x.bad m).map (x.turned m)) i
def LinkDir.rxLane (x : LinkDir) (m i : Nat) : Nat := x.turned m (x.txLane m i)

/-- The words of a flit from _rxd of a module: bit 32 × lane + u is unit interval u of a receiving lane (R525, R527). -/
def LinkDir.flitWords (x : LinkDir) (m : Nat) (rxd : BitVec 2176) : List Word :=
  (List.range 32).map (fun u => (List.range 64).foldl (fun w i => w ||| placeB (rxd.getLsbD (32 * x.rxLane m i + u)) i) 0)

/-- _txd of a module that drives a flit; lanes that carry no logical lane are 0 (R525). -/
def LinkDir.txd (x : LinkDir) (m : Nat) (ws : List Word) : BitVec 2176 :=
  (List.range 64).foldl (fun b i => (List.range 32).foldl (fun b u =>
    if (wordAt ws u).getLsbD i then b ||| (1#2176 <<< (32 * x.txLane m i + u)) else b) b) 0

def LinkDir.map (x : LinkDir) : DirMap := ⟨x.out, x.badLanes, x.rev⟩
def LinkDir.ofMap (m : DirMap) : LinkDir := { LinkDir.zero with out := m.out, badLanes := m.badLanes, rev := m.rev }

/-- The cache entry of a link as it is now (R470, R502). -/
def cacheLink (d : Dev) (l : Nat) : Dev :=
  { d with aon := { d.aon with linkCache := Tbl.set l ⟨(d.link l).up.map, (d.link l).down.map⟩ d.aon.linkCache } }

/-! ## Training checks (R498 to R501) -/

/-- What a receiving lane recorded in stage 2 (R499). -/
inductive LaneClass where
  | straight | reversed | fails | shorted
  deriving DecidableEq, Repr

/-- The class of lane j from the 68-bit set of steps in which it saw ones. DESIGN CHOICE (log entry 54): a single step that is neither j nor
67 − j, which the table does not list, fails the lane alone. -/
def laneClass (j steps : Nat) : LaneClass :=
  let n := ((List.range nLanes).filter steps.testBit).length
  if n = 0 ∨ n = nLanes then .fails
  else if 2 ≤ n then .shorted
  else if steps.testBit j then .straight
  else if steps.testBit (67 - j) then .reversed
  else .fails

/-- The failing lanes of a module and whether its lane order is reversed; none when the module fails, or its PHY is not active (R498 to R501,
R525). -/
def trainModule (r : ModTrain) : Option (List Nat × Bool) :=
  if !r.clkOk || r.state != 2 then none
  else
    let cls (j : Nat) := laneClass j (r.steps.getD j 0)
    let lanes := List.range nLanes
    let shorted := lanes.filter (fun j => cls j == .shorted)
    let bad1 (j : Nat) : Bool := cls j == .fails || cls j == .shorted || shorted.any (fun i => (r.steps.getD i 0).testBit j)
    let str := lanes.filter (fun j => !bad1 j && cls j == .straight)
    let rev := lanes.filter (fun j => !bad1 j && cls j == .reversed)
    let isRev := decide (str.length < rev.length)
    let bad := lanes.filter (fun j => bad1 j || (if isRev then str.contains j else rev.contains j) || decide (1 < r.errs.getD j 0))
    if 4 < bad.length then none else some (bad, isRev)

/-- The map of one direction from the check of its modules; a module without a result was not seen and fails. -/
def dirMap (rs : List ModTrain) (l : Nat) (up : Bool) : DirMap :=
  let res (m : Nat) := (rs.find? (fun r => r.link == l && r.up == up && r.module == m)).bind trainModule
  let mods := List.range nModules
  { out := mods.filter (fun m => (res m).isNone)
    badLanes := mods.filterMap (fun m => match res m with | some (b :: bs, _) => some (m, b :: bs) | _ => none)
    rev := mods.filter (fun m => match res m with | some (_, v) => v | none => false) }

/-- The KIND 8 records of a direction trained in full (R501, R505). -/
def trainRecords (d : Dev) (l : Nat) (up : Bool) (m : DirMap) : Dev :=
  let spares := ([24, 25].filter (fun i => !m.out.contains i)).length
  let gone := m.out.filter (fun i => decide (i < 24))
  let d1 := (List.range gone.length).foldl (fun d i => linkRecord d (if i < spares then 1 else 3) (idLane l up (gone.getD i 0) 0)) d
  let data (i j : Nat) : Bool := decide ((LinkDir.ofMap m).turned i j < 64)
  let d2 := m.badLanes.foldl (fun d e => (e.2.filter (data e.1)).foldl (fun d j => linkRecord d 0 (idLane l up e.1 j)) d) d1
  m.rev.foldl (fun d i => linkRecord d 2 (idLane l up i 0)) d2

/-- Both directions have at least 16 modules (R501). -/
def mapForms (m : LinkMap) : Bool := decide (m.up.out.length ≤ nModules - 16) && decide (m.down.out.length ≤ nModules - 16)

/-- A link takes a map into use: it is formed, with fresh numbering and credits. -/
def useMap (d : Dev) (l : Nat) (m : LinkMap) : Dev :=
  d.setLink l { Link.zero with up := .ofMap m.up, down := .ofMap m.down, formed := true, phy := (d.link l).phy }

/-- One link trained in full: its cache entry goes at the start and is written on success (R470). The second component: formed. -/
def trainFull (d : Dev) (l : Nat) (rs : List ModTrain) : Dev × Bool :=
  let m : LinkMap := ⟨dirMap rs l true, dirMap rs l false⟩
  let d1 : Dev := { d with
    aon := { d.aon with linkCache := Tbl.del l d.aon.linkCache }
    boot := { d.boot with linkFull := d.boot.linkFull ||| 2 ^ l } }
  let d2 := trainRecords (trainRecords d1 l true m.up) l false m.down
  if mapForms m then (cacheLink (useMap d2 l m) l, true) else (d2, false)

/-- The _state inputs of the modules as the training results give them: those of the receiving end (R525). -/
def setPhy (d : Dev) (r : ModTrain) : Dev :=
  let x := d.link r.link
  d.setLink r.link { x with phy := Tbl.set ((if r.up then 26 else 0) + r.module) r.state x.phy }

/-- _train of every module of a link: the PHY trains from phase 5 on (R454, R526). -/
def trainOut (d : Dev) : Bool := !d.boot.inReset && decide (5 ≤ d.boot.phase)

/-- One link in phase 5: in a warm bring-up its cached map when the check passes, else full training (R470). -/
def trainLink (rs : List ModTrain) (acc : Dev × Bool) (l : Nat) : Dev × Bool :=
  let d := acc.1
  let fails (m : LinkMap) (r : ModTrain) : Bool :=
    r.link == l && (!r.cachedOk || (r.state != 2 && !(if r.up then m.up else m.down).out.contains r.module))
  match (if d.boot.warm then d.aon.linkCache.find? (fun e => e.1 == l && !rs.any (fails e.2)) else none) with
  | some e => (useMap d l e.2, acc.2)
  | none => let (d1, ok) := trainFull d l rs; (d1, acc.2 && ok)

/-! ## Flits (R527 to R529) -/

/-- XOR of words: the even parity of every lane. -/
def laneParity (ws : List Word) : Word := ws.foldl (· ^^^ ·) 0

/-- Lanes whose parity does not match. -/
def parityErrs (ws : List Word) : List Nat :=
  (List.range 64).filter (laneParity (ws.take 31) ^^^ wordAt ws 31).getLsbD

/-- CRC and lane parity match. -/
def flitGood (ws : List Word) : Bool := crc64 (wordsToBytes (ws.take 30)) == wordAt ws 30 && (parityErrs ws).isEmpty

def fType (ws : List Word) : Nat := fld (wordAt ws 0) 63 60
def fMseq (ws : List Word) : Nat := fld (wordAt ws 0) 59 50
def fMack (ws : List Word) : Nat := fld (wordAt ws 0) 49 40
def fLseq (ws : List Word) : Nat := fld (wordAt ws 0) 39 24

/-- A slot header (R529). MESH is carried as the mesh gives it; its layout is the mesh's own (log entry 86). -/
structure SlotHdr where
  v : Bool
  cls : Bool
  cont : Bool
  dpanel : Nat
  dkind : Nat
  didx : Nat
  mesh : Nat
  deriving DecidableEq, Repr

def SlotHdr.ofWord (w : Word) : SlotHdr := ⟨bitOf w 63, bitOf w 62, bitOf w 61, fld w 60 59, fld w 58 57, fld w 56 47, fld w 46 0⟩
def SlotHdr.word (h : SlotHdr) : Word :=
  placeB h.v 63 ||| placeB h.cls 62 ||| placeB h.cont 61 ||| place h.dpanel 59 ||| place h.dkind 57 ||| place h.didx 47 ||| place h.mesh 0

/-- The header of a message. -/
def msgHdr (m : List Word) : SlotHdr := SlotHdr.ofWord (wordAt m 0)

/-- The messages of a DATA flit: slot header and 8 words of every slot with V = 1. -/
def slotsOf (ws : List Word) : List (List Word) :=
  ((List.range 3).map (fun i => wordAt ws (2 + i) :: (ws.drop (6 + 8 * i)).take 8)).filter (fun m => (msgHdr m).v)

/-- A flit built from its header word and messages. -/
def mkFlit (hdr : Word) (ms : List (List Word)) : List Word :=
  let slot (i : Nat) : List Word := ms.getD i (List.replicate 9 0)
  let body := [hdr, 0, wordAt (slot 0) 0, wordAt (slot 1) 0, wordAt (slot 2) 0, 0] ++
    ((List.range 3).flatMap (fun i => (List.range 8).map (fun j => wordAt (slot i) (1 + j))))
  let crc := crc64 (wordsToBytes body)
  body ++ [crc, laneParity (body ++ [crc])]

/-! ## The loss of a link (R504) -/

/-- A lost link: its KIND 11 record, and a device reset to follow after 10 ms; its cached map goes, so that bring-up trains it in full (R504). -/
def loseLink (d : Dev) (l : Nat) : Dev :=
  let x := d.link l
  if !x.formed || x.lost then d
  else ({ d.setLink l { x with lost := true } with
      mc := { d.mc with fatal := true }, aon := { d.aon with linkCache := Tbl.del l d.aon.linkCache } }).health
    { status := .done, kind := 11, w4 := 1, w5 := BitVec.ofNat 64 l }

/-! ## Receiving (R530 to R532) -/

/-- Errors of a flit counted per physical lane, over 2^20 flits (R502, R530). -/
def countLanes (x : LinkDir) (m : Nat) (errs : List Nat) : LinkDir :=
  let base := if 2 ^ 20 ≤ x.flits + 1 then { x with laneErr := [], flits := 0 } else { x with flits := x.flits + 1 }
  { base with laneErr := errs.foldl (fun t i => let k := m * nLanes + x.rxLane m i; Tbl.set k (Tbl.get 0 k t + 1) t) base.laneErr }

/-- A mismatch: a NAK is owed with the last good MSEQ. DESIGN CHOICE (log entry 85): it counts as one more failure of the flit that is due when the flit that
arrived was damaged and no NAK was owed already. -/
def mismatch (x : LinkDir) (m : Nat) (damaged : Bool) : LinkDir :=
  { x with
    nak := Tbl.set m ((Tbl.get 0 m x.rxMseq + 1023) % 1024) x.nak
    fails := if damaged && !x.nak.any (fun e => e.1 == m) then Tbl.set m (Tbl.get 0 m x.fails + 1) x.fails else x.fails }

/-- The sending end learns what a good flit brings: flits acknowledged, credits returned. -/
def takeAcks (x : LinkDir) (m : Nat) (ws : List Word) : LinkDir :=
  let kept := Tbl.get [] m x.replay
  let kept' := if kept.any (fun f => fMseq f == fMack ws) then (kept.dropWhile (fun f => fMseq f != fMack ws)).drop 1 else kept
  { x with
    replay := Tbl.set m kept' x.replay
    crdReq := min 1024 (x.crdReq + fld (wordAt ws 0) 23 16)
    crdDat := min 1024 (x.crdDat + fld (wordAt ws 0) 15 8) }

/-- A NAK: every DATA flit after MACK is sent again, in order. -/
def takeNak (x : LinkDir) (m : Nat) : LinkDir :=
  { x with resend := x.resend.filter (fun e => e.1 != m) ++ (Tbl.get [] m x.replay).map (fun f => (m, f)) }

/-- Messages that leave the held flits in LSEQ order, and the state after; at most one pass over the flits held. -/
def inOrder : Nat → LinkDir → LinkDir × List (List Word)
  | 0, x => (x, [])
  | n + 1, x =>
    match x.held.find? (fun e => e.1 == x.rxLseq) with
    | none => (x, [])
    | some e =>
      let (y, ms) := inOrder n { x with held := Tbl.del e.1 x.held, rxLseq := (x.rxLseq + 1) % 65536 }
      (y, slotsOf e.2 ++ ms)

/-- A DATA flit: in MSEQ order it is held by LSEQ and delivered in LSEQ order; out of order it is a mismatch. The messages for this panel
are handed to its meshes, the others pass to its other link (R532). -/
def takeData (p : Params) (d : Dev) (l : Nat) (up : Bool) (m : Nat) (ws : List Word) : Dev :=
  let x := (d.link l).dir up
  if fMseq ws != Tbl.get 0 m x.rxMseq then modDir d l up (fun x => mismatch x m false)
  else
    let x1 := { x with
      rxMseq := Tbl.set m ((fMseq ws + 1) % 1024) x.rxMseq
      fails := Tbl.del m x.fails, nak := Tbl.del m x.nak, held := Tbl.set (fLseq ws) ws x.held }
    let (x2, ms) := inOrder x1.held.length x1
    let mine (w : List Word) : Bool := (msgHdr w).dpanel == rxPanel l up
    let dat := (ms.filter (fun w => (msgHdr w).cls)).length
    let d1 := modDir (modDir d l (!up) (fun y => takeAcks y m ws)) l up (fun _ => { x2 with
      delivered := ms.filter mine, freeDat := x2.freeDat + dat, freeReq := x2.freeReq + (ms.length - dat) })
    match otherLink p l (rxPanel l up) with
    | some (j, u) => modDir d1 j u (fun y => { y with outbox := y.outbox ++ ms.filter (fun w => !mine w) })
    | none => d1

/-- Counter 5: flits sent again (R486, R487). DESIGN CHOICE (log entry 55): its record names module 0 of the link, kind 6. -/
def countReplays (d : Dev) (l n : Nat) : Dev :=
  let x := d.link l
  let w := satAdd 32 x.replayWin n
  let d1 := d.setLink l { x with replayWin := w, replayTotal := satAdd 32 x.replayTotal n }
  if x.replayWin < threshold 5 ∧ threshold 5 ≤ w then healthRecord d1 5 6 0x3FF (idLane l false 0 0) w else d1

/-- A flit arrives on a module in use of one direction of a formed link (R530). Acknowledgements and credits count once: those of a DATA flit when it is
taken in order. A flit that fails its first sending and 16 replays in succession loses the link (R504). -/
def takeFlit (p : Params) (d : Dev) (l : Nat) (up : Bool) (m : Nat) (ws : List Word) : Dev :=
  let x := d.link l
  if !x.formed || x.lost || d.boot.inReset || !(x.dir up).inUse.contains m then d
  else
    let d1 := modDir d l up (fun y => countLanes y m (parityErrs ws))
    let acked (d : Dev) : Dev := modDir d l (!up) (fun y => takeAcks y m ws)
    let d2 :=
      if !flitGood ws then modDir d1 l up (fun y => mismatch y m true)
      else match fType ws with
        | 1 => takeData p d1 l up m ws
        | 2 => let d3 := acked d1
               countReplays (modDir d3 l (!up) (fun y => takeNak y m)) l (Tbl.get [] m ((d3.link l).dir (!up)).replay).length
        | _ => acked d1
    if 16 < Tbl.get 0 m ((d2.link l).dir up).fails then loseLink d2 l else d2

/-- FLIT_RECEIVE: the 2,176 bits of _rxd of a module, brought back to the 32 words of a flit by the lane map (R525, R527, R530). -/
def flitReceive (p : Params) (d : Dev) (l : Nat) (up : Bool) (m : Nat) (rxd : BitVec 2176) : Dev :=
  takeFlit p d l up m (((d.link l).dir up).flitWords m rxd)
def execFlitReceive (link : Nat) (up : Bool) (module : Nat) (rxd : BitVec 2176) (s : State) : Out :=
  .next (s.upd (fun d => flitReceive s.params d link up module rxd))

/-! ## Sending (R530 to R532) -/

/-- The messages that a class without credit does not hold up: neither class waits behind the other (R531). -/
def unblocked (x : LinkDir) : List (List Word) :=
  let isDat (w : List Word) : Bool := (msgHdr w).cls
  let need : Nat := match (x.outbox.filter isDat)[1]? with | some w => if (msgHdr w).cont then 2 else 1 | none => 1
  x.outbox.filter (fun w => if isDat w then Nat.ble need x.crdDat else Nat.ble 1 x.crdReq)

/-- The messages the next flit takes: up to three, each against a credit of its class, the halves of a data-mesh flit together (R529, R531). -/
def fillSlots (x : LinkDir) : List (List Word) :=
  let ms := unblocked x
  let isDat (w : List Word) : Bool := (msgHdr w).cls
  let cont (i : Nat) : Bool := match ms[i]? with | some w => (msgHdr w).cont | none => false
  let fits (n : Nat) : Bool :=
    decide (n ≤ ms.length) && !cont n && decide (((ms.take n).filter isDat).length ≤ x.crdDat) &&
    decide (((ms.take n).filter (fun w => !isDat w)).length ≤ x.crdReq)
  if fits 3 then ms.take 3 else if fits 2 then ms.take 2 else if fits 1 then ms.take 1 else []

/-- Acknowledgement and credit fields of a flit on a module: what the other direction has received and freed. -/
def ackFields (o : LinkDir) (m : Nat) : Word :=
  place ((Tbl.get 0 m o.rxMseq + 1023) % 1024) 40 ||| place (min 255 o.freeReq) 16 ||| place (min 255 o.freeDat) 8

/-- What a module drives in one flit time: a flit to be sent again, a NAK that it owes, new messages when it has replay room, or an IDLE flit with its
acknowledgement and credits. Nothing new is sent during a replacement (R502, R530 to R532). -/
def driveModule (l : Nat) (up : Bool) (d : Dev) (m : Nat) : Dev :=
  let x := (d.link l).dir up
  let o := (d.link l).dir (!up)
  let drive (d : Dev) (f : List Word) : Dev := modDir d l up (fun x => { x with driven := x.driven ++ [(m, f)] })
  let credited (d : Dev) : Dev :=
    modDir d l (!up) (fun o => { o with freeReq := o.freeReq - min 255 o.freeReq, freeDat := o.freeDat - min 255 o.freeDat, nak := Tbl.del m o.nak })
  match x.resend.find? (fun e => e.1 == m) with
  | some e => drive (modDir d l up (fun x => { x with resend := x.resend.erase e })) e.2
  | none =>
    if o.nak.any (fun e => e.1 == m) then credited (drive d (mkFlit (place 2 60 ||| ackFields o m) []))
    else
      match (if x.repairing.isSome || 64 ≤ (Tbl.get [] m x.replay).length then [] else fillSlots x) with
      | [] => credited (drive d (mkFlit (ackFields o m) []))
      | w :: ws =>
        let seq := Tbl.get 0 m x.txMseq
        let f := mkFlit (place 1 60 ||| place seq 50 ||| place x.txLseq 24 ||| ackFields o m) (w :: ws)
        let dat := ((w :: ws).filter (fun w => (msgHdr w).cls)).length
        credited (drive (modDir d l up (fun x => { x with
          outbox := (w :: ws).foldl List.erase x.outbox, txMseq := Tbl.set m ((seq + 1) % 1024) x.txMseq
          txLseq := (x.txLseq + 1) % 65536, lastMod := m, crdDat := x.crdDat - dat, crdReq := x.crdReq - (ws.length + 1 - dat)
          replay := Tbl.set m (Tbl.get [] m x.replay ++ [f]) x.replay })) f)

/-- One flit time of a sending end: every module in use drives a flit, those that stay in service unusable apart, in rotating order after the one that
took the last new flit (R503, R530, R532). -/
def sendFlit (d : Dev) (l : Nat) (up : Bool) : Dev :=
  let lk := d.link l
  let x := lk.dir up
  if !lk.formed || lk.lost then d
  else ((rotation x.lastMod nModules).filter (fun m => x.inUse.contains m && !x.dead.contains m)).foldl (driveModule l up)
    (modDir d l up (fun x => { x with driven := [] }))

/-! ## Lane and module repair in service (R502, R503) -/

/-- A module's replacement begins, or it stays in service for want of a spare. `forced`: a `RETIRE` of the module, which needs no spare. -/
def startModule (d : Dev) (l : Nat) (up : Bool) (m : Nat) (forced : Bool) (uid : Option Nat) : Dev × Bool :=
  if forced || ((d.link l).dir up).spareFree then (modDir d l up (fun x => { x with repairing := some ⟨m, none, uid⟩ }), true)
  else (linkRecord d 3 (idLane l up m 0), false)

/-- A lane's replacement begins, or its module's when the module has no free redundant lane. -/
def startLane (d : Dev) (l : Nat) (up : Bool) (m lane : Nat) (uid : Option Nat) : Dev × Bool :=
  if (((d.link l).dir up).bad m).length < 4 then (modDir d l up (fun x => { x with repairing := some ⟨m, some lane, uid⟩ }), true)
  else startModule d l up m false uid

/-- Lanes of a module that gathered 64 errors. -/
def wornLane (x : LinkDir) (m : Nat) : Option Nat :=
  lowest nLanes (fun j => decide (64 ≤ Tbl.get 0 (m * nLanes + j) x.laneErr) && !(x.bad m).contains j)

/-- LANE_REPAIR: the controller replaces a worn lane, or a module whose clock or valid lane stopped. A module that has to stay is not
usable; fewer than 16 usable modules lose the link (R504). -/
def laneRepair (d : Dev) (l : Nat) (up : Bool) (m : Nat) (clkStopped : Bool) : Dev :=
  let x := (d.link l).dir up
  if !(d.link l).formed || (d.link l).lost || d.boot.inReset || x.repairing.isSome || !x.inUse.contains m then d
  else if clkStopped then
    let (d1, ok) := startModule d l up m false none
    if ok then d1
    else
      let d2 := modDir d1 l up (fun x => { x with dead := x.dead.filter (· != m) ++ [m] })
      if x.usable - ((d2.link l).dir up).dead.length < 16 then loseLink d2 l else d2
  else match wornLane x m with
    | some j => (startLane d l up m j none).1
    | none => d
def execLaneRepair (link : Nat) (up : Bool) (module : Nat) (clkStopped : Bool) (s : State) : Out :=
  .next (s.upd (fun d => laneRepair d link up module clkStopped))

/-- The new map of a replacement: a lane joins the failing lanes, or a module leaves service. -/
def applyRepair (x : LinkDir) (r : Repair) : LinkDir :=
  let y := { x with laneErr := x.laneErr.filter (fun e => e.1 / nLanes != r.module), repairing := none }
  match r.lane with
  | some j => { y with badLanes := Tbl.set r.module (y.bad r.module ++ [j]) y.badLanes }
  | none => { y with out := y.out ++ [r.module], dead := y.dead.filter (· != r.module), replay := Tbl.del r.module y.replay }

/-- Every flit in flight of a direction is settled (R502). -/
def LinkDir.settled (x : LinkDir) : Bool := x.resend.isEmpty && x.replay.all (fun e => e.2.isEmpty)

/-- LANE_REPAIR_DONE: once the flits in flight are settled, the new map is applied, the cache updated, a KIND 8 record written; a `RETIRE` that asked for it completes. -/
def laneRepairDone (s : State) (l : Nat) (up : Bool) : State :=
  let x := (s.dev.link l).dir up
  match x.repairing with
  | none => s
  | some r =>
    if !x.settled then s else
    let code := if r.lane.isSome then 0 else if x.spareFree then 1 else 3
    let s1 := s.upd (fun d => cacheLink (linkRecord (modDir d l up (fun x => applyRepair x r)) code (idLane l up r.module (r.lane.getD 0))) l)
    match r.uid with
    | some u => completePkt s1 (.ctl 0) u
    | none => s1
def execLaneRepairDone (link : Nat) (up : Bool) (s : State) : Out := .next (laneRepairDone s link up)

end Sys2Proof.Machine
end

