-- ==== Sys2Proof/Machine/Microcode.lean ====
section
/-! DEFINITION. Firmware and microcode: images and their checks (R473, R474), microcode pages and phase 7 (R475, R476, R481), FW_LOAD and
the quiesce (R477 to R479), the SPDM responder (R560 to R562), and what the MC reads from host memory for them. -/

namespace Sys2Proof.Machine

/-! ## Images (R473, R474) -/

namespace FwImage
def num (bs : List Byte) (at_ n : Nat) : Nat := leNat ((bs.drop at_).take n)
def kind (bs : List Byte) : Nat := num bs 4 1
def version (bs : List Byte) : Nat := num bs 6 2
def bodyBytes (bs : List Byte) : Nat := num bs 8 4
/-- The site a KIND 3 image is for. -/
def target (bs : List Byte) : Nat × Nat := (num bs 5 1, num bs 12 2)
def body (bs : List Byte) : List Byte := (bs.drop 512).take (bodyBytes bs)
/-- The largest body of a kind. -/
def limit (k : Nat) : Nat := if k = 1 then 196608 else 261888
end FwImage

/-- A digest as 48 bytes. -/
def digest (bs : List Byte) : List Byte := (List.range 48).map (byteAt (Config.sha384 bs))

/-- DIGEST matches the body. -/
def digestOk (bs : List Byte) : Bool := digest (FwImage.body bs) == (bs.drop 16).take 48

/-- An image verifies as one of the kinds expected (R474). A microcode VERSION above 255 does not (R473). -/
def fwImageOk (minFw minUc : Nat) (kinds : List Nat) (bs : List Byte) : Bool :=
  let k := FwImage.kind bs
  decide (512 ≤ bs.length) && FwImage.num bs 0 4 == 0x4B334657 && kinds.contains k &&
  (k == 3 || FwImage.target bs == (0, 0)) && FwImage.num bs 14 2 == 0 && allZero ((bs.drop 160).take 352) &&
  decide (FwImage.bodyBytes bs ≤ FwImage.limit k) && decide (512 + FwImage.bodyBytes bs ≤ bs.length) && digestOk bs &&
  Config.signatureOk (bs.take 160) && decide ((if k = 1 then minFw else minUc) ≤ FwImage.version bs) &&
  (k == 1 || decide (FwImage.version bs < 256))

/-- Pages of a microcode body (R475). -/
def pagesOf (body : List Byte) : Nat := ceilDiv body.length 4092

/-- A page of a microcode body: at most 4,092 bytes of it, zero-filled, and their CRC-32 (R475). -/
def pageBytes (part : List Byte) : List Byte :=
  let bs := part ++ List.replicate (4092 - part.length) 0
  bs ++ leBytes 4 (crc32 bs).toNat

/-- The image region that holds a microcode body (R475). -/
def imageRegion (body : List Byte) : List Byte := (List.range (pagesOf body)).flatMap (fun p => pageBytes ((body.drop (4092 * p)).take 4092))

/-- Page p of the image region, as panel 0 serves it. -/
def Mc.page (m : Mc) (p : Nat) : List Byte := (m.region.drop (4096 * p)).take 4096

/-- The MC writes a microcode body into the image region (R475, R477). -/
def Mc.hold (m : Mc) (body : List Byte) : Mc := { m with npages := pagesOf body, region := imageRegion body }

/-- A page that reached a site matches its CRC (R475, R476). -/
def pageOk (got : List Byte) : Bool := got.length == 4096 && leNat (got.drop 4092) == (crc32 (got.take 4092)).toNat

/-! ## Sites (R462, R476, R481) -/

/-- DEFECT_MAP marks a site (R459). -/
def defective (d : Dev) (k : Nat) : Bool :=
  (byteAt d.opts.copy (0x20 + 24 * keyPanel k + keySite k / 8)).toNat.testBit (keySite k % 8)

/-- Site keys of the panels brought up. -/
def liveSites (p : Params) (d : Dev) : List Nat :=
  (List.range (livePanels p d)).flatMap (fun pl => (List.range p.sites).map (siteKey pl))

/-- A site qualifies for service (R481); in the safe configuration those of core row 0 do (R462). -/
def qualifies (d : Dev) (k : Nat) : Bool := !defective d k && !(d.site k).svcRetired && (!d.opts.safe || decide (k < 12))

/-- The sites chosen for service in a panel: the first A that qualify, in site order; all 12 of row 0 in the safe configuration. -/
def chosen (p : Params) (d : Dev) (panel : Nat) : List Nat :=
  (((List.range p.sites).map (siteKey panel)).filter (qualifies d)).take (if d.opts.safe then 12 else p.activePerPanel)

/-- A site fetches microcode in phase 7. -/
def fetches (d : Dev) (k : Nat) : Bool := qualifies d k && !(d.site k).bistBad

/-- A site that fetches has neither ended nor failed. -/
def fetchPending (d : Dev) (k : Nat) : Bool := fetches d k && !(d.site k).fetched && (d.site k).st != .failed

/-- One logical index given out (R12, R476): to its site, or to the lowest spare of the panel that fetched correctly, or to none. -/
def giveIndex (spares : List Nat) (d : Dev) (e : Nat × Nat) : Dev :=
  let (idx, k) := e
  let hold (d : Dev) (k : Nat) (st : SiteState) : Dev :=
    { d with logical := Tbl.set idx (k + 1) d.logical }.modSite k (fun x => { x with st := st, index := idx + 1 })
  if (d.site k).fetched then hold d k .active
  else match spares.find? (fun j => keyPanel j == keyPanel k && (d.site j).st == .spare && (d.site j).fetched) with
    | some j => let d1 := hold d j .gusset; { d1 with boot := { d1.boot with gussets := d1.boot.gussets + 1 } }
    | none => { d with lastSite := Tbl.set idx k d.lastSite }

/-- Every counter of R486 at 0: its total counts from READY, its first window begins there (R484). -/
def zeroCounts (d : Dev) : Dev :=
  { d with
    sites := Tbl.mapv (fun x => { x with ceWin := 0, ceTotal := 0, rowCe := [], colCe := [], rowTotal := [], colTotal := [] }) d.sites
    ports := Tbl.mapv (fun q => { q with ceWin := 0, ceTotal := 0, ueTotal := 0, unitCe := [], unitTotal := [] }) d.ports
    links := Tbl.mapv (fun l => { l with replayWin := 0, replayTotal := 0 }) d.links }

/-- READY: the block is in service (R467, R468, R484, R540). -/
def becomeReady (d : Dev) : Dev :=
  let b := { d.boot with ready := true, phase := 15 }
  { zeroCounts d with
    boot := b
    aon := { d.aon with lastLc := d.opts.lifecycle }
    mc := { d.mc with windowStart := d.time, share := 32, pwrSum := 0, pwrCount := 0, readyStatus := bringupStatus b } }

/-- The end of phase 7, once every site has fetched or failed: indices, gussets, then READY or ERROR 4 (R472, R476). -/
def endPhase7 (p : Params) (d : Dev) : Dev :=
  if (liveSites p d).any (fetchPending d) then d
  else
    let ks := (List.range (livePanels p d)).flatMap (chosen p d)
    let spares := (liveSites p d).filter (fun k => !ks.contains k)
    let d1 := (List.zip (List.range ks.length) ks).foldl (giveIndex spares) d
    if activeCores d1 = 0 then { d1 with boot := { d1.boot with error := 4 } } else becomeReady d1

/-- A site at the start of phase 7: defective, retired by the service record, failed at BIST (R550), or about to fetch. DESIGN CHOICE (log entry 48):
sites that the safe configuration does not bring up count as retired. -/
def primeSite (d : Dev) (k : Nat) : Dev :=
  let x := d.site k
  let st : SiteState := if defective d k then .defective else if !qualifies d k then .retired else if x.bistBad then .failed else .spare
  let d1 := d.setSite k { x with st := st, index := 0, pages := 0, misses := 0, fetched := st == .spare && d.mc.npages == 0 }
  if st == .failed then { d1 with boot := { d1.boot with fetchFailed := d1.boot.fetchFailed + 1 } } else d1

/-- Phase 7 begins. -/
def beginPhase7 (p : Params) (d : Dev) : Dev :=
  let all := (List.range p.panels).flatMap (fun pl => (List.range p.sites).map (siteKey pl))
  let d1 := all.foldl primeSite { d with boot := { d.boot with phase := 7, error := 0 } }
  endPhase7 p d1

/-! ## Pages (R476) -/

/-- A page arrives at a site: the next one, or a mismatch; the fourth mismatch fails the site. -/
def takePage (npages : Nat) (crcOk : Bool) (x : Site) : Site :=
  if crcOk then { x with pages := x.pages + 1, misses := 0, fetched := decide (npages ≤ x.pages + 1) }
  else if 3 ≤ x.misses then { x with st := .failed, misses := 0 }
  else { x with misses := x.misses + 1 }

/-- A site counted in FETCH_FAILED. -/
def countFailed (d : Dev) (k : Nat) : Dev :=
  if (d.site k).st == .failed then { d with boot := { d.boot with fetchFailed := d.boot.fetchFailed + 1 } } else d

/-- A pending insertion of a failed spare is dropped (R492). -/
def dropInserts (d : Dev) (k : Nat) : Dev :=
  let gone := d.mc.changes.filter (fun c => c.insert && c.spare == k)
  gone.foldl dropChange { d with mc := { d.mc with changes := d.mc.changes.filter (fun c => !(c.insert && c.spare == k)) } }

/-- A site that failed a refetch in service or as a spare (R478, R479): a core is removed as for an uncorrectable error, a spare fails. -/
def failRefetch (s : State) (k : Nat) : State :=
  if (siteIndex s.dev k).isSome then removeCore s k
  else s.upd (fun d => spareGone s.params (dropInserts (d.modSite k (fun x => { x with st := .failed, fetched := false })) k) (keyPanel k))

/-! ## Reads of host memory (R477, R561) -/

/-- The MC's next piece is asked for: at most up to the next 256-byte boundary; not while a quiesce or a refetch runs. -/
def pump (d : Dev) : Dev :=
  match d.mc.reads with
  | [] => d
  | r :: _ =>
    if d.mc.quiesce.isSome || d.mc.single.isSome || d.host.reqs.any (fun x => x.use == .mcRead r.uid) then d
    else d.issue r.func 0 r.addr [] (List.replicate (min r.left (256 - r.addr % 256)) true) (.mcRead r.uid)

/-- One more read for the MC. -/
def mcStart (d : Dev) (r : McRead) : Dev := pump { d with mc := { d.mc with reads := d.mc.reads ++ [r] } }

/-- A packet that the MC executed ends with a status and a value. -/
def mcEnd (s : State) (f uid : Nat) (st : Status) (v : Word) : State :=
  completePkt (s.upd (fun d => d.modPkt (.ctl f) uid (fun p => { p with status := st, value := v }))) (.ctl f) uid

/-! ## FW_LOAD (R477 to R479) -/

/-- An image comes into service when its packet retires; at once when the packet is gone. -/
def newImage (d : Dev) (n : NewImage) : Dev := settleImages { d with mc := { d.mc with coming := d.mc.coming ++ [n] } }

/-- At ERROR 3 bring-up goes on at phase 7 once an image of each kind has been verified (R472). -/
def goOn (p : Params) (d : Dev) : Dev :=
  let has (u : Bool) : Bool := d.mc.coming.any (fun n => n.isUc == u)
  if d.error3 && (d.mc.fwOk || has false) && (d.mc.ucOk || has true) then beginPhase7 p d else d

/-- The second reading of a KIND 1 image: DIGEST checked again; when it fails, the boot-area firmware starts. -/
def fwSecond (s : State) (uid : Nat) (ok : Bool) (img : List Byte) : State :=
  if ok then
    let s1 := s.upd (fun d => newImage d ⟨uid, false, FwImage.version img, FwImage.body img⟩)
    mcEnd (s1.upd (goOn s.params)) 0 uid .done 0
  else
    let back (m : Mc) : Mc := match m.bootFw with
      | some e => { m with mcFw := e.1, fwBody := e.2, fwOk := true }
      | none => m
    mcEnd (s.upd (fun d => { d with mc := back d.mc })) 0 uid .badParam 0

/-- The site that a KIND 3 image names may be refetched (R479). -/
def targetIdle (p : Params) (d : Dev) (t : Nat × Nat) : Bool :=
  let k := siteKey t.1 t.2
  decide (t.1 < p.panels) && decide (t.2 < p.sites) && d.boot.ready &&
  (match siteIndex d k with
   | none => (d.site k).st == .spare
   | some i => (d.core k).cmds.isEmpty && (d.core k).fitting.isNone && !gangBound d i)

/-- An image has been read whole and verified as far as R474: what its KIND does. -/
def fwVerified (s : State) (r : McRead) (img : List Byte) : State :=
  match FwImage.kind img with
  | 1 => s.upd (fun d => { d with mc := { d.mc with reads :=
      ({ r with addr := r.addr - img.length, left := img.length, got := [], first := some img } : McRead) :: d.mc.reads } })
  | 2 =>
    if s.dev.boot.ready then s.upd (fun d => { d with mc := { d.mc.hold (FwImage.body img) with quiesce := some (r.uid, img) } })
    else
      let s1 := s.upd (fun d => newImage { d with mc := d.mc.hold (FwImage.body img) } ⟨r.uid, true, FwImage.version img, FwImage.body img⟩)
      mcEnd (s1.upd (goOn s.params)) 0 r.uid .done 0
  | _ =>
    if !targetIdle s.params s.dev (FwImage.target img) then mcEnd s 0 r.uid .storeBusy 0
    else if FwImage.version img != s.dev.mc.ucode then mcEnd s 0 r.uid .badParam 0
    else
      let k := siteKey (FwImage.target img).1 (FwImage.target img).2
      s.upd (fun d => { d with mc := { d.mc.hold (FwImage.body img) with single := some (r.uid, k, img) } }.modSite k (fun x =>
        { x with pages := 0, misses := 0, fetched := false }))

/-- The read of an `FW_LOAD` ended. -/
def fwRead (s : State) (r : McRead) : State :=
  match r.first with
  | some img => fwSecond s r.uid (digest (FwImage.body r.got) == (img.drop 16).take 48) img
  | none =>
    if r.got.length = 512 + FwImage.bodyBytes r.got ∧ fwImageOk s.dev.opts.minMcFw s.dev.opts.minUcode [1, 2, 3] r.got then fwVerified s r r.got
    else mcEnd s 0 r.uid .badParam 0

/-- The bridge answered a piece of an `FW_LOAD` with an error. -/
def fwError (s : State) (r : McRead) : State :=
  match r.first with
  | some img => fwSecond s r.uid false img
  | none => mcEnd s 0 r.uid .permFault 0

/-- FW_LOAD at step 10: a length that no image has is refused at once, any other is read. -/
def fwLoadTen (s : State) (p : Pkt) : Ten :=
  let n := (p.b 1).toNat
  if n < 512 ∨ 512 + 261888 < n then .fail s .badParam
  else .later (s.upd (fun d => mcStart d ⟨0, p.uid, (p.b 0).toNat, n, [], none, none⟩))

def semFwLoad : OpSem := ⟨rowFwLoad, noCheck, noOwn, mcTen fwLoadTen⟩

/-- FW_LOAD (R477). -/
def execFwLoad (q : QRef) (s : State) : Out := .next (acceptRow semFwLoad q s)

/-! ## MICROCODE_PAGE_FETCH, QUIESCE_REFETCH, FW_QUIESCE_TIMEOUT -/

/-- The refetch of KIND 3 ended: its packet completes (R479). -/
def endSingle (s : State) (uid k : Nat) (ok : Bool) : State :=
  let s1 := s.upd (fun d => { d with mc := { d.mc with single := none } })
  let s2 := if ok then s1 else failRefetch (s1.upd (fun d => if (siteIndex d k).isSome then d else countFailed d k)) k
  (mcEnd s2 0 uid .done 0).upd pump

/-- MICROCODE_PAGE_FETCH: a page arrives at a site that fetches, in phase 7 or for a KIND 3 image; the site checks its CRC (R475, R476, R479). -/
def pageFetch (s : State) (k page : Nat) (got : List Byte) : State :=
  let x := s.dev.site k
  let crcOk := pageOk got
  if x.pages != page then s
  else match s.dev.mc.single with
  | some (uid, j, _) =>
    if j != k then s
    else
      let y := takePage s.dev.mc.npages crcOk x
      let bad := !crcOk && decide (3 ≤ x.misses)
      let s1 := s.upd (fun d => d.setSite k (if bad && (siteIndex d k).isSome then x else y))
      if bad then endSingle s1 uid k false else if y.fetched then endSingle s1 uid k true else s1
  | none =>
    if s.dev.boot.inReset || s.dev.boot.phase != 7 || s.dev.boot.error != 0 || !(liveSites s.params s.dev).contains k || !fetchPending s.dev k then s
    else s.upd (fun d => endPhase7 s.params (countFailed (d.modSite k (takePage d.mc.npages crcOk)) k))
def execMicrocodePageFetch (panel site page : Nat) (got : List Byte) (s : State) : Out := .next (pageFetch s (siteKey panel site) page got)

/-- Every accepted packet of every work queue has retired (R478). -/
def quiesced (d : Dev) : Bool := d.queues.all (fun e => e.2.flight.all (fun p => p.stage != .left))

/-- QUIESCE_REFETCH: every site in service and every spare that fetched refetches; `failed` names those whose refetch fails (R478). -/
def quiesceRefetch (s : State) (failed : List Nat) : State :=
  match s.dev.mc.quiesce with
  | none => s
  | some (uid, img) =>
    if !quiesced s.dev then s
    else
      let ks := (liveSites s.params s.dev).filter (fun k => failed.contains k && ((siteIndex s.dev k).isSome || (s.dev.site k).st == .spare))
      let s1 := s.upd (fun d => newImage { d with mc := { d.mc with quiesce := none } }
        ⟨uid, true, FwImage.version img, FwImage.body img⟩)
      (mcEnd (ks.foldl failRefetch s1) 0 uid .done 0).upd pump
def execQuiesceRefetch (failed : List Nat) (s : State) : Out := .next (quiesceRefetch s failed)

/-- FW_QUIESCE_TIMEOUT: the quiesce is not complete within 1 s (R478). -/
def quiesceTimeout (s : State) : State :=
  match s.dev.mc.quiesce with
  | none => s
  | some (uid, _) =>
    if quiesced s.dev then s
    else (mcEnd (s.upd (fun d => { d with mc := { d.mc with quiesce := none } })) 0 uid .storeBusy 0).upd pump
def execFwQuiesceTimeout (s : State) : Out := .next (quiesceTimeout s)

/-! ## SPDM (R560 to R562) -/

/-- The measurements (R562). -/
def measurements (d : Dev) : List (List Byte) :=
  let zeros := List.replicate 48 (0 : Byte)
  let noId : List Byte := d.opts.copy.take 0x400 ++ List.replicate 256 0 ++ d.opts.copy.drop 0x500
  [ digest Config.mcRom, digest d.mc.fwBody, digest d.mc.ucBody,
    if d.aon.source < 2 then digest noId else zeros,
    wordsToBytes [idDevice d, idClock d &&& 0xF0000000F0000000#64],
    if d.mc.svcCopy.isEmpty then zeros else digest d.mc.svcCopy,
    wordsToBytes [d.mc.readyStatus] ]

/-- A request that receives ERROR UnsupportedRequest (R560). PRESUMED (log entry 59): the request codes of SPDM 1.3, which the manual names only by
message. -/
def spdmUnsupported (d : Dev) (req : List Byte) : Bool :=
  let code := (byteAt req 1).toNat
  let noCert := d.mc.identity.isEmpty || d.mc.slot0.isEmpty
  if code = 0x84 ∨ code = 0xE1 ∨ code = 0xE3 then false
  else if code = 0x81 ∨ code = 0x82 ∨ code = 0x83 then noCert
  else if code = 0xE0 then (byteAt req 2).getLsbD 0 && noCert
  else if code = 0xFE then d.opts.lifecycle != 1
  else true

/-- The response to a request. -/
def spdmAnswer (d : Dev) (f : Nat) (req : List Byte) : List Byte :=
  if spdmUnsupported d req then [0x13#8, 0x7F#8, 0x07#8, byteAt req 1]
  else Config.spdmResponse f d.freeCtr req (measurements d) (d.mc.identity ++ d.mc.slot0)

/-- Bytes written to host memory by the MC: one request per 256-byte block. -/
def mcWrite (d : Dev) (f addr : Nat) (data : List Byte) : Nat → Dev
  | 0 => d
  | n + 1 =>
    if data.isEmpty then d
    else
      let k := 256 - addr % 256
      mcWrite (d.issueWrite f addr (data.take k) .mcWrite) f (addr + k) (data.drop k) n

/-- The whole of a byte string written to host memory. -/
def mcWriteAll (d : Dev) (f addr : Nat) (data : List Byte) : Dev := mcWrite d f addr data (data.length / 256 + 2)

/-- The request of an `SPDM` has been read: its response is written, or the length needed is reported. -/
def spdmRead (s : State) (r : McRead) (dst cap : Nat) : State :=
  let resp := spdmAnswer s.dev r.func r.got
  let s1 := s.upd Dev.draw
  if cap < resp.length then mcEnd s1 r.func r.uid .badParam (BitVec.ofNat 64 resp.length)
  else mcEnd (s1.upd (fun d => mcWriteAll d r.func dst resp)) r.func r.uid .done (BitVec.ofNat 64 resp.length)

/-- SPDM at step 6: one request of at most 4,096 bytes. DESIGN CHOICE (log entry 59): an empty request is refused too. -/
def semSpdm : OpSem :=
  ⟨rowSpdm, fun _ p => decide (1 ≤ (p.b 1).toNat) && decide ((p.b 1).toNat ≤ 4096), noOwn, mcTen (fun s p =>
    .later (s.upd (fun d => mcStart d ⟨p.func, p.uid, (p.b 0).toNat, (p.b 1).toNat, [], none, some ((p.b 2).toNat, (p.b 3).toNat)⟩)))⟩

/-- SPDM (R561). -/
def execSpdm (q : QRef) (s : State) : Out := .next (acceptRow semSpdm q s)

/-! ## The answer to a piece -/

/-- A piece of the MC's first read has arrived, or its request was answered with an error. -/
def mcAnswer (s : State) (uid : Nat) (err : Bool) (data : List Byte) : State :=
  match s.dev.mc.reads with
  | [] => s
  | r :: rs =>
    if r.uid != uid then s
    else
      let s0 := s.upd (fun d => { d with mc := { d.mc with reads := rs } })
      let r' := { r with addr := r.addr + data.length, left := r.left - data.length, got := r.got ++ data }
      if err then (match r.reply with | some _ => mcEnd s0 r.func uid .permFault 0 | none => fwError s0 r)
      else if r'.left = 0 then (match r.reply with | some e => spdmRead s0 r' e.1 e.2 | none => fwRead s0 r')
      else s.upd (fun d => { d with mc := { d.mc with reads := r' :: rs } })

end Sys2Proof.Machine
end

