-- ==== Sys2Proof/Machine/Bringup.lean ====
section
/-! DEFINITION. Bring-up: option records (R458 to R467), the phases and their errors (R468 to R472), SRAM BIST and repair (R548 to R550), the
service record (R495 to R497), and identity (R558, R559). -/

namespace Sys2Proof.Machine

/-! ## The option record (R459, R460) -/

namespace Opt
/-- Word Wn of a copy. -/
def w (bs : List Byte) (n : Nat) : Word := BitVec.ofNat 64 (leNat ((bs.drop (8 * n)).take 8))
def lifecycle (bs : List Byte) : Nat := fld (w bs 0) 2 0
def grade (bs : List Byte) : Nat := fld (w bs 1) 63 60
def crcField (bs : List Byte) : BitVec 32 := BitVec.ofNat 32 (leNat ((bs.drop 0xFFC).take 4))
end Opt

/-- CCLK_MHZ and the package power cap of a grade (R9). -/
def gradeOf : Nat → Option (Nat × Nat)
  | 0 => some (1300, 1800)
  | 1 => some (1150, 1450)
  | 2 => some (950, 1100)
  | _ => none

/-- GRADE, CCLK_MHZ and POWER_CAP_W agree with R9. -/
def gradeOk (bs : List Byte) : Bool :=
  match gradeOf (Opt.grade bs) with
  | some (mhz, cap) => fld (Opt.w bs 1) 59 48 == mhz && decide (1 ≤ fld (Opt.w bs 1) 47 32) && decide (fld (Opt.w bs 1) 47 32 ≤ cap)
  | none => false

/-- DEFECT_MAP has no bit beyond the sites of the instance. -/
def defectOk (p : Params) (bs : List Byte) : Bool :=
  (List.range 4).all (fun pl => (List.range 192).all (fun i =>
    (decide (pl < p.panels) && decide (i < p.sites)) || !(byteAt bs (0x20 + 24 * pl + i / 8)).toNat.testBit (i % 8)))

/-- The reserved fields of REPAIR and of IDENTITY: bit 10 of every entry, all of an entry with V = 0, and bytes 0x464 to 0x4FF (R549, R558). -/
def optReserved (bs : List Byte) : Bool :=
  (List.range 224).all (fun i => let v := leNat ((bs.drop (0x80 + 4 * i)).take 4); if v.testBit 31 then !v.testBit 10 else v == 0) &&
  allZero ((bs.drop 0x464).take 0x9C)

/-- A copy is valid (R460). DEDUCED (log entry 45): the reserved fields meant are those of the tables of R459, R549 and R558. -/
def optValid (p : Params) (lastLc : Nat) (bs : List Byte) : Bool :=
  bs.length == 4096 && fld (Opt.w bs 0) 63 32 == 0x4B334F52 && fld (Opt.w bs 0) 31 24 == 1 && fld (Opt.w bs 0) 23 3 == 0 &&
  fld (Opt.w bs 1) 31 3 == 0 && fld (Opt.w bs 2) 39 0 == 0 &&
  decide (1 ≤ Opt.lifecycle bs) && decide (Opt.lifecycle bs ≤ 4) && decide (lastLc ≤ Opt.lifecycle bs) &&
  gradeOk bs && defectOk p bs && optReserved bs && crc32 (bs.take 0xFFC) == Opt.crcField bs

/-- The configuration of a copy (R459, R464, R466). -/
def optOf (bs : List Byte) : Options :=
  { grade := Opt.grade bs, cclkMhz := fld (Opt.w bs 1) 59 48, powerCap := fld (Opt.w bs 1) 47 32, lifecycle := Opt.lifecycle bs, safe := false
    extEn := bitOf (Opt.w bs 1) 2, peerEn := bitOf (Opt.w bs 1) 1, vfEn := bitOf (Opt.w bs 1) 0
    minMcFw := fld (Opt.w bs 2) 63 48, minUcode := fld (Opt.w bs 2) 47 40, serial := Opt.w bs 3, copy := bs }

/-- The blank configuration (R463). -/
def optBlank : Options := { Options.none with grade := 2, cclkMhz := 950, powerCap := 1100 }

/-- The safe configuration (R462). -/
def optSafe (lastLc : Nat) : Options :=
  { optBlank with safe := true, lifecycle := if lastLc = 3 ∨ lastLc = 4 then lastLc else 3 }

/-- What the loader chooses: configuration, SOURCE, A_OK, B_OK and CRC (R461). -/
structure OptChoice where
  opts : Options
  source : Nat
  aOk : Bool
  bOk : Bool
  crc : BitVec 32
  deriving DecidableEq, Repr

/-- The table of R461. Copy B is not read when copy A is valid. -/
def choose (p : Params) (lastLc : Nat) (a b : List Byte) : OptChoice :=
  if optValid p lastLc a then ⟨optOf a, 0, true, false, Opt.crcField a⟩
  else if optValid p lastLc b then ⟨optOf b, 1, false, true, Opt.crcField b⟩
  else if a.length = 4096 ∧ b.length = 4096 ∧ allZero a ∧ allZero b ∧ lastLc = 0 then ⟨optBlank, 2, false, false, 0⟩
  else ⟨optSafe lastLc, 3, false, false, 0⟩

/-- Bring-up is cold (R469). -/
def isCold (p : Params) (a : Aon) (lifecycle : Nat) : Bool :=
  decide (a.cause ≤ 1) || lifecycle != a.lastLc || !(List.range p.links).all (fun l => a.linkCache.any (fun e => e.1 == l))

/-- Phase 0 ends with a configuration in force: the state change of R467, cold or warm (R469), and the phase that follows. -/
def takeOptions (p : Params) (d : Dev) (c : OptChoice) : Dev :=
  let cold := isCold p d.aon c.opts.lifecycle
  { d with
    opts := c.opts
    aon := { d.aon with
      source := c.source, aOk := c.aOk, bOk := c.bOk, crc := c.crc
      linkCache := if c.opts.lifecycle = d.aon.lastLc then d.aon.linkCache else [] }
    boot := { d.boot with warm := !cold, phase := if cold then 1 else 2 } }

/-- Bring-up runs phase n, with no error. -/
def inPhase (d : Dev) (n : Nat) : Bool := !d.boot.inReset && !d.boot.ready && d.boot.phase == n && d.boot.error == 0 && !d.boot.stuck

/-! ### The option port (R454 to R457) -/

/-- Bytes that a read takes from k3_opt_dat: the high nibble of byte i in cycle 32 + 2i, the low one in the next (R457). -/
def optBytes : List (BitVec 4) → List Byte
  | h :: l :: t => (h ++ l) :: optBytes t
  | _ => []

/-- The levels of k3_opt_cs_n and k3_opt_adr in a cycle of k3_opt_clk, for a read of n bytes from a byte address: address bit 23 − c in cycle c, then
low; k3_opt_cs_n low until the last nibble is in, then high for two periods at least (R457). -/
def optWave (start n c : Nat) : Bool × Bool := (decide (32 + 2 * n ≤ c), decide (c < 24) && start.testBit (23 - c))

/-- k3_opt_cs_n is high and k3_opt_clk stopped: in reset and outside phases 0 and 6; a reset event raises k3_opt_cs_n at once, for it leaves nothing of a
read in the state (R454, R456, R465). -/
def optHeld (d : Dev) : Bool := d.boot.inReset || d.boot.ready || !(d.boot.phase == 0 || d.boot.phase == 6)

/-- OPTION_LOAD (R461 to R467): the nibbles that the reads of the two copies took. -/
def optionLoad (p : Params) (d : Dev) (a b : List (BitVec 4)) : Dev :=
  if inPhase d 0 then takeOptions p d (choose p d.aon.lastLc (optBytes a) (optBytes b)) else d
def execOptionLoad (copyA copyB : List (BitVec 4)) (s : State) : Out := .next (s.upd (fun d => optionLoad s.params d copyA copyB))

/-- OPT_RDY_TIMEOUT (R458). -/
def optTimeout (p : Params) (d : Dev) : Dev :=
  if inPhase d 0 then
    let d1 := takeOptions p d ⟨optSafe d.aon.lastLc, 3, false, false, 0⟩
    { d1 with boot := { d1.boot with noStore := true } }
  else d
def execOptRdyTimeout (s : State) : Out := .next (s.upd (optTimeout s.params))

/-! ## Phases 1 and 2 -/

/-- LOGIC_BIST (R468): phase 1 of a cold bring-up ends. -/
def execLogicBist (s : State) : Out := .next (s.upd (fun d => if inPhase d 1 then { d with boot := { d.boot with phase := 2 } } else d))

/-- The phase after phase n: 3 and 4 are skipped without stack ports, 5 with one panel (R468). -/
def phaseAfter (p : Params) (d : Dev) (n : Nat) : Nat :=
  if n = 2 ∧ p.stackPorts ≠ 0 then 3 else if n ≤ 4 ∧ 1 < livePanels p d then 5 else 6

/-- Rows of a tile-memory bank, spares apart (R548). -/
def bankRows (p : Params) : Nat := 256 * p.tileMem

/-- An entry of REPAIR or of LOG (R549). -/
structure Fix where
  panel : Nat
  site : Nat
  bank : Nat
  col : Bool
  spare : Nat
  addr : Nat
  deriving DecidableEq, Repr

def Fix.ofWord (v : Nat) : Fix := ⟨v >>> 29 % 4, v >>> 21 % 256, v >>> 15 % 64, v.testBit 14, v >>> 11 % 8, v % 1024⟩
def Fix.word (x : Fix) : Nat :=
  2 ^ 31 + x.panel * 2 ^ 29 + x.site * 2 ^ 21 + x.bank * 2 ^ 15 + (if x.col then 2 ^ 14 else 0) + x.spare * 2 ^ 11 + x.addr
/-- Same bank of the same site. -/
def Fix.sameBank (x y : Fix) : Bool := x.panel == y.panel && x.site == y.site && x.bank == y.bank

/-- An entry of REPAIR names what exists (R549). -/
def Fix.ok (p : Params) (x : Fix) : Bool :=
  decide (x.panel < p.panels) && decide (x.site < p.sites) &&
  (if x.col then decide (x.spare < 4) && decide (x.addr < 624) else decide (x.spare < 8) && decide (x.addr < bankRows p))

/-- The entries of REPAIR that are applied, in order: a spare already named is ignored (R549). -/
def repairField (p : Params) (copy : List Byte) : List Fix :=
  (List.range 224).foldl (fun acc i =>
    let v := leNat ((copy.drop (0x80 + 4 * i)).take 4)
    let x := Fix.ofWord v
    if v.testBit 31 && x.ok p && !acc.any (fun y => y.sameBank x && y.col == x.col && y.spare == x.spare) then acc ++ [x] else acc) []

/-- The lowest free spare row or column of a bank. -/
def freeSpare (fs : List Fix) (x : Fix) : Option Nat :=
  lowest (if x.col then 4 else 8) (fun i => !fs.any (fun y => y.sameBank x && y.col == x.col && y.spare == i))

/-- A failing cell is replaced by a repair of its bank. -/
def covered (fs : List Fix) (c : BistFail) : Bool :=
  fs.any (fun y => y.panel == c.panel && y.site == c.site && y.bank == c.bank && (if y.col then y.addr == c.col else y.addr == c.row))

/-- A new repair, with the lowest free spare of its kind. -/
def tryFix (fs : List Fix) (x : Fix) : Option (List Fix) := (freeSpare fs x).map (fun i => fs ++ [{ x with spare := i }])

/-- Failing cells by bank, row and column: the order in which R548 takes them. -/
def cellLe (a b : BistFail) : Bool :=
  let k (c : BistFail) : Nat := (((c.panel * 256 + c.site) * 65 + c.bank) * 2048 + c.row) * 1024 + c.col
  decide (k a ≤ k b)

/-- A cell put in its place among cells in order. -/
def putCell (c : BistFail) : List BistFail → List BistFail
  | [] => [c]
  | x :: xs => if cellLe c x then c :: x :: xs else x :: putCell c xs

/-- Step 3: a row with two or more new failing cells takes the lowest free spare row. -/
def fixRow (cells : List BistFail) (fs : List Fix) (c : BistFail) : List Fix :=
  let row := cells.filter (fun x => x.panel == c.panel && x.site == c.site && x.bank == c.bank && x.row == c.row && !covered fs x)
  if row.length < 2 then fs else (tryFix fs ⟨c.panel, c.site, c.bank, false, 0, c.row⟩).getD fs

/-- Step 4: a remaining failing cell takes the lowest free spare column, else the lowest free spare row. The second component: cells that
nothing can replace. -/
def fixCell (acc : List Fix × List BistFail) (c : BistFail) : List Fix × List BistFail :=
  if covered acc.1 c then acc
  else match tryFix acc.1 ⟨c.panel, c.site, c.bank, true, 0, c.col⟩ with
    | some fs => (fs, acc.2)
    | none => match tryFix acc.1 ⟨c.panel, c.site, c.bank, false, 0, c.row⟩ with
      | some fs => (fs, acc.2)
      | none => (acc.1, acc.2 ++ [c])

/-- All repairs of an instance, and the failing cells left (R548). -/
def repairs (p : Params) (copy : List Byte) (fails : List BistFail) : List Fix × List BistFail :=
  let first := repairField p copy
  let cells := ((fails.filter (fun c => decide (c.bank < 64) && decide (c.row < bankRows p) && decide (c.col < 624))).foldr putCell []).eraseDups
  let new := cells.filter (fun c => !covered first c)
  new.foldl fixCell (new.foldl (fixRow new) first, [])

/-- What BIST leaves of one site: its code in the BIST status register (R551). -/
def siteCode (p : Params) (d : Dev) (r : List Fix × List BistFail) (fails : List BistFail) (k : Nat) : Nat :=
  let here (pl st : Nat) : Bool := pl == keyPanel k && st == keySite k
  if p.sites ≤ keySite k ∨ defective d k then 3
  else if r.2.any (fun c => here c.panel c.site) || fails.any (fun c => decide (64 ≤ c.bank) && here c.panel c.site) then 2
  else if r.1.any (fun x => here x.panel x.site) then 1
  else 0

/-- The BIST status of a panel: log, site codes, shared arrays (R551). -/
def bistPort (p : Params) (d : Dev) (r : List Fix × List BistFail) (fails : List BistFail) (shared : List Nat) (t : TestPort) (panel : Nat) :
    TestPort :=
  let mine := r.1.filter (fun x => x.panel == panel)
  { t with
    log := (mine.take 224).map Fix.word
    nlog := mine.length
    codes := (List.range 144).map (fun i => (i, siteCode p d r fails (siteKey panel i)))
    shared := (shared.filter (fun i => i / 16 == panel)).map (· % 16)
    done := shared.isEmpty }

/-- Phase 2 (R548 to R551): repairs, sites that BIST cannot repair, and a shared array that stops bring-up. -/
def sramBist (p : Params) (d : Dev) (fails : List BistFail) (shared : List Nat) : Dev :=
  if !inPhase d 2 then d
  else
    let r := repairs p d.opts.copy fails
    let live := List.range (livePanels p d)
    let d1 := live.foldl (fun d pl => d.setTest pl (bistPort p d r fails shared (d.testPort pl) pl)) d
    let d2 := (liveSites p d).foldl (fun d k => if siteCode p d r fails k = 2 then d.modSite k (fun x => { x with bistBad := true }) else d) d1
    if (shared.filter (fun i => live.contains (i / 16))).isEmpty then { d2 with boot := { d2.boot with phase := phaseAfter p d 2 } }
    else { d2 with boot := { d2.boot with stuck := true } }
def execSramBist (fails : List BistFail) (shared : List Nat) (s : State) : Out := .next (s.upd (fun d => sramBist s.params d fails shared))

/-! ## Phases 3 and 4: stacks (R468, R472, R523) -/

/-- _retain of a stack port of a panel: high while k3_pwrok is (R454, R523). -/
def retainOut (d : Dev) (panel : Nat) : Bool := !d.pins.pwrLow.contains panel

/-- _init of the stack ports of a panel: low in reset, high from the start of phase 3 (R523). -/
def initOut (p : Params) (d : Dev) (panel : Nat) : Bool := !d.boot.inReset && decide (3 ≤ d.boot.phase) && decide (panel < livePanels p d)

/-- _full of a stack port: for a cold bring-up, or when the port trained in full last time (R523). -/
def fullOut (p : Params) (d : Dev) (key : Nat) : Bool := initOut p d (key / 16) && (!d.boot.warm || (d.port key).fullLast)

/-- STACK_READY_RISE: the port samples `cap`, in granules, and `retained`; phase 3 ends with the last port of the live panels. -/
def stackReady (p : Params) (d : Dev) (panel port cap : Nat) (retained : Bool) : Dev :=
  if !inPhase d 3 || livePanels p d ≤ panel || p.stackPorts ≤ port || (d.port (portKey panel port)).ready then d
  else
    let d1 := d.modPort (portKey panel port) (fun q => { q with
      ready := true, trained := true, fullLast := !retained, retained := retained, cap := 64 * (cap % 2 ^ 34) })
    if (List.range (livePanels p d)).all (fun pl => (List.range p.stackPorts).all (fun q => (d1.port (portKey pl q)).ready)) then
      { d1 with boot := { d1.boot with phase := 4 } }
    else d1
def execStackReadyRise (panel port cap : Nat) (retained : Bool) (s : State) : Out :=
  .next (s.upd (fun d => stackReady s.params d panel port cap retained))

/-- Bring-up stops with an error (R472). -/
def stopBoot (d : Dev) (e : Nat) : Dev := { d with boot := { d.boot with error := e } }

/-- STACK_TRAINING_TIMEOUT (R472). -/
def execStackTrainingTimeout (s : State) : Out := .next (s.upd (fun d => if inPhase d 3 then stopBoot d 1 else d))

/-- STACK_WIPE (R468): every granule of every stack brought up is written with zeros. -/
def stackWipe (s : State) : State :=
  if !inPhase s.dev 4 then s
  else
    let n := livePanels s.params s.dev
    { s with
      mem := { s.mem with
        stack := s.mem.stack.filter (fun c => decide (n ≤ c.1 / 2 ^ 40 / 16)), poison := s.mem.poison.filter (fun c => decide (n ≤ 64 * c.1 / 2 ^ 40 / 16))
        bad := s.mem.bad.filter (fun c => decide (n ≤ 64 * c.1 / 2 ^ 40 / 16)) }
      dev := { s.dev with boot := { s.dev.boot with phase := phaseAfter s.params s.dev 4 } } }
def execStackWipe (s : State) : Out := .next (stackWipe s)

/-! ## Phase 5: links -/

/-- LINK_TRAINING (R470, R498 to R501): every link of the instance, the state of its modules being what the results say (R525), then phase 6, or ERROR 2. -/
def linkTraining (p : Params) (d : Dev) (rs : List ModTrain) : Dev :=
  if !inPhase d 5 then d
  else
    let (d1, ok) := (List.range p.links).foldl (trainLink rs) (rs.foldl setPhy d, true)
    if ok then { d1 with boot := { d1.boot with phase := 6 } } else stopBoot d1 2
def execLinkTraining (results : List ModTrain) (s : State) : Out := .next (s.upd (fun d => linkTraining s.params d results))

/-! ## Phase 6: the service record (R495 to R497) -/

namespace Svc
def w (bs : List Byte) (n : Nat) : Word := Opt.w bs n
def nremap (bs : List Byte) : Nat := fld (w bs 1) 63 32
def bytes (bs : List Byte) : Nat := fld (w bs 1) 31 0
/-- Site word of a site key: the words of panel p, site s stand at 64 + 4 × (144 p + s). -/
def site (bs : List Byte) (k : Nat) : Nat := leNat ((bs.drop (64 + 4 * k)).take 4)
/-- REMAP entry i. -/
def remap (bs : List Byte) (i : Nat) : Word := BitVec.ofNat 64 (leNat ((bs.drop (2368 + 8 * i)).take 8))
def lastWord (bs : List Byte) : Word := BitVec.ofNat 64 (leNat ((bs.drop (bytes bs - 8)).take 8))
end Svc

/-- The word of a site with nothing recorded (R496). -/
def nothingRecorded : Nat := 0x7FFFFFF8

/-- Fields of a kind 4 identifier (R489). -/
def rangeCoarse (v : Word) : Bool := bitOf v 63
def rangeKey (v : Word) : Nat := portKey (fld v 61 60) (fld v 59 56)
def rangeAddr (v : Word) : Nat := fld v 39 0
/-- The bits that the kind 4 layout names. -/
def rangeMask : Word := 0xBF0000FFFFFFFFFF#64

/-- Entries of a record for one port and size. -/
def remapsFor (bs : List Byte) (key : Nat) (coarse : Bool) : List Word :=
  ((List.range (Svc.nremap bs)).map (Svc.remap bs)).filter (fun v => rangeKey v == key && rangeCoarse v == coarse)

/-- A site word meets R496: its four fields name physical rows and columns or nothing, and its reserved bits are 0. -/
def siteWordOk (p : Params) (v : Nat) : Bool :=
  v % 8 == 0 && [24, 17, 10, 3].all (fun lo => let x := v >>> lo % 128; decide (x < p.opuDim + 2) || x == 0x7F)

/-- A copy of the service record is valid (R497). -/
def svcValid (p : Params) (serial : Word) (bs : List Byte) : Bool :=
  let n := Svc.bytes bs
  fld (Svc.w bs 0) 63 32 == 0x4B335352 && fld (Svc.w bs 0) 31 24 == 1 && fld (Svc.w bs 0) 23 0 == 0 &&
  n == 2376 + 8 * Svc.nremap bs && decide (n ≤ 1048576) && decide (n ≤ bs.length) && Svc.w bs 2 == serial &&
  allZero ((bs.drop 24).take 40) &&
  (List.range 576).all (fun k => siteWordOk p (Svc.site bs k) &&
    ((decide (k / 144 < p.panels) && decide (k % 144 < p.sites)) || Svc.site bs k == nothingRecorded)) &&
  (List.range (Svc.nremap bs)).all (fun i => Svc.remap bs i &&& ~~~rangeMask == 0) &&
  (List.range 64).all (fun key => decide ((remapsFor bs key true).length ≤ coarseSlots p) && decide ((remapsFor bs key false).length ≤ fineSlots p)) &&
  fld (Svc.lastWord bs) 63 32 == 0 && crc32 (bs.take (n - 8)) == BitVec.ofNat 32 (fld (Svc.lastWord bs) 31 0)

/-- A site word applied: retired rows and columns, and the site itself (R496). -/
def applySite (bs : List Byte) (d : Dev) (k : Nat) : Dev :=
  let v := Svc.site bs k
  let f (lo : Nat) : Nat := v >>> lo % 128
  d.modSite k (fun x => { x with rowA := f 24, rowB := f 17, colA := f 10, colB := f 3, svcRetired := v.testBit 31 })

/-- The remap entries of a port: coarse slots from the lowest upward, then fine slots, in the order of the record (R483). -/
def remapTable (bs : List Byte) (key : Nat) : List Remap :=
  let one (coarse : Bool) : List Remap := let es := remapsFor bs key coarse
    (List.range es.length).map (fun i => ⟨rangeAddr (es.getD i 0), coarse, i, false, 0, none, 0⟩)
  one true ++ one false

/-- A valid copy applied (R497). -/
def applySvc (p : Params) (d : Dev) (bs : List Byte) : Dev :=
  let d1 := (liveSites p d).foldl (applySite bs) { d with mc := { d.mc with svcCopy := bs.take (Svc.bytes bs) } }
  ((List.range (livePanels p d)).flatMap (fun pl => (List.range p.stackPorts).map (portKey pl))).foldl (fun d key =>
    let t := remapTable bs key
    d.modPort key (fun q => { q with remaps := t, usedSlots := t.map (fun r => (r.coarse, r.slot)) })) d1

/-- The service record read and applied, with its KIND 10 record; the safe and blank configurations do not read it (R481, R497). -/
def readSvc (p : Params) (d : Dev) (a b : List Byte) : Dev :=
  let rec10 (d : Dev) (which n : Nat) : Dev := d.health { status := .done, kind := 10, w4 := BitVec.ofNat 64 which, w5 := BitVec.ofNat 64 n }
  if 2 ≤ d.aon.source then d
  else if svcValid p d.opts.serial a then rec10 (applySvc p d a) 0 (Svc.nremap a)
  else if svcValid p d.opts.serial b then rec10 (applySvc p d b) 1 (Svc.nremap b)
  else rec10 d 2 0

/-! ## Phase 6: identity and images -/

/-- The device identity: SEED, unless it is all zeros, and the certificate chain when its digest matches (R558, R559). -/
def readIdentity (d : Dev) (cert : List Byte) : Dev :=
  let seed := (d.opts.copy.drop 0x400).take 48
  let n := leNat ((d.opts.copy.drop 0x460).take 4)
  let chain := cert.take n
  let good := decide (1 ≤ n) && decide (n ≤ 65536) && decide (n ≤ cert.length) && digest chain == (d.opts.copy.drop 0x430).take 48
  { d with mc := { d.mc with identity := if allZero seed then [] else seed, slot0 := if !allZero seed && good then chain else [] } }

/-- The images of the boot area: each that verifies is held; both are needed to go on (R472 to R474). -/
def readImages (d : Dev) (mc uc : List Byte) : Dev :=
  let okF := fwImageOk d.opts.minMcFw d.opts.minUcode [1] mc
  let okU := fwImageOk d.opts.minMcFw d.opts.minUcode [2] uc
  let m1 : Mc := if okF then takeImage { d.mc with bootFw := some (FwImage.version mc, FwImage.body mc) } ⟨0, false, FwImage.version mc, FwImage.body mc⟩
    else d.mc
  let m2 : Mc := if okU then takeImage (m1.hold (FwImage.body uc)) ⟨0, true, FwImage.version uc, FwImage.body uc⟩ else m1
  { d with mc := m2 }

/-- Where the microcode image begins in the boot area, which holds the MC firmware image first: at the first multiple of 4 KiB after that image's end
(R473). -/
def ucPlace (boot : List Byte) : Nat := ceilDiv (512 + FwImage.bodyBytes boot) 4096 * 4096

/-- BOOT_IMAGE_VERIFY: phase 6 reads the boot area, the service record and the certificate chain over the option port; a store that never became ready
has none of them (R457, R458, R472 to R474, R497, R559). -/
def bootVerify (p : Params) (d : Dev) (boot svcA svcB cert : List (BitVec 4)) : Dev :=
  if !inPhase d 6 then d
  else if d.boot.noStore then stopBoot d 3
  else
    let area := optBytes boot
    let d1 := readImages (readIdentity (readSvc p d (optBytes svcA) (optBytes svcB)) (optBytes cert)) area (area.drop (ucPlace area))
    if d1.mc.fwOk && d1.mc.ucOk then beginPhase7 p d1 else stopBoot d1 3
def execBootImageVerify (mc uc svcA svcB cert : List (BitVec 4)) (s : State) : Out :=
  .next (s.upd (fun d => bootVerify s.params d (mc ++ uc) svcA svcB cert))

end Sys2Proof.Machine
end

