-- ==== Sys2Proof/Machine/Reliab.lean ====
section
/-! DEFINITION. RETIRE, INSERT and HEALTH, and the health window (R484, R488 to R491, R494). -/

namespace Sys2Proof.Machine

/-! ## Units (R489, R490) -/

/-- The bits of an identifier that the layout of its kind names. -/
def identMask (insert : Bool) (kind : Nat) : Word :=
  if insert then 0x3FF000300FF#64
  else match kind with
    | 1 => 0x3FF#64
    | 2 | 3 => 0x7F03FF#64
    | 4 => rangeMask
    | 5 => 0x39F7F#64
    | _ => 0x39F00#64

/-- A logical index that exists: it has a site, or had one. -/
def indexExists (d : Dev) (idx : Nat) : Bool := (homeSite d idx).isSome

/-- Changes that may be pending at once (R490). -/
def maxChanges : Nat := 63

/-- A change staged, and applied at once when no gang bound to a work queue holds its index (R334, R491). -/
def stage (s : State) (c : Change) : Ten :=
  if maxChanges ≤ s.dev.mc.changes.length then .fail s .tableFull
  else .done (s.upd (fun d => applyIdle s.params { d with mc := { d.mc with changes := d.mc.changes ++ [c] } })) id

/-- The change that a packet asks for. -/
def changeOf (d : Dev) (p : Pkt) (insert : Bool) : Change :=
  let c : Change := ⟨0, insert, fld (p.b 0) 3 0, p.b 1, p.seq⟩
  { c with panel := keyPanel ((homeSite d c.index).getD 0) }

/-! ## RETIRE of a core, an OPU row or an OPU column (kinds 1 to 3) -/

/-- Kind 1. -/
def retireCore (s : State) (p : Pkt) : Ten :=
  let idx := fld (p.b 1) 9 0
  if (s.dev.siteOf idx).isNone then .fail s .badParam
  else if s.dev.mc.changes.any (fun c => !c.insert && c.kind == 1 && c.index == idx) then .done s id
  else stage s (changeOf s.dev p false)

/-- Rows or columns of a site retired already, and those pending on its index. -/
def linesGone (d : Dev) (k idx : Nat) (row : Bool) : List Nat :=
  let x := d.site k
  ((if row then [x.rowA, x.rowB] else [x.colA, x.colB]).filter (· != 0x7F)) ++
  (d.mc.changes.filter (fun c => !c.insert && c.kind == (if row then 2 else 3) && c.index == idx)).map (fun c => fld c.ident 22 16)

/-- Kinds 2 and 3. -/
def retireLineOf (s : State) (p : Pkt) (row : Bool) : Ten :=
  let idx := fld (p.b 1) 9 0
  let n := fld (p.b 1) 22 16
  match s.dev.siteOf idx with
  | none => .fail s .badParam
  | some k =>
    let gone := linesGone s.dev k idx row
    if s.params.opuDim + 2 ≤ n then .fail s .badParam
    else if gone.contains n then .done s id
    else if 2 ≤ gone.length then .fail s .badParam
    else stage s (changeOf s.dev p false)

/-! ## RETIRE of a stack range (kind 4; R417, R483, R494) -/

/-- The remap entry of a unit. -/
def remapOf (q : StackPort) (coarse : Bool) (unit : Nat) : Option Remap := q.remaps.find? (fun r => r.coarse == coarse && r.unit == unit)

/-- The lowest slot of a size that has not been used since bring-up. -/
def freeSlot (p : Params) (q : StackPort) (coarse : Bool) : Option Nat :=
  lowest (if coarse then coarseSlots p else fineSlots p) (fun i => !q.usedSlots.contains (coarse, i))

/-- A remap entry installed: its copy begins; the entry of a fine unit that moves from slot to slot is replaced. -/
def install (q : StackPort) (r : Remap) : StackPort :=
  { q with
    remaps := q.remaps.filter (fun x => !(x.coarse == r.coarse && x.unit == r.unit)) ++ [r]
    usedSlots := q.usedSlots ++ [(r.coarse, r.slot)] }

/-- Kind 4. -/
def retireRange (s : State) (p : Pkt) : Ten :=
  let v := p.b 1
  let c := rangeCoarse v
  let key := rangeKey v
  let a := rangeAddr v
  let q := s.dev.port key
  if livePanels s.params s.dev ≤ key / 16 ∨ s.params.stackPorts ≤ key % 16 ∨ !aligned (unitBytes c) a ∨ usable s.params s.dev (key / 16) ≤ a then
    .fail s .badParam
  else
    let go (from_ : Option Nat) : Ten :=
      match freeSlot s.params q c with
      | none => .fail s .tableFull
      | some i => .later (s.upd (fun d => d.modPort key (fun q => install q ⟨a, c, i, true, 0, from_, p.uid⟩)))
    match remapOf q c a with
    | none => go none
    | some r => if c || r.copying then .done s id else go (some r.slot)

/-! ## RETIRE of a link lane or module (kinds 5 and 6; R494) -/

/-- A replacement that a `RETIRE` asks for: begun, or not to be made. -/
def linkTen (s : State) (x : Dev × Bool) : Ten := if x.2 then .later (s.withDev x.1) else .done (s.withDev x.1) id

/-- Kinds 5 and 6. A replacement in progress in the same direction is waited for. -/
def retireLink (s : State) (p : Pkt) (isLane : Bool) : Ten :=
  let v := p.b 1
  let l := fld v 17 16
  let up := bitOf v 15
  let m := fld v 12 8
  let j := fld v 6 0
  let x := (s.dev.link l).dir up
  if s.params.links ≤ l ∨ nModules ≤ m ∨ (isLane ∧ nLanes ≤ j) ∨ !(s.dev.link l).formed then .fail s .badParam
  else if x.out.contains m || (isLane && (x.bad m).contains j) then .done s id
  else if !isLane && decide (x.usable < 17) then .fail s .badParam
  else match x.repairing with
  | some r => if r.module == m && (r.lane.isNone || (isLane && r.lane == some j)) then .done s id else .wait s
  | none => linkTen s (if isLane then startLane s.dev l up m j (some p.uid) else startModule s.dev l up m true (some p.uid))

/-- RETIRE at step 10. -/
def retireTen (s : State) (p : Pkt) : Ten :=
  let k := fld (p.b 0) 3 0
  if k < 1 ∨ 6 < k ∨ p.b 1 &&& ~~~(identMask false k) ≠ 0 then .fail s .badParam
  else match k with
    | 1 => retireCore s p
    | 2 => retireLineOf s p true
    | 3 => retireLineOf s p false
    | 4 => retireRange s p
    | 5 => retireLink s p true
    | _ => retireLink s p false

def semRetire : OpSem := ⟨rowRetire, noCheck, noOwn, mcTen retireTen⟩

/-- RETIRE (R489 to R494). -/
def execRetire (q : QRef) (s : State) : Out := .next (acceptRow semRetire q s)

/-! ## INSERT (R489 to R491) -/

/-- The spare lies in an enabled partition with the owner of the index's last site (R423, R490). -/
def ownersAgree (d : Dev) (idx spare : Nat) : Bool :=
  match ownerOf d spare, (homeSite d idx).bind (ownerOf d) with
  | some a, some b => a == b
  | _, _ => false

/-- INSERT at step 10. -/
def insertTen (s : State) (p : Pkt) : Ten :=
  let d := s.dev
  let c := changeOf d p true
  let retiring := d.mc.changes.any (fun x => !x.insert && x.kind == 1 && x.index == c.index)
  if c.kind != 1 || p.b 1 &&& ~~~(identMask true 1) != 0 || !indexExists d c.index || decide (s.params.panels ≤ keyPanel c.spare) ||
     decide (s.params.sites ≤ fld c.ident 7 0) then .fail s .badParam
  else if (d.siteOf c.index).isSome && !retiring then .fail s .badParam
  else if d.mc.changes.any (fun x => x.insert && x.index == c.index) then .fail s .badParam
  else if (d.site c.spare).st != .spare || !(d.site c.spare).fetched || !ownersAgree d c.index c.spare then .fail s .badParam
  else stage s c

def semInsert : OpSem := ⟨rowInsert, noCheck, noOwn, mcTen insertTen⟩

/-- INSERT (R489 to R491). -/
def execInsert (q : QRef) (s : State) : Out := .next (acceptRow semInsert q s)

/-! ## The health record (R488) -/

/-- A change to a site is pending. -/
def pendingAt (d : Dev) (k : Nat) : Bool :=
  d.mc.changes.any (fun c => if c.insert then c.spare == k else d.siteOf c.index == some k)

/-- STATE of a site entry. -/
def SiteState.code : SiteState → Nat
  | .active => 0 | .spare => 1 | .gusset => 2 | .retired => 3 | .failed => 4 | .defective => 5

/-- A site entry. -/
def siteEntry (d : Dev) (k : Nat) : Word :=
  let x := d.site k
  place x.st.code 61 ||| placeB (pendingAt d k) 60 ||| place ((siteIndex d k).getD 0x3FF % 1024) 50 ||| place (x.rowA % 128) 43 |||
  place (x.rowB % 128) 36 ||| place (x.colA % 128) 29 ||| place (x.colB % 128) 22 ||| place (min x.ceWin 1023) 12 ||| place (min x.ceTotal 4095) 0

/-- A port entry: four words. -/
def portEntry (p : Params) (d : Dev) (key : Nat) : List Word :=
  let q := d.port key
  let used (c : Bool) : Nat := (q.remaps.filter (fun r => r.coarse == c)).length
  [ place (q.ceWin % 2 ^ 32) 32 ||| place (q.ceTotal % 2 ^ 32) 0, place (q.ueTotal % 2 ^ 32) 32 ||| place (used true % 65536) 16 ||| place (used false % 65536) 0,
    BitVec.ofNat 64 (panelCap p d (key / 16)), 0 ]

/-- Redundant lanes in use in a direction: failing data lanes of modules in service. -/
def lanesRepaired (x : LinkDir) : Nat :=
  ((x.badLanes.filter (fun e => !x.out.contains e.1)).map (fun e => (e.2.filter (fun j => decide (j < 64))).length)).foldl (· + ·) 0

/-- Bits of the modules out of service. -/
def outBits (x : LinkDir) : Word := x.out.foldl (fun w m => w ||| place 1 m) 0

/-- A link entry: eight words. -/
def linkEntry (p : Params) (d : Dev) (l : Nat) : List Word :=
  let x := d.link l
  if p.links ≤ l ∨ !x.formed then List.replicate 8 0
  else
    let st := if x.up.spareFree && x.down.spareFree then 1 else 2
    [ place st 62 ||| placeB (!x.up.rev.isEmpty) 61 ||| placeB (!x.down.rev.isEmpty) 60 ||| place (min x.up.inUse.length x.down.inUse.length % 64) 54 |||
        place ((lanesRepaired x.up + lanesRepaired x.down) % 65536) 32,
      place (x.replayWin % 2 ^ 32) 32 ||| place (x.replayTotal % 2 ^ 32) 0, outBits x.up, outBits x.down, 0, 0, 0, 0 ]

/-- Bytes of the record. -/
def healthBytes (p : Params) : Nat := 64 + p.panels * 2048 + 256

/-- Logical indices that no core holds. -/
def vacantCount (d : Dev) : Nat := (d.lastSite.filter (fun e => (d.siteOf e.1).isNone)).length

/-- The header: eight words. -/
def healthHeader (p : Params) (d : Dev) : List Word :=
  let spares := ((List.range p.panels).map (sparesOf p d)).foldl (· + ·) 0
  [ place 1 48 ||| place (healthBytes p) 0, d.time,
    place (activeCores d % 1024) 54 ||| place (vacantCount d % 1024) 44 ||| place (spares % 1024) 34 ||| place (d.mc.changes.length % 64) 28,
    d.mc.windowStart, 0, 0, 0, 0 ]

/-- The entries of one panel: 256 words. -/
def panelEntries (p : Params) (d : Dev) (f panel : Nat) : List Word :=
  let sites := (List.range 144).map (fun i =>
    if i < p.sites ∧ (f = 0 ∨ ownerOf d (siteKey panel i) = some f) then siteEntry d (siteKey panel i) else 0)
  let ports := (List.range p.stackPorts).flatMap (fun q => if f = 0 then portEntry p d (portKey panel q) else List.replicate 4 0)
  sites ++ ports ++ List.replicate (112 - 4 * p.stackPorts) 0

/-- The health record as a function reads it. -/
def healthRecordOf (p : Params) (d : Dev) (f : Nat) : List Word :=
  healthHeader p d ++ (List.range p.panels).flatMap (panelEntries p d f) ++
  (List.range 4).flatMap (fun l => if f = 0 then linkEntry p d l else List.replicate 8 0)

def semHealth : OpSem :=
  ⟨rowHealth, noCheck, noOwn, mcTen (fun s p =>
    .done (s.upd (fun d => mcWriteAll d p.func (p.b 0).toNat (wordsToBytes (healthRecordOf s.params d p.func)))) id)⟩

/-- HEALTH (R488). -/
def execHealth (q : QRef) (s : State) : Out := .next (acceptRow semHealth q s)

/-! ## The health window (R484, R487) -/

/-- HEALTH_WINDOW_END: every window count restarts; totals go on. -/
def healthWindow (d : Dev) : Dev :=
  if !d.inService then d
  else { d with
    sites := Tbl.mapv (fun x => { x with ceWin := 0, rowCe := [], colCe := [] }) d.sites
    ports := Tbl.mapv (fun q => { q with ceWin := 0, unitCe := Tbl.mapv (fun _ => 0) q.unitCe }) d.ports
    links := Tbl.mapv (fun x => { x with replayWin := 0 }) d.links
    mc := { d.mc with windowStart := d.time, sent := [] } }
def execHealthWindowEnd (s : State) : Out := .next (s.upd healthWindow)

end Sys2Proof.Machine
end

