-- ==== Sys2Proof/Machine/Power.lean ====
section
/-! DEFINITION. Power: samples of k3_pkgpwr, the share of clock edges, the fast throttle (R539 to R541). -/

namespace Sys2Proof.Machine

/-- The share s of 32 at which every core runs now: at most 16 while a panel's alert is low, and until the window after it rose ends (R540, R541). -/
def shareNow (d : Dev) : Nat := if d.mc.alert || !d.pins.alertLow.isEmpty then min 16 d.mc.share else d.mc.share

/-- PWR_ALERT_ASSERT (R541): k3_pwr_alert_n of a panel falls. -/
def execPwrAlertAssert (s : State) (panel : Nat := 0) : Out :=
  .next (s.upd (fun d => { d with pins := { d.pins with alertLow := mark true panel d.pins.alertLow }, mc := { d.mc with alert := true } }))

/-- PWR_ALERT_DEASSERT (R541): it rises; once no panel's is low, the cores return to the share of R540 at the end of the next window. -/
def execPwrAlertDeassert (s : State) (panel : Nat := 0) : Out :=
  .next (s.upd (fun d => { d with pins := { d.pins with alertLow := mark false panel d.pins.alertLow } }))

/-- PKGPWR_SAMPLE (R539): 0xFFFF counts as the cap. -/
def pkgSample (d : Dev) (w : Nat) : Dev :=
  if !d.inService then d
  else
    let v := if w % 65536 = 0xFFFF then d.opts.powerCap else w % 65536
    { d with mc := { d.mc with pwrSum := d.mc.pwrSum + v, pwrCount := d.mc.pwrCount + 1 } }
def execPkgpwrSample (watts : Nat) (s : State) : Out := .next (s.upd (fun d => pkgSample d watts))

/-- The share after a window: one step down above the cap, one up below 95 % of it, within 8 to 32 (R540). -/
def nextShare (share sum count cap : Nat) : Nat :=
  if count = 0 then share
  else if cap * count < sum then max 8 (share - 1)
  else if 100 * sum < 95 * cap * count then min 32 (share + 1)
  else share

/-- POWER_WINDOW (R540, R541): a window of 1 ms ends. -/
def powerWindow (d : Dev) : Dev :=
  if !d.inService then d
  else { d with mc := { d.mc with
    share := nextShare d.mc.share d.mc.pwrSum d.mc.pwrCount d.opts.powerCap, pwrSum := 0, pwrCount := 0, alert := !d.pins.alertLow.isEmpty } }
def execPowerWindow (s : State) : Out := .next (s.upd powerWindow)

end Sys2Proof.Machine
end

