-- ==== Sys2Proof/Machine/TestPorts.lean ====
section
/-! DEFINITION. The test port of each partition: boundary segment, BIST status register, capture, shift, update, reset and mode (R542 to
R547, R551). -/

namespace Sys2Proof.Machine

/-! ## The registers (R544, R551) -/

/-- Link ends of a panel. -/
def linkEndsOf (p : Params) (panel : Nat) : Nat :=
  ((List.range p.links).filter (fun l => (linkEnds l).1 == panel || (linkEnds l).2 == panel)).length

/-- Cells of one module of a link end, and of the option port. -/
def moduleCells : Nat := 4357
def optCells (panel : Nat) : Nat := if panel = 0 then 8 else 0

/-- Cells of the boundary segment of a panel. -/
def boundaryCells (p : Params) (panel : Nat) : Nat := optCells panel + linkEndsOf p panel * nModules * moduleCells

/-- Cell i of the segment is an output cell: k3_opt_clk, k3_opt_cs_n and k3_opt_adr; _train and _txd of a module. -/
def outputCell (panel i : Nat) : Bool :=
  if i < optCells panel then decide (i < 3)
  else
    let c := (i - optCells panel) % moduleCells
    c == 0 || (decide (5 ≤ c) && decide (c < 2181))

/-- Cell i is one of k3_opt_dat. -/
def optDatCell (panel i : Nat) : Bool := panel == 0 && decide (3 ≤ i) && decide (i < 7)

/-- No site failed and no shared array failed, once phase 2 has ended. -/
def bistPass (t : TestPort) : Bool := t.done && t.shared.isEmpty && t.codes.all (fun e => e.2 != 2)

/-- The BIST status register, bit 0 first (R551). -/
def bistBits (t : TestPort) : List Bool :=
  [t.done, bistPass t, decide (224 < t.nlog)] ++ List.replicate 205 false ++ (List.range 16).map (fun i => t.shared.contains i) ++
  (List.range 144).flatMap (fun i => let c := Tbl.get 0 i t.codes; [c.testBit 0, c.testBit 1]) ++
  (List.range 224).flatMap (fun j => (List.range 32).map (fun i => (t.log.getD j 0).testBit i))

/-! ## The commands -/

/-- Test logic is held in reset (R543). -/
def testHeld (d : Dev) (panel : Nat) : Bool := (d.testPort panel).trst || d.pins.pwrLow.contains panel

/-- The level that output cell i drives: its update latch while the mode is 1, else what the block drives there (R542, R543). -/
def cellDrives (t : TestPort) (i : Nat) (own : Bool) : Bool := if t.mode then t.latches.getD i false else own

/-- What the cells of a boundary segment capture. While the option loader may be reading IDENTITY, in phase 0, it is not determined which of
its bytes it reads, so the k3_opt_dat cells capture 0 or their pin by a free value (R546). -/
def boundaryCapture (p : Params) (d : Dev) (panel : Nat) (pins : List Bool) : List Bool :=
  let hide := panel == 0 && !d.boot.inReset && !d.boot.ready && d.boot.phase == 0 && (Config.freeWord64 d.freeCtr).getLsbD 0
  (List.range (boundaryCells p panel)).map (fun i => pins.getD i false && !(hide && optDatCell panel i))

/-- TEST_CAPTURE (R543): the selected register captures; `pins` are the levels at the boundary cells, in the order of R544. -/
def testCapture (p : Params) (d : Dev) (panel sel : Nat) (pins : List Bool) : Dev :=
  let t := d.testPort panel
  if p.panels ≤ panel || testHeld d panel then d
  else match sel with
    | 1 => (d.setTest panel { t with segment := (boundaryCapture p d panel pins).reverse }).draw
    | 3 => d.setTest panel { t with status := bistBits t }
    | _ => d
def execTestCapture (panel sel : Nat) (pins : List Bool) (s : State) : Out := .next (s.upd (fun d => testCapture s.params d panel sel pins))

/-- A shift stage of n bits, as it stands: zeros until it first captures. -/
def stageOf (n : Nat) (x : List Bool) : List Bool := if x.isEmpty then List.replicate n false else x

/-- TEST_SHIFT (R543): the selected register shifts one bit from k3_tst_si toward k3_tst_so. -/
def testShift (p : Params) (d : Dev) (panel sel : Nat) (si : Bool) : Dev :=
  let t := d.testPort panel
  if p.panels ≤ panel || testHeld d panel then d
  else match sel with
    | 1 =>
      let x := stageOf (boundaryCells p panel) t.segment
      d.setTest panel { t with segment := x.drop 1 ++ [si], so := x.headD false }
    | 3 =>
      let x := stageOf 7680 t.status
      d.setTest panel { t with status := x.drop 1 ++ [si], so := x.headD false }
    | _ => d
def execTestShift (panel sel : Nat) (si : Bool) (s : State) : Out := .next (s.upd (fun d => testShift s.params d panel sel si))

/-- TEST_UPDATE (R543): the update latches of the output cells load from the segment. -/
def testUpdate (p : Params) (d : Dev) (panel sel : Nat) : Dev :=
  let t := d.testPort panel
  if p.panels ≤ panel || testHeld d panel || sel != 1 then d
  else
    let cells := (stageOf (boundaryCells p panel) t.segment).reverse
    d.setTest panel { t with latches := (List.range (boundaryCells p panel)).map (fun i => outputCell panel i && cells.getD i false) }
def execTestUpdate (panel sel : Nat) (s : State) : Out := .next (s.upd (fun d => testUpdate s.params d panel sel))

/-- TEST_RESET (R543): k3_tst_trst_n falls, resetting the test logic, or rises. -/
def testReset (p : Params) (d : Dev) (panel : Nat) (low : Bool) : Dev :=
  if p.panels ≤ panel then d
  else
    let t := d.testPort panel
    d.setTest panel { (if low then t.cleared else t) with trst := low }
def execTestReset (panel : Nat) (trstLow : Bool) (s : State) : Out := .next (s.upd (fun d => testReset s.params d panel trstLow))

/-- The links of a panel. -/
def linksOf (p : Params) (panel : Nat) : List Nat :=
  (List.range p.links).filter (fun l => (linkEnds l).1 == panel || (linkEnds l).2 == panel)

/-- TEST_MODE_CHANGE (R545): the outputs follow their update latches or the block. A rise while the block is out of reset loses the
traffic of the panel's links (R504). -/
def testMode (p : Params) (d : Dev) (panel : Nat) (mode : Bool) : Dev :=
  let t := d.testPort panel
  if p.panels ≤ panel || testHeld d panel then d
  else
    let d1 := d.setTest panel { t with mode := mode }
    if mode && !t.mode && !d.boot.inReset then (linksOf p panel).foldl loseLink d1 else d1
def execTestModeChange (panel : Nat) (mode : Bool) (s : State) : Out := .next (s.upd (fun d => testMode s.params d panel mode))

end Sys2Proof.Machine
end

