-- ==== Sys2Proof/Machine/Cycle.lean ====
section
/-! DEFINITION. One CCLK cycle, which is what a step does when no command waits: the device time counter, ELAPSED_MS, the counts kept in core
cycles, and one flit time of every link (R237, R391, R451, R452, R530, R540). -/

namespace Sys2Proof.Machine

/-- CCLK cycle t is an edge of the core domains at share s of 32, spread evenly (R540). -/
def coreEdge (t s : Nat) : Bool := t * s / 32 != (t + 1) * s / 32

/-- CCLK cycles per millisecond. DESIGN CHOICE (log entry 44): those of grade F until a configuration is in force. -/
def cyclesPerMs (d : Dev) : Nat := 1000 * (if d.opts.cclkMhz = 0 then 1300 else d.opts.cclkMhz)

/-- ELAPSED_MS counts from release to READY (R452). -/
def tickMs (d : Dev) : Boot :=
  if d.boot.ready then d.boot
  else if cyclesPerMs d ≤ d.boot.subMs + 1 then { d.boot with subMs := 0, elapsedMs := min 4095 (d.boot.elapsedMs + 1) }
  else { d.boot with subMs := d.boot.subMs + 1 }

/-- The contexts with an admitted command that the stream engine of a core holds (R391). -/
def busyCtxs (p : Params) (c : Core) : List Nat :=
  ((c.cmds.filter (fun m => m.admitted && m.uses 0 && !partDone p c m 0)).map (·.ctx)).eraseDups

/-- One edge of a core domain: S_BUSY of its contexts, and the count of its stall watchdog (R237, R391). -/
def coreTick (p : Params) (d : Dev) (k : Nat) : Dev :=
  let c := d.core k
  let d1 := (busyCtxs p c).foldl (fun d x => d.modCtx x (fun y => { y with usage := { y.usage with sBusy := y.usage.sBusy + 1 } })) d
  let n := if watchdogRuns p d k ((siteIndex d k).getD 0) && !c.moved then min watchdogLimit (c.wdCount + 1) else 0
  d1.modCore k (fun c => { c with wdCount := n, moved := false })

/-- One CCLK cycle; in reset it only ends the period in which a reset event's cause may still be lowered (R450). -/
def cycle (p : Params) (d : Dev) : Dev :=
  if d.boot.inReset then { d with aon := { d.aon with fresh := false } }
  else
    let d1 := if coreEdge d.time.toNat (shareNow d) then (d.cores.map (·.1)).foldl (coreTick p) d else d
    let d2 := (List.range p.links).foldl (fun d l => sendFlit (sendFlit d l true) l false) d1
    { d2 with time := d2.time + 1, boot := tickMs d2 }

end Sys2Proof.Machine
end

