-- ==== Sys2Proof/Machine/Capture.lean ====
section
/-! DEFINITION. The capture of a fitting: the record of R554 and R555 and its writing (R553, R556, R557). -/

namespace Sys2Proof.Machine

/-- `n` words that the manual gives no contents. -/
def freeWords (ctr n : Nat) : List Word := (List.range n).map (fun i => Config.freeWord64 (ctr + i))

/-- Bank b holds captured data: requested, and in FIELD reserved by a command of the issuing function (R556). -/
def bankShown (d : Dev) (c : Core) (f : Fitting) (b : Nat) : Bool :=
  f.tile && (d.opts.lifecycle != 3 ||
    c.rings.any (fun e => let sh := e.2.shape
      decide (sh.bank ≤ b) && decide (b < sh.bank + sh.nb) && (c.sharers e.1).any (fun m => m.func == f.func)))

/-- The header (R555). -/
def fitHeader (d : Dev) (k : Nat) (f : Fitting) (banks : List Bool) : List Word :=
  [ place 0x4B334654 32 ||| place 1 24 ||| placeB f.tile 23 ||| place (keyPanel k) 18 ||| place (keySite k) 10 |||
      place ((siteIndex d k).getD 0x3FF) 0,
    place f.edge 0, d.time,
    (List.range 64).foldl (fun w b => w ||| placeB (banks.getD b false) b) 0,
    place f.func 0, 0, 0, 0 ]

/-- One accumulator: 16 KiB, rows in M order. -/
def fitAcc (a : Acc) : List Byte :=
  (List.range 4096).flatMap (fun i => leBytes 4 (a.vals.getD i (0 : BitVec 32)).toNat)

/-- DESIGN CHOICE (log entry 63): a word with its tag and fill bits as two 32-bit words, the tag in bits [1:0] and the fill bit in bit 2. -/
def fitFWord (w : FWord) : List Byte := leBytes 4 w.w.toNat ++ leBytes 4 (w.tag.toNat + if w.full then 4 else 0)

/-- A cell: the output word, tag and fill bits, R0 to R3; the last 8 of its 32 bytes are not laid out. -/
def fitCell (c : Core) (free : Nat) (i : Nat) : List Byte :=
  let x := c.fab.cells.getD i CellSt.zero
  fitFWord x.out ++ x.regs.flatMap (fun r => leBytes 4 r.toNat) ++ leBytes 8 (Config.freeWord64 (free + i)).toNat

/-- An edge cell: the word it drives with tag and fill bits; the last 8 of its 16 bytes are not laid out. -/
def fitEdge (c : Core) (free : Nat) (i : Nat) : List Byte :=
  fitFWord (c.fab.edges.getD i EdgeSt.zero).drive ++ leBytes 8 (Config.freeWord64 (free + i)).toNat

/-- The phase of a cell in the present tick: the slot it is at (R141). -/
def fitPhase (c : Core) (i : Nat) : Nat :=
  let g := Img.ofBytes (c.fab.planes.getD c.fab.plane Plane.zero).image
  if g.slow (g.region (i / 16)) then c.fab.tick / 2 % max 1 (g.period / 2) else c.fab.tick % max 1 g.period

/-- The fabric part: 10,240 bytes; what lies beyond FABRIC_ROWS is 0. -/
def fitFabric (p : Params) (c : Core) (free : Nat) : List Byte :=
  let n := 16 * p.fabricRows
  let pad (size : Nat) (bs : List Byte) : List Byte := bs ++ List.replicate (size - bs.length) 0
  pad 8192 ((List.range n).flatMap (fitCell c free)) ++
  pad 1024 ((List.range (32 + 2 * p.fabricRows)).flatMap (fitEdge c (free + 256))) ++
  leBytes 8 c.fab.tick ++ pad 1016 ((List.range n).map (fun i => BitVec.ofNat 8 (fitPhase c i)))

/-- Tile memory, bank by bank; a bank that is not shown is zeros. -/
def fitTile (p : Params) (c : Core) (banks : List Bool) : List Byte :=
  (List.range 64).flatMap (fun b =>
    if banks.getD b false then (List.range p.bankBytes).map (fun i => c.tmGet p (b, i)) else List.replicate p.bankBytes 0)

/-- The fitting record (R554). Free words: 120 of the sequencer, 512 of the fabric. Descriptor slots are filled in admission order. -/
def fitRecord (s : State) (k : Nat) (f : Fitting) : List Byte :=
  let c := s.dev.core k
  let banks := (List.range 64).map (bankShown s.dev c f)
  let ds := (c.cmds.flatMap (·.descs)).take 128
  wordsToBytes (fitHeader s.dev k f banks) ++ wordsToBytes (freeWords s.dev.freeCtr 120) ++
  wordsToBytes ((ds.flatten ++ List.replicate (1024 - ds.flatten.length) 0).take 1024) ++
  c.opu.accs.flatMap fitAcc ++ fitFabric s.params c (s.dev.freeCtr + 120) ++ (if f.tile then fitTile s.params c banks else [])

/-- The translation of a granule of the record: a leaf that the core or its panel holds, else a walk (R403, R556). -/
def fitXlate (s : State) (k : Nat) (f : Fitting) (va : Nat) : Except XFault Target :=
  let q := s.dev.panel (keyPanel k)
  match leafFind ((s.dev.core k).tlb ++ q.tlb) f.ctx f.root va with
  | some e => useLeaf e.pte e.log2 va .write
  | none => translate s q.wcache f.ctx f.root va .write

/-- The record written granule by granule through the context's translation; the fault that stops it. -/
def fitWrite (k : Nat) (f : Fitting) (s : State) (bs : List Byte) : List (Nat × Nat) → State × Option XFault
  | [] => (s, none)
  | (va, n) :: rest =>
    match fitXlate s k f va with
    | .ok t => fitWrite k f (writeTarget s f.func f.ctx t (bs.take n)) (bs.drop n) rest
    | .error x => (s, some x)

/-- FITTING_EDGE (R553, R557): the armed fitting of a core reaches its edge; the record is written while the core stands, and the packet
completes. -/
def fittingEdge (s : State) (k : Nat) : State :=
  match (s.dev.core k).fitting with
  | none => s
  | some f =>
    let bs := fitRecord s k f
    let own := (siteIndex s.dev k).getD 0
    let s0 := s.upd (fun d => { d.modCore k (fun c => { c with fitting := none }) with freeCtr := d.freeCtr + 632 })
    match fitWrite k f s0 bs (pieces f.va bs.length (bs.length / 64 + 2)) with
    | (s1, none) => reportCore s1 f.q f.uid own .done 0
    | (s1, some x) =>
      reportCore (s1.upd (fun d => d.fault f.func { x.info with ctx := f.ctx, queue := qnum f.q, core := own, seq := f.seq.toNat,
                                                                subidx := f.subidx, tag := f.tag, access := 2 })) f.q f.uid own .permFault 0
def execFittingEdge (core : Nat) (s : State) : Out := onCore s core (fittingEdge s)

end Sys2Proof.Machine
end

