-- ==== Sys2Proof/Machine/Ports.lean ====
section
/-! DEFINITION. Stack ports: arbitration (R444 to R446), requests on the wire and their responses (R406, R520 to R524), the accumulate
unit (R81, R407 to R409), remap copies (R417, R494) and page walks (R404). -/

namespace Sys2Proof.Machine

/-! ## What a response does to the core that asked -/

/-- The command of a request, its access, GEN and address, for its fault record. -/
def reqCmd (d : Dev) (k req : Nat) : Option (Cmd × CoreReq) :=
  ((d.core k).reqs.find? (fun r => r.id == req)).bind (fun r => ((d.core k).cmd r.uid).map (fun m => (m, r)))

/-- Bytes that a read returns to its command, counted as R391 counts them. -/
def countRead (d : Dev) (m : Cmd) (r : CoreReq) : Dev :=
  let n := (r.place.map (fun q => q.2.2)).foldl (· + ·) 0
  if r.region = 16 then d
  else countUsage d m.ctx (fun u =>
    if r.zeroing then { u with accBytes := u.accBytes + BitVec.ofNat 64 n } else { u with rdBytes := u.rdBytes + BitVec.ofNat 64 n })

/-- Data given to a waiting request and to the requests linked to it (R220). -/
def giveData (d : Dev) (k : Nat) (r : CoreReq) (bs : List Byte) : Dev :=
  ((k, r.id) :: r.links).foldl (fun d e => d.modCore e.1 (fun c =>
    { c with reqs := c.reqs.map (fun x => if x.id == e.2 && x.state == 0 then { x with state := 1, data := bs } else x) })) d

/-- ACCESS and GEN of a read: a descriptor or block copy has 5, a fabric image and a swatch 1, a run the GEN of its own descriptor (R231, R271,
R401). -/
def readAccess (p : Params) (c : Core) (m : Cmd) (r : CoreReq) : Nat × Nat :=
  if r.region = 18 ∨ r.region = 19 then (5, 0)
  else if 16 ≤ r.region then (1, 0)
  else
    let gen := match m.region r.region with
      | none => 0
      | some g => match runOf p m r.region ((c.ring g.key).seg r.seg).run with
        | some (_, i) => (m.desc i).gen
        | none => 0
    (if r.zeroing then 4 else 1, gen)

/-- A read ends: its data reach the core, or its command fails with PERM_FAULT and W4 = 0 (R406, R513). -/
def readDone (p : Params) (d : Dev) (k req : Nat) (data : Option (List Byte)) : Dev :=
  match reqCmd d k req with
  | none => d.modCore k (fun c => { c with reqs := c.reqs.filter (fun r => r.id != req) })
  | some (m, r) =>
    match data with
    | some bs => giveData (countRead d m r) k r bs
    | none =>
      let d1 := d.modCore k (fun c => { c with reqs := c.reqs.map (fun x => if x.id == req then { x with state := 2 } else x) })
      let (access, gen) := readAccess p (d.core k) m r
      permFail d1 k m r.va access gen 0

/-- A granule of a write unit is acknowledged (R217), or its write failed: the command fails with PERM_FAULT and W4 = 0 (R521, R513). -/
def writeDone (d : Dev) (k uid va access gen : Nat) (ok : Bool) : Dev :=
  let d1 := d.modCore k (fun c => { c.modCmd uid (fun m => { m with acks := m.acks - 1 }) with moved := true })
  if ok then d1 else match (d1.core k).cmd uid with | some m => permFail d1 k m va access gen 0 | none => d1

/-- The end of a request, for its source: a read of a core, a granule of a write unit, or a read of a page walk. -/
def reqDone (p : Params) (d : Dev) (r : PortReq) (data : Option (List Byte)) : Dev :=
  match r.src with
  | .core k i => readDone p d k i data
  | .coreWrite k u va a g => writeDone d k u va a g data.isSome
  | .walk n i => walkData p d n i data
  | .unit => d

/-! ## STACK_PORT_GRANT (R29, R444 to R446, R520) -/

/-- Granule operations of a request. -/
def reqGrans (r : PortReq) : Nat := if r.two then 2 else 1

/-- The request of a function that the port takes: rotating by logical core index, in a core its oldest (R445). -/
def pickReq (q : StackPort) (f : Nat) : Option PortReq :=
  let ws := q.waiting.filter (fun r => r.func == f)
  (rotate (fun i => ws.any (fun r => r.core == i)) (Tbl.get 1023 f q.lastCore) 1024).bind (fun i => ws.find? (fun r => r.core == i))

/-- Granule operations of the request that the port would take from a function. -/
def grantSize (q : StackPort) (f : Nat) : Nat := match pickReq q f with | some r => reqGrans r | none => 0

/-- Subchannel of a stack-local address on the wire (R520). -/
def subOf (a : Nat) : Nat := a / 128 % 8

/-- DESIGN CHOICE (log entry 31): the lowest tag that no outstanding request of the kind uses on the subchannel. -/
def freeTag (rs : List PortReq) (sub : Nat) : Option Nat := lowest 256 (fun t => rs.all (fun r => !(r.sub == sub && r.tag == t)))

/-- The granules of a read as its port serves them now; empty when one of them is poisoned (R406). -/
def readNow (s : State) (key addr : Nat) (two : Bool) : List Byte :=
  if isPoisoned s key addr || (two && isPoisoned s key (addr + 64)) then []
  else stackGran s key addr ++ (if two then stackGran s key (addr + 64) else [])

/-- A read goes on the wire, as one request or as two (R520), when tags are free. What it returns is fixed here: a port serves requests
to one granule in the order of issue (R522). -/
def wireRead (s : State) (key : Nat) (r : PortReq) : Option State :=
  let a := served s.params s.dev key r.addr
  let q := s.dev.port key
  let put (q : StackPort) (addr : Nat) (two : Bool) (part wire : Nat) : Option StackPort :=
    (freeTag q.outR (subOf wire)).map (fun t => { q with outR := q.outR ++
      [{ r with addr := addr, two := two, data := readNow s key addr two, sub := subOf wire, tag := t, part := part }] })
  let q' := if r.two && a % 128 != 0 then (put q r.addr false 1 a).bind (fun q => put q (r.addr + 64) false 2 (a + 64))
    else put q r.addr r.two 0 a
  q'.map (fun q => s.upd (fun d => d.setPort key q))

/-- A write goes on the wire when a tag is free; its bytes are stored in the order of issue (R522). -/
def wireWrite (s : State) (key : Nat) (r : PortReq) : Option State :=
  let a := served s.params s.dev key r.addr
  (freeTag (s.dev.port key).outW (subOf a)).map (fun t =>
    (putGran s key r.addr r.data r.mask).upd (fun d => d.modPort key (fun q =>
      { q with outW := q.outW ++ [{ r with data := [], sub := subOf a, tag := t }] })))

/-- Some granule of a request is that of an operation queued for the accumulate unit. -/
def behindUnit (q : StackPort) (r : PortReq) : Bool :=
  q.accq.any (fun x => overlaps x.addr (64 * reqGrans x) r.addr (64 * reqGrans r))

/-- An accepted request: an operation of the accumulate unit, and whatever must stay in order behind one (R407), joins its queue; a plain
read or write goes on the wire. None when no tag is free. -/
def acceptReq (s : State) (key : Nat) (r : PortReq) : Option State :=
  if r.op == .accum || r.op == .zeroRead || r.op == .clear || behindUnit (s.dev.port key) r then
    some (s.upd (fun d => d.modPort key (fun q => { q with accq := q.accq ++ [r] })))
  else if r.op == .read then wireRead s key r
  else wireWrite s key r

/-- STACK_PORT_GRANT (R445): one request of the port is granted; a function in reset requests nothing (R447). A port whose controller left answers it as
uncorrectable (R524). -/
def portGrant (s : State) (key : Nat) : State :=
  let q := s.dev.port key
  if !(q.ready || q.lost) then s
  else
    let req (f : Nat) : Bool := !capped s.dev q f && !(s.dev.fn f).inReset && q.waiting.any (fun r => r.func == f)
    match pickFn s.dev q req (grantSize q) with
    | none => s
    | some (f, q1) =>
      match pickReq q f with
      | none => s
      | some r =>
        let s1 := s.upd (fun d => d.setPort key { q1 with
          waiting := q1.waiting.filter (fun x => x.id != r.id), lastCore := Tbl.set f r.core q1.lastCore })
        if q.lost then advanceResets (s1.upd (fun d => reqDone s.params (countUe s.params d key r.addr) r none))
        else (acceptReq s1 key r).getD s
def execStackPortGrant (panel port : Nat) (s : State) : Out := .next (portGrant s (portKey panel port))

/-! ## Responses (R406, R521) -/

/-- Two parts of a pair put together; an empty part stands for one that failed. -/
def joinParts (a b : List Byte) : List Byte := if a.isEmpty || b.isEmpty then [] else a ++ b

/-- The other part of a split pair that is still outstanding. -/
def sibling (q : StackPort) (r : PortReq) : Option PortReq :=
  if r.part = 0 then none else q.outR.find? (fun x => x.src == r.src && x.part != 0 && x.part != r.part)

/-- The error logic of a port on the status of one granule of a read: corrections and uncorrectable responses, poisoned granules among them, are counted
(R406, R485, R505, R521). -/
def countStatus (p : Params) (d : Dev) (key addr st : Nat) : Dev :=
  if st = 1 then countPort d key addr else if 2 ≤ st then countUe p d key addr else d

/-- What the controller answered for a granule last is kept for the accesses that a dispatch unit makes whole (log entry 9). -/
def noteStatus (s : State) (key addr st : Nat) : State :=
  let g := granKey s key addr
  { s with mem := { s.mem with bad := if 2 ≤ st then Tbl.set g () s.mem.bad else Tbl.del g s.mem.bad } }

/-- The status of a granule of a read: 3 where the granule is poisoned, whatever a good status says. -/
def statusOf (s : State) (key : Nat) (r : PortReq) (addr st : Nat) : Nat := if st < 2 ∧ r.data.isEmpty ∧ isPoisoned s key addr then 3 else st

/-- The status of one granule noted and counted. -/
def takeStatus (s : State) (key addr st : Nat) : State := (noteStatus s key addr st).upd (fun d => countStatus s.params d key addr st)

/-- The granule that the accumulate unit read is in its buffer; or it cannot be read, and the operation that waits for it fails (R406, R409). -/
def unitFill (s : State) (key addr : Nat) (ok : Bool) : State :=
  if ok then s.upd (fun d => d.modPort key (fun q => { q with buf := q.buf ++ [⟨addr, stackGran s key addr⟩] }))
  else match (s.dev.port key).accq.find? (fun r => overlaps r.addr (64 * reqGrans r) addr 64) with
    | none => s
    | some r => s.upd (fun d => reqDone s.params (d.modPort key (fun q => { q with accq := q.accq.erase r })) r none)

/-- A read that has its whole answer, for its source. -/
def answerRead (s : State) (key : Nat) (r : PortReq) (bs : List Byte) : State :=
  if r.src == .unit then unitFill s key r.addr (!bs.isEmpty)
  else s.upd (fun d => reqDone s.params d r (if bs.isEmpty then none else some bs))

/-- STACK_READ_RESPONSE (R521): status `st` for the request with this tag, two bits for each granule. -/
def readResponse (s : State) (key sub tag st : Nat) : State :=
  match (s.dev.port key).outR.find? (fun r => r.sub == sub && r.tag == tag) with
  | none => s
  | some r =>
    let st1 := statusOf s key r r.addr (st % 4)
    let st2 := if r.two then statusOf s key r (r.addr + 64) (st / 4 % 4) else 0
    let s1 := takeStatus s key r.addr st1
    let s2 := if r.two then takeStatus s1 key (r.addr + 64) st2 else s1
    let bs := if 2 ≤ st1 ∨ 2 ≤ st2 then [] else r.data
    let s3 := s2.upd (fun d => d.modPort key (fun q => { q with outR := q.outR.filter (fun x => !(x.sub == sub && x.tag == tag)) }))
    match sibling (s.dev.port key) r with
    | some o =>
      let both := if r.part = 1 then joinParts bs o.data else joinParts o.data bs
      s3.upd (fun d => d.modPort key (fun q => { q with outR := q.outR.map (fun x =>
        if x.sub == o.sub && x.tag == o.tag then { x with data := both, part := 0 } else x) }))
    | none => advanceResets (answerRead s3 key r bs)
def execStackReadResponse (panel port sub tag st : Nat) (s : State) : Out := .next (readResponse s (portKey panel port) sub tag st)

/-- STACK_WRITE_ACK (R521): a failed write leaves its granule poisoned, fails its command and sends a KIND 7 record. -/
def writeAck (s : State) (key sub tag st : Nat) : State :=
  match (s.dev.port key).outW.find? (fun r => r.sub == sub && r.tag == tag) with
  | none => s
  | some r =>
    let d1 := s.dev.modPort key (fun q => { q with outW := q.outW.filter (fun x => !(x.sub == sub && x.tag == tag)) })
    if st = 2 then
      let s1 : State := { s with mem := { s.mem with poison := Tbl.set (granKey s key r.addr) () s.mem.poison } }
      advanceResets (s1.withDev (reqDone s.params (countUe s.params d1 key r.addr) r none))
    else advanceResets (s.withDev (reqDone s.params d1 r (some [])))
def execStackWriteAck (panel port sub tag st : Nat) (s : State) : Out := .next (writeAck s (portKey panel port) sub tag st)

/-- STACK_READY_FALL (R524): the controller leaves in service; every outstanding and queued request is answered as uncorrectable. -/
def readyFall (s : State) (key : Nat) : State :=
  let q := s.dev.port key
  if !q.ready || !s.dev.inService then s
  else
    let rs := q.outR ++ q.outW ++ q.accq
    let d1 := s.dev.setPort key { q with ready := false, lost := true, outR := [], outW := [], accq := [], buf := [] }
    let one (d : Dev) (r : PortReq) : Dev :=
      let d' := countUe s.params d key r.addr
      if r.part = 2 && rs.any (fun x => x.src == r.src && x.part == 1) then d' else reqDone s.params d' r none
    advanceResets (s.withDev (rs.foldl one d1))
def execStackReadyFall (panel port : Nat) (s : State) : Out := .next (readyFall s (portKey panel port))

/-! ## The accumulate unit (R407 to R409) -/

/-- A 32-bit element of a granule. -/
def elemAt (bs : List Byte) (i : Nat) : BitVec 32 := BitVec.ofNat 32 (leNat ((bs.drop (4 * i)).take 4))

/-- A granule after an accumulate: masked elements added with one RNE rounding (R81). -/
def accGran (old data : List Byte) (mask : Nat) : List Byte :=
  (List.range 16).flatMap (fun i => leBytes 4 (if mask.testBit i then fadd (elemAt old i) (elemAt data i) else elemAt old i).toNat)

/-- A granule after a zeroing read: masked elements are +0. -/
def zeroGran (old : List Byte) (mask : Nat) : List Byte :=
  (List.range 16).flatMap (fun i => leBytes 4 (if mask.testBit i then 0 else elemAt old i).toNat)

/-- Granules an accumulate unit holds. -/
def bufSize : Nat := 64

/-- A request that an accumulate unit makes on the wire (R520): one whole granule, for no function. -/
def unitReq (op : PortOp) (addr mask : Nat) (data : List Byte) : PortReq := ⟨0, .unit, op, addr, false, 0, 0x3FF, 0x3FF, mask, data, 0, 0, 0⟩

/-- A buffered granule leaves the buffer and is written back on the wire; none when no tag is free. -/
def writeBack (s : State) (key : Nat) (g : BufGran) : Option State :=
  wireWrite (s.upd (fun d => d.modPort key (fun q => { q with buf := q.buf.filter (fun x => x.addr != g.addr) }))) key
    (unitReq .write g.addr fullMask g.data)

/-- Granules that the unit holds or is reading. -/
def unitHolds (q : StackPort) : Nat := q.buf.length + (q.outR.filter (fun r => r.src == .unit)).length

/-- Room for one more granule: when the buffer is full, its oldest entry that the operation does not need is written back. None while no entry can
leave. -/
def makeRoom (s : State) (key : Nat) (r : PortReq) : Option State :=
  let q := s.dev.port key
  if unitHolds q < bufSize then some s
  else (q.buf.find? (fun g => !overlaps g.addr 64 r.addr (64 * reqGrans r))).bind (writeBack s key)

/-- A buffered granule replaced, or put into the buffer. -/
def bufferPut (d : Dev) (key addr : Nat) (data : List Byte) : Dev :=
  let put (bs : List BufGran) : List BufGran :=
    if bs.any (fun g => g.addr == addr) then bs.map (fun g => if g.addr == addr then ⟨addr, data⟩ else g) else bs ++ [⟨addr, data⟩]
  d.modPort key (fun q => { q with buf := put q.buf })

/-- The granules of an operation that the unit does not hold. An ACC_CLEAR replaces its granules whole, but takes an entry for each too. -/
def unbuffered (q : StackPort) (r : PortReq) : List Nat :=
  ((List.range (reqGrans r)).map (fun i => r.addr + 64 * i)).filter (fun a => !q.buf.any (fun g => g.addr == a))

/-- One operation on one granule that the unit holds: what the granule was, and the granule replaced; a clear replaces it whole, poison and all (R406,
R407). -/
def unitOp (s : State) (key : Nat) (op : PortOp) (addr mask : Nat) (data : List Byte) : State × List Byte :=
  let old := (buffered s.dev key addr).getD (List.replicate 64 0)
  let new : List Byte := (match op with | .accum => accGran old data mask | .zeroRead => zeroGran old mask | _ => List.replicate 64 0)
  ({ s with mem := if op == .clear then s.mem.clean (granKey s key addr) else s.mem, dev := bufferPut s.dev key addr new }, old)

/-- An operation whose granules the unit holds carried out and answered. -/
def applyOp (s : State) (key : Nat) (r : PortReq) : State :=
  let (s1, x) := unitOp s key r.op r.addr (r.mask % 65536) r.data
  let (s2, y) := if r.two then unitOp s1 key r.op (r.addr + 64) (r.mask / 65536) (r.data.drop 64) else (s1, [])
  advanceResets (s2.upd (fun d => reqDone s.params d r (some (x ++ y))))

/-- ACCUMULATE_OP of a stack port (R407, R409): the first operation of the unit's queue. A granule that the unit does not hold is read from the stack
first, with room made for it; then the operation is carried out: an accumulate or clear is acknowledged, a zeroing read returns its granules. A plain
request that stood behind one goes on the wire. -/
def accumulateOp (s : State) (key : Nat) : State :=
  match (s.dev.port key).accq with
  | [] => s
  | r :: rest =>
    let s0 := s.upd (fun d => d.modPort key (fun q => { q with accq := rest }))
    match r.op with
    | .read => (wireRead s0 key r).getD s
    | .write => (wireWrite s0 key r).getD s
    | .clear =>
      (match unbuffered (s.dev.port key) r with
       | a :: _ => ((makeRoom s key r).map (fun s => s.upd (fun d => bufferPut d key a (List.replicate 64 0)))).getD s
       | [] => applyOp s0 key r)
    | _ =>
      match unbuffered (s.dev.port key) r with
      | a :: _ =>
        if (s.dev.port key).outR.any (fun x => x.src == .unit && x.addr == a) then s
        else ((makeRoom s key r).bind (fun s => wireRead s key (unitReq .read a 0 []))).getD s
      | [] => applyOp s0 key r

/-- ACC_WRITEBACK of a stack port (R409): a buffered granule that no request waits for is written back. -/
def accWriteback (s : State) (key granule : Nat) : State :=
  let q := s.dev.port key
  match q.buf.find? (fun g => g.addr == gran granule) with
  | none => s
  | some g => if q.accq.any (fun r => overlaps r.addr (64 * reqGrans r) g.addr 64) then s else (writeBack s key g).getD s

/-! ## REMAP_GRANULE_COPY (R417, R494) -/

/-- Where the granule at the copy pointer is copied from and to, as stack-local places. -/
def remapEnds (p : Params) (d : Dev) (key : Nat) (r : Remap) : Nat × Nat :=
  let u := usable p d (key / 16)
  (served p d key (r.unit + r.ptr), slotAddr p u r.coarse r.slot + r.ptr)

/-- One granule moved whole, with its poison. -/
def moveGran (m : MemSys) (src dst : Nat) : MemSys :=
  let poisoned := m.poison.any (fun e => e.1 == src / 64)
  { m with
    stack := Memory.write dst (Memory.read src 64 m.stack) m.stack
    poison := if poisoned then Tbl.set (dst / 64) () m.poison else Tbl.del (dst / 64) m.poison }

/-- The remap entry of a unit advanced by one granule; at the unit's end it is live alone, and the slot it came from is used up. -/
def advanceRemap (r : Remap) (q : StackPort) : StackPort :=
  let fin := decide (unitBytes r.coarse ≤ r.ptr + 64)
  { q with
    remaps := q.remaps.map (fun x => if x == r then
      (if fin then { x with copying := false, ptr := 0, fromSlot := none, uid := 0 } else { x with ptr := x.ptr + 64 }) else x)
    usedSlots := match (if fin then r.fromSlot else none) with | some s => q.usedSlots ++ [(r.coarse, s)] | none => q.usedSlots }

/-- REMAP_GRANULE_COPY: the first unit of a port that is being copied moves its next granule; its RETIRE completes with the last. -/
def remapCopy (s : State) (key : Nat) : State :=
  match (s.dev.port key).remaps.find? (·.copying) with
  | none => s
  | some r =>
    let (a, b) := remapEnds s.params s.dev key r
    let s1 : State := { s with mem := moveGran s.mem (placeOf key a) (placeOf key b), dev := s.dev.modPort key (advanceRemap r) }
    if unitBytes r.coarse ≤ r.ptr + 64 then completePkt s1 (.ctl 0) r.uid else s1
def execRemapGranuleCopy (panel port : Nat) (s : State) : Out := .next (remapCopy s (portKey panel port))

/-! ## PAGE_WALK_COMPLETE (R400, R403, R404) -/

/-- The caches of a panel and of a core after a walk (R403). -/
def cacheWalk (d : Dev) (panel site : Nat) (leaf : Option TlbEntry) (ptrs : List TlbEntry) : Dev :=
  let d1 := cachePanel d panel leaf ptrs
  match leaf with
  | some e => (d1.modCore site (fun c => { c with tlb := cacheAdd coreCacheSize d1.freeCtr e c.tlb })).draw
  | none => d1

/-- PAGE_WALK_COMPLETE: the idx-th walk in flight of a panel, once its last read is here, ends; its entry is cached, or its fault halts or fails the
core's command. While the core is halted already, an absent page is left for the walk after the RESUME. -/
def walkComplete (s : State) (panel idx : Nat) : State :=
  let q := s.dev.panel panel
  match q.walks[idx]? with
  | none => s
  | some w =>
    match w.res with
    | none => s
    | some e =>
      let d0 := s.dev.setPanel panel { q with walks := q.walks.eraseIdx idx }
      let leaf := match e with | .leaf n pte => some (leafEntry w.ctx w.root w.va n pte) | _ => none
      let d1 := cacheWalk d0 panel w.site leaf w.ptrs
      match (s.dev.core w.site).cmd w.uid with
      | none => s.withDev d1
      | some m =>
        let h : Halt := ⟨m.uid, w.region, w.va, w.access, w.gen, haltWhat w.region, match m.region w.region with | some r => r.credited.map (·.1) | none => []⟩
        match e with
        | .leaf _ _ => s.withDev d1
        | .absent n => s.withDev (if (s.dev.core w.site).halted || m.fail.isSome then d1 else xlateHalt d1 w.site m h (BitVec.ofNat 64 n))
        | .bad w4 => s.withDev (permFail d1 w.site m w.va w.access w.gen w4)
def execPageWalkComplete (panel idx : Nat) (s : State) : Out := .next (walkComplete s panel idx)

end Sys2Proof.Machine
end

