-- ==== Sys2Proof/Machine/HostPort.lean ====
section
/-! DEFINITION. The host port: responses on the initiator channel (R512 to R514), interrupt messages and held fault records (R268, R434,
R515), the memory aperture (R414, R415), snoops and the host-port accumulate unit (R412, R517). -/

namespace Sys2Proof.Machine

/-! ## The host-port accumulate unit (R412) -/

/-- DESIGN CHOICE (log entry 37): port number 15 of panel 0 names the accumulate unit of the host port. -/
def hostUnit : Nat := 15

/-- Granules its buffer holds. -/
def hostBufSize : Nat := 16

/-- A held granule leaves with WROWN for the function that operated on it last (R410, R412). -/
def wrOwn (s : State) (g : HeldGran) : State :=
  s.upd (fun d => ({ d with host := { d.host with accBuf := d.host.accBuf.filter (fun x => x.addr != g.addr) } }).issue g.func 5 g.addr g.data
    (List.replicate 64 true) (.accWrite g.addr))

/-- The held granule replaced by the result of an operation of a function. -/
def holdGran (d : Dev) (f addr : Nat) (data : List Byte) : Dev :=
  { d with host := { d.host with accBuf := d.host.accBuf.map (fun g => if g.addr == addr then ⟨addr, data, true, f⟩ else g) } }

/-- The granules of an operation that the unit does not hold. -/
def missing (d : Dev) (r : PortReq) : List Nat :=
  ((List.range (reqGrans r)).map (fun i => r.addr + 64 * i)).filter (fun a => !d.host.accBuf.any (fun g => g.addr == a))

/-- One operation on a held granule. -/
def hostOp (d : Dev) (op : PortOp) (f addr mask : Nat) (data : List Byte) : Dev × List Byte :=
  let old := (heldGran d addr).getD (List.replicate 64 0)
  (holdGran d f addr (match op with
    | .accum => accGran old data mask
    | .zeroRead => zeroGran old mask
    | .clear => List.replicate 64 0
    | _ => old), old)

/-- A plain request at the front of the unit's queue: the granules that the unit holds of it leave first, then it is issued behind them (R407, R408,
R412). -/
def hostPlain (s : State) (r : PortReq) : State :=
  let n := 64 * reqGrans r
  let s1 := (s.dev.host.accBuf.filter (fun g => overlaps g.addr 64 r.addr n)).foldl wrOwn s
  s1.upd (fun d =>
    if r.op == .read then d.issueFor r.func r.ctx 3 r.addr [] (List.replicate n true) (hostUseOf r.src)
    else d.issueFor r.func r.ctx 5 r.addr r.data ((List.range n).map r.mask.testBit) (hostUseOf r.src))

/-- ACCUMULATE_OP of the host port's unit: a plain request in front is issued; a granule that an operation needs and the unit does not hold is read for
ownership, room made for it first; else the operation is carried out. -/
def hostAccOp (s : State) : State :=
  match s.dev.host.accq with
  | [] => s
  | r :: rest =>
    let s0 := s.upd (fun d => { d with host := { d.host with accq := rest } })
    if r.op == .read || r.op == .write then hostPlain s0 r
    else match missing s.dev r with
    | a :: _ =>
      if s.dev.host.reqs.any (fun x => x.use == .accRead a && !x.abandoned) then s
      else
        let s1 := match s.dev.host.accBuf.find? (fun g => !overlaps g.addr 64 r.addr (64 * reqGrans r)) with
          | some g => if hostBufSize ≤ s.dev.host.accBuf.length then wrOwn s g else s
          | none => s
        s1.upd (fun d => d.issueFor r.func r.ctx 4 a [] (List.replicate 64 true) (.accRead a))
    | [] =>
      let (d1, x) := hostOp s0.dev r.op r.func r.addr (r.mask % 65536) r.data
      let (d2, y) := if r.two then hostOp d1 r.op r.func (r.addr + 64) (r.mask / 65536) (r.data.drop 64) else (d1, [])
      advanceResets (s.withDev (reqDone s.params d2 r (some (x ++ y))))

/-- ACCUMULATE_OP (R407, R409, R412): of a stack port's unit, or of the host port's. -/
def execAccumulateOp (panel port : Nat) (s : State) : Out :=
  .next (if panel = 0 ∧ port = hostUnit then hostAccOp s else accumulateOp s (portKey panel port))

/-- ACC_WRITEBACK (R409, R412): a buffered granule that no request waits for is written back. -/
def execAccWriteback (panel port granule : Nat) (s : State) : Out :=
  .next (if panel = 0 ∧ port = hostUnit then
    (match s.dev.host.accBuf.find? (fun g => g.addr == gran granule) with
     | some g => if s.dev.host.accq.any (fun r => overlaps r.addr (64 * reqGrans r) g.addr 64) then s else wrOwn s g
     | none => s)
  else accWriteback s (portKey panel port) granule)

/-! ## HOST_RESPONSE (R513) -/

/-- A write that the bridge has answered may be stored: no earlier write of its function is still unanswered (R514). -/
def mayLand (d : Dev) (r : HostReq) : Bool := !d.host.reqs.any (fun x => x.func == r.func && x.stores && !x.abandoned && decide (x.seq < r.seq))

/-- A write stored in host memory. -/
def hostStore (s : State) (r : HostReq) : State :=
  { s with mem := { s.mem with host := Memory.writeEn r.addr r.data r.be s.mem.host } }

/-- Every answered write that waits for no earlier write of its function any more is stored, in the order of issue (R514). -/
def landLate (s : State) : State :=
  ((s.dev.host.late.filter (mayLand s.dev)).foldl hostStore s).upd (fun d =>
    { d with host := { d.host with late := d.host.late.filter (fun r => !mayLand d r) } })

/-- An answered write is put among those that wait for their turn. -/
def keepLate (d : Dev) (r : HostReq) : Dev := { d with host := { d.host with late := inSeq r d.host.late } }

/-- The answer to a request for a host granule is kept for the accesses that a dispatch unit makes whole (log entry 9). -/
def noteHost (s : State) (r : HostReq) (err : Bool) : State :=
  let set (t : List (Nat × Unit)) (g : Nat) : List (Nat × Unit) := if err then Tbl.set g () t else Tbl.del g t
  if r.use == .msg then s
  else { s with mem := { s.mem with hostBad := (List.range (ceilDiv (r.addr % 64 + r.be.length) 64)).foldl (fun t i => set t (r.addr / 64 + i)) s.mem.hostBad } }

/-- The data of a read response as its lanes give them. -/
def lanes (r : HostReq) (data : List Byte) : List Byte := (List.range r.be.length).map (byteAt data)

/-- A reply that the bridge refused: dropped and counted (R268, R513). -/
def loseReply (d : Dev) (f : Nat) (k : RingRef) : Dev :=
  let g := d.ring f k
  d.setRing f k { g with lost := BitVec.ofNat 32 (satAdd 32 g.lost.toNat 1), lostFlag := true }

/-- The first operation of the host port's unit that waits for a granule fails (R406, R513). -/
def failAccRead (p : Params) (d : Dev) (a : Nat) : Dev :=
  match accWaiter d a with
  | none => d
  | some r => reqDone p { d with host := { d.host with accq := d.host.accq.erase r } } r none

/-- What a response does for its request. A write that was answered without an error is stored in its turn. -/
def hostAnswer (s : State) (r : HostReq) (err : Bool) (data : List Byte) : State :=
  let keep (s : State) : State := if err then s else s.upd (fun d => keepLate d r)
  match r.use with
  | .streamRead k i => s.upd (fun d => readDone s.params d k i (if err then none else some (lanes r data)))
  | .streamWrite k u va a g => (keep s).upd (fun d => writeDone d k u va a g (!err))
  | .walkRead p i => s.upd (fun d => walkData s.params d p i (if err then none else some (lanes r data)))
  | .reply f ring => if err then s.upd (fun d => loseReply d f ring) else keep s
  | .faultRec f ws => if err then s.upd (fun d => { d with host := { d.host with retry := d.host.retry ++ [(f, r.addr, ws)] } }) else keep s
  | .faultOld f ws => if err then s.upd (fun d => d.modFn f (fun x => { x with held := ⟨ws⟩ :: x.held })) else keep s
  | .mcRead u => mcAnswer s u err (lanes r data)
  | .msg => s
  | .mcWrite | .accWrite _ | .unitWrite => keep s
  | .accRead a =>
    if err then s.upd (fun d => failAccRead s.params d a)
    else s.upd (fun d => { d with host := { d.host with accBuf := d.host.accBuf ++ [⟨a, lanes r data, false, r.func⟩] } })

/-- HOST_RESPONSE (R513): the one response of a request; the late response of an abandoned one is discarded (R437). -/
def hostResponse (s : State) (tag : Nat) (err : Bool) (data : List Byte) : State :=
  match s.dev.host.reqs.find? (fun r => r.tag == tag && tag != noTag) with
  | none => s
  | some r =>
    let s1 := if r.abandoned then s else hostAnswer (noteHost s r err) r err data
    advanceResets (landLate (s1.upd (fun d => pump (d.retireReq tag))))
def execHostResponse (tag : Nat) (err : Bool) (data : List Byte) (s : State) : Out := .next (hostResponse s tag err data)

/-! ## Interrupt messages and fault records -/

/-- INTERRUPT_SEND (R434, R515): a pending, unmasked vector of a function whose messages are enabled is sent and its bit cleared. -/
def interruptSend (d : Dev) (f v : Nat) : Dev :=
  let x := d.fn f
  if d.inService && x.intEn && decide (v < 64) && bitOf x.intPend v && !bitOf x.intMask v then
    (d.modFn f (fun x => { x with intPend := x.intPend &&& ~~~(placeB true v) })).issue f 2 0 (leBytes 8 (v % 64)) (List.replicate 8 true) .msg
  else d
def execInterruptSend (func vector : Nat) (s : State) : Out := .next (s.upd (fun d => interruptSend d func vector))

/-- HELD_FAULT_RECORD_WRITE (R268): the oldest held fault record of a function is written once its ring is enabled and not full. -/
def execHeldFaultRecordWrite (func : Nat) (s : State) : Out :=
  .next (if s.dev.inService || s.dev.error3 then s.upd (fun d => d.writeHeld func) else s)

/-- FAULT_RECORD_RETRY (R513): the oldest fault record of a function that the bridge refused is written again. -/
def recordRetry (d : Dev) (f : Nat) : Dev :=
  match d.host.retry.find? (fun e => e.1 == f) with
  | none => d
  | some e =>
    ({ d with host := { d.host with retry := d.host.retry.erase e } }).issueWrite f e.2.1 (wordsToBytes e.2.2) (.faultRec f e.2.2)
def execFaultRecordRetry (func : Nat) (s : State) : Out := .next (s.upd (fun d => recordRetry d func))

/-! ## The memory aperture (R414, R415) -/

/-- An aperture access is served at all; otherwise a read gives 0 without an error (R241, R464, R471). -/
def apServed (d : Dev) (f : Nat) : Bool := d.inService && (f == 0 || d.opts.vfEn)

/-- An aperture access names addresses and lengths that a transaction can carry: a request in one aligned 256-byte block (R511). -/
def apShape (d : Dev) (f addr n : Nat) : Bool :=
  !d.boot.inReset && d.boot.targetReady && decide (f < 256) && decide (addr < 2 ^ 53) && decide (0 < n) && decide (addr % 256 + n ≤ 256)

/-- The object of an aperture access, as its context, virtual base and length; none when F may not reach it (R414, R415). -/
def apObject (d : Dev) (f addr n : Nat) : Option (Nat × Nat) :=
  let e := d.entry ⟨1, addr / 2 ^ 32 % 2 ^ 20⟩
  let off := addr % 2 ^ 32
  match e.payload with
  | .memObj va bytes _ => if e.live && e.href && ownsCtx d f e.owner && decide (off + n ≤ bytes) then some (e.owner, va + off) else none
  | _ => none

/-- The targets of the pieces of an aperture access, in order; none when it is refused (R415). DEDUCED (log entry 89): a fence bars the physical form too,
for no function reaches a FENCED range (R429). -/
def apTargets (s : State) (f addr n : Nat) (k : Acc3) : Option (List (Target × Nat)) :=
  if !s.dev.opts.peerEn || (s.dev.fn f).inReset then none
  else if addr.testBit 52 then
    (if f != 0 then none
     else (pieces (addr % 2 ^ 46) n (n / 64 + 2)).mapM (fun pc =>
       if backed s.params s.dev pc.1 && !inFence s.dev pc.1 pc.2 then some (Target.phys pc.1, pc.2) else none))
  else (apObject s.dev f addr n).bind (fun (c, va) =>
    (pieces va n (n / 64 + 2)).mapM (fun pc => match dXlate s 0 c pc.1 k with | .ok t => some (t, pc.2) | .error _ => none))

/-- The context that an aperture access goes through; 0x3FF for the physical form. -/
def apCtx (d : Dev) (f addr n : Nat) : Nat := if addr.testBit 52 then 0x3FF else match apObject d f addr n with | some e => e.1 | none => 0x3FF

/-- What an aperture access leaves behind: the grants of the ports, the caches its walks fill, and the count of every uncorrectable response (R403, R406,
R445, R524). -/
def apTouch (s : State) (f addr n : Nat) (k : Acc3) : State :=
  if addr.testBit 52 then
    s.upd (fun d => (pieces (addr % 2 ^ 46) n (n / 64 + 2)).foldl (fun d pc =>
      let lost := match locate s.params pc.1 with | .stack key _ => (s.dev.port key).lost | .host _ => false
      let d1 := chargeGran s.params d f pc.1
      if (if k == .write then lost else physUnreadable s pc.1) then ueAt s.params d1 pc.1 else d1) d)
  else match apObject s.dev f addr n with
    | none => s
    | some (c, va) => (pieces va n (n / 64 + 2)).foldl (fun s pc => s.withDev (touchGran s 0 c pc.1 k).1) s

/-- The bytes of an aperture read that is not refused. DESIGN CHOICE (log entry 39): a granule that cannot be read gives free values, without the error flag,
which only a refused access sets (R511). -/
def apRead (s : State) (ts : List (Target × Nat)) : List Byte :=
  ts.flatMap (fun e => (readTarget s e.1 e.2).getD
    ((List.range e.2).map (fun i => (Config.freeWord64 (s.dev.freeCtr + i)).setWidth 8)))

/-- APERTURE_READ: `nw` is k3_ht_nw, the length in 8-byte words minus 1. Its response carries the data, or the error flag and zeros. -/
def apertureRead (s : State) (f addr nw : Nat) : State :=
  let n := 8 * (nw + 1)
  if !apShape s.dev f addr n || !aligned 8 addr then s
  else
    let answer (s : State) (x : Bool × List Byte) : State := s.upd (fun d => { d with host := { d.host with response := some x } })
    if !apServed s.dev f then answer s (false, List.replicate n 0)
    else match apTargets s f addr n .read with
      | none => answer s (true, List.replicate n 0)
      | some ts => (answer (apTouch s f addr n .read) (false, apRead s ts)).upd (fun d => { d with freeCtr := d.freeCtr + n })
def execApertureRead (func addr nw : Nat) (s : State) : Out := .next (apertureRead s func addr nw)

/-- The pieces of an aperture write stored in order. -/
def apWrite (f c : Nat) (s : State) : List Byte → List Bool → List (Target × Nat) → State
  | _, _, [] => s
  | bs, be, e :: es => apWrite f c (writePiece s f c e.1 (bs.take e.2) (be.take e.2)) (bs.drop e.2) (be.drop e.2) es

/-- APERTURE_WRITE: posted; a refused one writes nothing. -/
def apertureWrite (s : State) (f addr : Nat) (data : List Byte) (be : List Bool) : State :=
  let n := data.length
  if !apShape s.dev f addr n || be.length != n || !apServed s.dev f then s
  else match apTargets s f addr n .write with
    | none => s
    | some ts => apWrite f (apCtx s.dev f addr n) (apTouch s f addr n .write) data be ts
def execApertureWrite (func addr : Nat) (data : List Byte) (be : List Bool) (s : State) : Out := .next (apertureWrite s func addr data be)

/-! ## SNOOP_REQUEST (R517) -/

/-- SNOOP_REQUEST: a granule that the host port holds is answered, with its data when modified, and is held no longer. -/
def snoopRequest (s : State) (granule : Nat) : State :=
  if !s.params.hostCoupled || s.dev.boot.inReset then s
  else
    let set (d : Dev) (x : Bool × List Byte) : Dev := { d with host := { d.host with snoop := some x } }
    match s.dev.host.accBuf.find? (fun g => g.addr == gran granule) with
    | none => s.upd (fun d => set d (false, []))
    | some g =>
      let s1 := s.upd (fun d => { d with host := { d.host with accBuf := d.host.accBuf.filter (fun x => x.addr != g.addr) } })
      if g.dirty then { s1 with mem := { s1.mem with host := Memory.write g.addr g.data s1.mem.host }, dev := set s1.dev (true, g.data) }
      else s1.upd (fun d => set d (false, []))
def execSnoopRequest (granule : Nat) (_inv : Bool) (s : State) : Out := .next (snoopRequest s granule)

end Sys2Proof.Machine
end

