-- ==== Sys2Proof/Machine/Submit.lean ====
section
/-! DEFINITION. Submission apertures and queue status writes: assembling granules into packets, posting, MALFORMED, OVERRUN,
QUEUE_CLOSED, RESTART and FLUSH (R244 to R248, R256, R402, R566). -/

namespace Sys2Proof.Machine

/-- The window offset of a queue window: 0xFFFF stands for the control queue window (R240, R566). -/
def windowOff (win : Nat) : Nat := if win = 0xFFFF then 0x1000 else 0x10000 + 4096 * win

/-- A write to a function's window is served (R241, R436, R464, R471). -/
def writable (d : Dev) (f off : Nat) : Bool := served0 d f (areaOf off) && !frozenFn d f

/-- A fault record of KIND 5 for a window (R245, R247, R248, R272). -/
def submitFault (d : Dev) (f win : Nat) (st : Status) (queue ctx tag : Nat) : Dev :=
  d.fault f { status := st, kind := 5, queue := queue, ctx := ctx, tag := tag, w4 := BitVec.ofNat 64 win }

/-- The context a queue's records name: 0x3FF for a control queue. -/
def recCtx (q : QRef) (x : Queue) : Nat := match q with | .ctl _ => 0x3FF | .work _ => x.ctx

/-- A malformed discard of R245. -/
def malformed (d : Dev) (q : QRef) (f win : Nat) : Dev :=
  let x := d.queue q
  let d1 := d.modQueue q (fun x => { x with asm := [], malformed := true })
  stopQueue (submitFault d1 f win .malformed (qnum q) (recCtx q x) 0) q Status.malformed.code false

/-- A packet's words with SEQ in its header (R246). -/
def withSeq (ws : List Word) (seq : BitVec 32) : List Word := updAt (fun w => setFld w 47 16 seq.toNat) 0 ws

/-- A complete packet posted into the ring of its queue, or lost to a full ring or to a fault of the ring write (R246, R247, R402). -/
def postPacket (s : State) (q : QRef) (f win : Nat) (ws : List Word) : State :=
  let x := s.dev.queue q
  let tag := hTag (wordAt ws 0)
  if x.overrun then s
  else if (x.posted - x.retired).toNat == x.depth then
    s.upd (fun d => stopQueue (submitFault (d.modQueue q (fun x => { x with overrun := true })) f win .queueOverrun (qnum q) (recCtx q x) tag)
      q Status.queueOverrun.code false)
  else
    let seqd := withSeq ws x.posted
    let idx := x.posted.toNat % x.depth
    match q with
    | .ctl _ => s.upd (fun d => d.modQueue q (fun x => { x with slots := Tbl.set idx seqd x.slots, posted := x.posted + 1 }))
    | .work _ =>
      let s0 := dTouch s x.home x.ctx (x.ringVa + 256 * idx) (8 * seqd.length) .write
      match dWrite s0 x.home x.ctx (x.ringVa + 256 * idx) (wordsToBytes seqd) with
      | .ok s1 => s1.upd (fun d => d.modQueue q (fun x => { x with posted := x.posted + 1 }))
      | .error e =>
        s0.upd (fun d => stopQueue (d.fault f { e.info with ctx := x.ctx, queue := qnum q, tag := tag })
          q Status.permFault.code false)

/-- One granule at an offset of a live queue's aperture (R245). -/
def subGran (s : State) (q : QRef) (f win off : Nat) (ws : List Word) : State :=
  let start (s : State) : State :=
    if hGran (wordAt ws 0) = 1 then postPacket s q f win ws
    else s.upd (fun d => d.modQueue q (fun x => { x with asm := ws }))
  let x := s.dev.queue q
  if off = 0 then
    (if x.asm.isEmpty then start s else start (s.upd (fun d => malformed d q f win)))
  else if !x.asm.isEmpty && off == 8 * x.asm.length then
    let all := x.asm ++ ws
    if all.length = 8 * hGran (wordAt all 0) then
      postPacket (s.upd (fun d => d.modQueue q (fun x => { x with asm := [] }))) q f win all
    else s.upd (fun d => d.modQueue q (fun x => { x with asm := all }))
  else s.upd (fun d => malformed d q f win)

/-- One granule for a window without a queue: every complete packet gives one QUEUE_CLOSED record (R248). -/
def closedGran (d : Dev) (f win off : Nat) (ws : List Word) : Dev :=
  let asm := Tbl.get [] win (d.fn f).asm
  let setAsm (d : Dev) (a : List Word) : Dev := d.modFn f (fun x => { x with asm := Tbl.set win a x.asm })
  let close (d : Dev) (all : List Word) : Dev :=
    if all.length = 8 * hGran (wordAt all 0) then
      submitFault (setAsm d []) f win .queueClosed 0xFFF 0x3FF (hTag (wordAt all 0))
    else setAsm d all
  if off = 0 then close d ws
  else if !asm.isEmpty && off == 8 * asm.length then close d (asm ++ ws)
  else setAsm d []

/-- The granules of a write, from an offset upward. -/
def subGrans (s : State) (f win off : Nat) (data : List Byte) : Nat → State
  | 0 => s
  | n + 1 =>
    let ws := bytesToWords 8 data
    let s1 := match windowQ s.dev f win with
      | some q => if (s.dev.queue q).state == .absent then s.upd (fun d => closedGran d f win off ws) else subGran s q f win off ws
      | none => s.upd (fun d => closedGran d f win off ws)
    subGrans s1 f win (off + 64) (data.drop 64) n

/-- Every queue's completed packets hold nothing (R366). -/
def dropAll (s : State) : State := s.dev.queueRefs.foldl dropDone s

/-- A write of `data` at an offset of a window's submission aperture (R241, R244 to R248). -/
def submitWrite (s : State) (func win off : Nat) (data : List Byte) : State :=
  if !writable s.dev func (windowOff win) then s
  else if data.isEmpty || !aligned 64 off || !aligned 64 data.length then
    (match windowQ s.dev func win with
      | some q => if (s.dev.queue q).state == .absent then s.upd (fun d => d.modFn func (fun x => { x with asm := Tbl.set win [] x.asm }))
        else dropDone (s.upd (fun d => malformed d q func win)) q
      | none => s.upd (fun d => d.modFn func (fun x => { x with asm := Tbl.set win [] x.asm })))
  else
    let s1 := subGrans s func win off data (data.length / 64)
    match windowQ s1.dev func win with | some q => dropDone s1 q | none => s1

/-- SUBMIT_GRANULE (R244, R245). -/
def execSubmitGranule (func win off : Nat) (data : List Byte) (s : State) : Out := .next (submitWrite s func win off data)

/-! ## Q_STATUS writes (R243, R256) -/

/-- The W1C bits of a Q_STATUS write. -/
def clearSticky (x : Queue) (v : Word) : Queue :=
  { x with malformed := x.malformed && !bitOf v 3, overrun := x.overrun && !bitOf v 2, failed := x.failed && !bitOf v 1 }

/-- The queue set RUNNING again by RESTART. -/
def restarted (x : Queue) : Queue :=
  { x with malformed := false, overrun := false, failed := false, stopStatus := 0, asm := [], state := .running }

/-- A write of Q_STATUS: sticky bits, then RESTART and FLUSH while STOPPED. -/
def writeStatus (s : State) (q : QRef) (v : Word) : State :=
  let x := clearSticky (s.dev.queue q) v
  if bitOf v 4 && x.state == .stopped then
    let s1 := s.upd (fun d => d.setQueue q (restarted x))
    if bitOf v 5 then disposeRing s1 q .flushed .flushed (ringLeft x) else s1
  else s.upd (fun d => d.setQueue q x)

/-- A write of a register of a queue window: Q_STATUS is the only register with writable bits (R243). -/
def writeQueueReg (s : State) (f win o : Nat) (v : Word) : State :=
  match windowQ s.dev f win with
  | some q => if o = 0x100 then writeStatus s q v else s
  | none => s

/-- RESTART: a write of Q_STATUS with RESTART = 1 and FLUSH = 0 (R256). -/
def execRestart (func win : Nat) (value : Word) (s : State) : Out :=
  .next (if writable s.dev func (windowOff win) && bitOf value 4 && !bitOf value 5 then writeQueueReg s func win 0x100 value else s)

/-- RESTART_FLUSH: a write of Q_STATUS with RESTART = 1 and FLUSH = 1 (R256, R402). -/
def execRestartFlush (func win : Nat) (value : Word) (s : State) : Out :=
  .next (if writable s.dev func (windowOff win) && bitOf value 4 && bitOf value 5 then writeQueueReg s func win 0x100 value else s)

end Sys2Proof.Machine
end

