-- ==== Sys2Proof/Machine/Regs.lean ====
section
/-! DEFINITION. Writes to a function's register window: one operation that carries out an aligned 8-byte write of any register under its
field map, and the commands that are such writes (R240, R241, R265, R268, R421 to R432, R439, R444, R446, R452, R453). -/

namespace Sys2Proof.Machine

/-! ## Rings (R265) -/

/-- The fields of RING_CFG that a write stores. -/
def ringCfgFields (v : Word) : Word := v &&& 0xFFFFFFFFFFFFFF01#64

/-- RING_CFG written: HEAD and TAIL become 0; a reserved SIZE leaves the ring as it was. -/
def ringCfg (r : Ring) (v : Word) : Ring := if 11 ≤ fld v 11 8 then r else { r with cfg := ringCfgFields v, head := 0, tail := 0 }

/-- A register of a ring written. -/
def writeRing (r : Ring) (lost : Bool) (o : Nat) (v : Word) : Ring :=
  match o with
  | 0 => ringCfg r v
  | 8 => { r with head := v.setWidth 32 }
  | 24 => if lost then { r with lost := r.lost &&& ~~~(v.setWidth 32) } else r
  | _ => r

/-- The ring registers of a function's page (R265). -/
def writeRings (d : Dev) (f o : Nat) (v : Word) : Dev :=
  if o < 0x20 then
    let d1 := d.modFn f (fun x => { x with faultRing := writeRing x.faultRing false o v })
    if o = 0 ∧ fld v 11 8 < 11 then refault d1 f else d1
  else if o < 0x40 then d.modFn f (fun x => { x with ctlRing := writeRing x.ctlRing true (o - 0x20) v })
  else d

/-! ## Interrupt configuration (R432, R439) -/

/-- CTX_VEC: the bytes of slots that the function owns. -/
def writeCtxVec (d : Dev) (f o : Nat) (v : Word) : Dev :=
  (List.range 8).foldl (fun d i =>
    if ownsCtx d f (o + i) then d.modFn f (fun x => { x with ctxVec := Tbl.set (o + i) (BitVec.ofNat 8 (fld v (8 * i + 7) (8 * i)) &&& 0xBF#8) x.ctxVec })
    else d) d

/-- CAUSE_VEC as stored: bytes of causes 0 to 3 without their reserved bit; EN of byte 0 reads 1 (R432, R433). -/
def causeVecFields (v : Word) : Word := (v &&& 0xBFBFBFBF#64) ||| 0x80#64

/-- The interrupt configuration page. -/
def writeIntr (d : Dev) (f o : Nat) (v : Word) : Dev :=
  if o = 0 then d.modFn f (fun x => { x with intEn := bitOf v 7 })
  else if o = 8 then d.modFn f (fun x => { x with intMask := v })
  else if o = 16 then d.modFn f (fun x => { x with intPend := x.intPend &&& ~~~v })
  else if o = 24 then d.modFn f (fun x => { x with causeVec := causeVecFields v })
  else if o = 32 then d.modFn f (fun x => { x with resetDone := x.resetDone && !bitOf v 0 })
  else if 0x400 ≤ o ∧ o < 0x800 then writeCtxVec d f (o - 0x400) v
  else d

/-! ## Function entries and QoS (R431, R444) -/

/-- A write of function entry f is ignored. -/
def vecRefused (d : Dev) (f : Nat) (v : Word) : Bool :=
  let base := fld v 31 21
  let n := fld v 20 14
  decide (64 < n) || decide (2048 < base + n) ||
  (List.range 256).any (fun g => g != f && overlaps base n (d.fn g).vecBase (d.fn g).vecCount)

/-- A write of function entry f: the new range, with the pending bits of removed vectors discarded (R431). -/
def writeFuncEntry (d : Dev) (f : Nat) (v : Word) : Dev :=
  if vecRefused d f v then refuseBit d 2
  else d.modFn f (fun x => { x with
    vecBase := fld v 31 21, vecCount := fld v 20 14, intPend := x.intPend &&& BitVec.ofNat 64 (2 ^ fld v 20 14 - 1) })

/-- The fields of QoS W0 that a write stores. -/
def qosFields (v : Word) : Word := v &&& 0x80FFFF00FFFF0000#64

/-- A write of QoS entry f, in force from the next window (R444). -/
def writeQos (d : Dev) (f : Nat) (v : Word) : Dev := d.modFn f (fun x => { x with qos := qosFields v })

/-- A write in the partition table region (R421). -/
def writePartTable (p : Params) (d : Dev) (o : Nat) (v : Word) : Dev :=
  if o < 0x200 then writePart p d (o / 128) (o / 8 % 16) v
  else if o = 0x200 then { d with partStatus := d.partStatus &&& ~~~(v &&& 7#64) }
  else if 0x800 ≤ o ∧ o < 0x1000 then writeFuncEntry d ((o - 0x800) / 8) v
  else if 0x1000 ≤ o ∧ o < 0x3000 then
    (if o / 8 % 2 = 0 then writeGrantW0 p d ((o - 0x1000) / 16) v else writeGrantW1 d ((o - 0x1000) / 16) v)
  else d

/-! ## The reset key (R453) -/

/-- The two values of the key sequence. -/
def keyArmValue : Word := 0x000000004B335253#64
def keyFireValue : Word := 0xFFFFFFFFB4CCADAC#64

/-- A write of RESET_KEY. -/
def writeKey (s : State) (v : Word) : State :=
  if v = keyArmValue then s.upd (fun d => { d with boot := { d.boot with keyArmed := true } })
  else if v = keyFireValue ∧ s.dev.boot.keyArmed then deviceReset s 4 4
  else s.upd (fun d => { d with boot := { d.boot with keyArmed := false } })

/-! ## A write of any register -/

/-- An aligned 8-byte write that is served, by the part of the window it reaches. -/
def writeArea (s : State) (f : Nat) (v : Word) : Area → State
  | .ctlQ o => if o < 0x100 then submitWrite s f 0xFFFF o (leBytes 8 v.toNat) else writeQueueReg s f 0xFFFF o v
  | .workQ win o => if o < 0x100 then submitWrite s f win o (leBytes 8 v.toNat) else writeQueueReg s f win o v
  | .resetPage o => if o = 0 then writeKey s v else s
  | .partTable o => s.upd (fun d => writePartTable s.params d o v)
  | .qosTable o => if o < 0x1000 ∧ o % 16 = 0 then s.upd (fun d => writeQos d (o / 16) v) else s
  | .rings o => s.upd (fun d => writeRings d f o v)
  | .intr o => s.upd (fun d => writeIntr d f o v)
  | .ctxRing c o => if ownsCtx s.dev f c then s.upd (fun d => d.modCtx c (fun x => { x with ring := writeRing x.ring true o v })) else s
  | .ident _ | .reserved => s

/-- A write of 8 bytes at an offset of a function's window: carried out when it is aligned and served; any other is ignored, but for a
submission aperture, which takes it as a piece out of order (R241, R245, R436, R464, R471). -/
def writeReg (s : State) (f off : Nat) (v : Word) : State :=
  if !writable s.dev f off then s
  else if aligned 8 off then writeArea s f v (areaOf off)
  else match areaOf off with
    | .ctlQ o => if o < 0x100 then submitWrite s f 0xFFFF o (leBytes 8 v.toNat) else s
    | .workQ win o => if o < 0x100 then submitWrite s f win o (leBytes 8 v.toNat) else s
    | _ => s

/-- The offset of a ring's registers (R265). -/
def ringOff : RingRef → Nat
  | .fault => 0xF0000
  | .control => 0xF0020
  | .context c => 0xF4000 + 32 * c

/-- A ring that exists. -/
def ringOk : RingRef → Bool
  | .context c => decide (c < 1024)
  | _ => true

/-! ## The commands -/

/-- REGISTER_WRITE (R241). -/
def execRegisterWrite (func off : Nat) (value : Word) (s : State) : Out := .next (writeReg s func off value)

/-- RING_CFG_WRITE (R265). -/
def execRingCfgWrite (func : Nat) (ring : RingRef) (value : Word) (s : State) : Out :=
  .next (if ringOk ring then writeReg s func (ringOff ring) value else s)

/-- RING_HEAD_WRITE (R265, R268). -/
def execRingHeadWrite (func : Nat) (ring : RingRef) (value : Word) (s : State) : Out :=
  .next (if ringOk ring then writeReg s func (ringOff ring + 8) value else s)

/-- INT_CTL_WRITE (R432). -/
def execIntCtlWrite (func : Nat) (value : Word) (s : State) : Out := .next (writeReg s func 0xF1000 value)

/-- INT_MASK_WRITE (R432). -/
def execIntMaskWrite (func : Nat) (value : Word) (s : State) : Out := .next (writeReg s func 0xF1008 value)

/-- INT_PEND_CLEAR (R432). -/
def execIntPendClear (func : Nat) (value : Word) (s : State) : Out := .next (writeReg s func 0xF1010 value)

/-- RESET_KEY_ARM (R453). -/
def execResetKeyArm (s : State) : Out := .next (writeReg s 0 0x2000 keyArmValue)

/-- RESET_KEY_FIRE (R453). -/
def execResetKeyFire (s : State) : Out := .next (writeReg s 0 0x2000 keyFireValue)

/-- RESET_KEY_DISARM (R453): any other value. -/
def execResetKeyDisarm (value : Word) (s : State) : Out := .next (writeReg s 0 0x2000 value)

/-- RESET_KEY_TIMEOUT (R453): the time of an armed key has passed. -/
def execResetKeyTimeout (s : State) : Out := .next (s.upd (fun d => { d with boot := { d.boot with keyArmed := false } }))

/-- PARTITION_ENTRY_WRITE (R424). -/
def execPartitionEntryWrite (panel idx : Nat) (value : Word) (s : State) : Out :=
  .next (if panel < 4 ∧ idx < 16 then writeReg s 0 (0x4000 + 8 * (16 * panel + idx)) value else s)

/-- A write of W0 of a grant (R428): carried out by the state it finds and the state it writes. -/
def grantWrite (s : State) (g : Nat) (value : Word) : State := if g < 512 then writeReg s 0 (0x5000 + 16 * g) value else s

/-- GRANT_W1_WRITE (R428). -/
def execGrantW1Write (g : Nat) (value : Word) (s : State) : Out := .next (if g < 512 then writeReg s 0 (0x5008 + 16 * g) value else s)

/-- GRANT_STORE (R428): FREE written with 0. -/
def execGrantStore (g : Nat) (value : Word) (s : State) : Out := .next (grantWrite s g value)

/-- GRANT_ISSUE (R428): FREE written with 1. -/
def execGrantIssue (g : Nat) (value : Word) (s : State) : Out := .next (grantWrite s g value)

/-- GRANT_KEEP_UPDATE (R428): GRANTED written with 1. -/
def execGrantKeepUpdate (g : Nat) (value : Word) (s : State) : Out := .next (grantWrite s g value)

/-- GRANT_REVOKE (R428, R429): GRANTED written with 0. -/
def execGrantRevoke (g : Nat) (value : Word) (s : State) : Out := .next (grantWrite s g value)

/-- GRANT_FENCE_WIPE (R428, R429): GRANTED written with 2. -/
def execGrantFenceWipe (g : Nat) (value : Word) (s : State) : Out := .next (grantWrite s g value)

/-- FUNCTION_ENTRY_WRITE (R431). -/
def execFunctionEntryWrite (f : Nat) (value : Word) (s : State) : Out := .next (if f < 256 then writeReg s 0 (0x4800 + 8 * f) value else s)

/-- QOS_ENTRY_WRITE (R444). -/
def execQosEntryWrite (f : Nat) (value : Word) (s : State) : Out := .next (if f < 256 then writeReg s 0 (0x8000 + 16 * f) value else s)

/-- QOS_WINDOW_START (R444, R446): entries written since the last window are in force, and capped functions request again. -/
def qosWindow (d : Dev) : Dev :=
  if d.boot.inReset then d
  else { d with
    funcs := Tbl.mapv (fun x => { x with qosNow := x.qos }) d.funcs
    ports := Tbl.mapv (fun q => { q with capCount := [] }) d.ports }
def execQosWindowStart (s : State) : Out := .next (s.upd qosWindow)

end Sys2Proof.Machine
end

