-- ==== Sys2Proof/Machine/Resume.lean ====
section
/-! DEFINITION. RESUME (R232): the halted streams of a context translate their faulting granules again. -/

namespace Sys2Proof.Machine

/-- The fault record of a command's halt is still held: the unit stays halted until it is written (R268). -/
def recordHeld (d : Dev) (k : Nat) (m : Cmd) : Bool :=
  (d.fn m.func).held.any (fun r => fld (wordAt r.words 0) 28 19 == (siteIndex d k).getD 0x3FF && fld (wordAt r.words 0) 40 29 == qnum m.q &&
    fld (wordAt r.words 1) 63 32 == m.seq.toNat)

/-- One halt of a core retried for a context: its faulting granule is translated again, and the stream goes on, halts again with a new record, waits for a
page walk, or its command fails (R232, R234). -/
def retryHalt (ctx : Nat) (h : Option Halt) (clear : Core → Core) (s : State) (k : Nat) : State :=
  match h with
  | none => s
  | some h =>
    match (s.dev.core k).cmd h.uid with
    | none => s.upd (fun d => d.modCore k clear)
    | some m =>
      if m.ctx != ctx || recordHeld s.dev k m then s
      else s.withDev (match coreXlate (s.dev.modCore k clear) k m h.va (Acc3.ofCode h.access) with
        | (.ok _, d) => d
        | (.fault x, d) => coreFault d k m h x
        | (.walk, d) => startWalk s.params d k m h.region h.va h.access h.gen)

/-- A halted stream of a core retried (R232). -/
def retryStream (ctx : Nat) (s : State) (k : Nat) : State := retryHalt ctx (s.dev.core k).halt (fun c => { c with halt := none, moved := true }) s k

/-- A halted image read of a core retried (R185, R232). -/
def retryLoad (ctx : Nat) (s : State) (k : Nat) : State :=
  retryHalt ctx (s.dev.core k).fab.loadHalt (fun c => { c with fab := { c.fab with loadHalt := none } }) s k

/-- RESUME at step 10: every core with a halted stream of the context (R232). -/
def resumeTen (s : State) (p : Pkt) : Ten :=
  let c := fld (p.b 0) 9 0
  .done ((s.dev.cores.map (·.1)).foldl (fun s k => retryLoad c (retryStream c s k) k) s) id

def semResume : OpSem := ⟨rowResume, noCheck, fun s p => ownCtx s.dev p.func (fld (p.b 0) 9 0), resumeTen⟩

/-- RESUME (R232). -/
def execResume (q : QRef) (s : State) : Out := .next (acceptRow semResume q s)

end Sys2Proof.Machine
end

