-- ==== Sys2Proof/Machine/Dispatch.lean ====
section
/-! DEFINITION. The dispatch of a command to its meaning: one arm per row of the opcode table. -/

namespace Sys2Proof.Machine

/-- The effect of a command on everything but the queue of waiting commands. -/
def exec (i : Instr) (s : State) : Host.Outcome State Fault Refusal :=
  match i with
  | .ctxCreate q => Sys2Proof.Machine.execCtxCreate q s
  | .ctxConfig q => Sys2Proof.Machine.execCtxConfig q s
  | .ctxDestroy q => Sys2Proof.Machine.execCtxDestroy q s
  | .queueCreate q => Sys2Proof.Machine.execQueueCreate q s
  | .queueDestroy q => Sys2Proof.Machine.execQueueDestroy q s
  | .gangCreate q => Sys2Proof.Machine.execGangCreate q s
  | .gangDestroy q => Sys2Proof.Machine.execGangDestroy q s
  | .resume q => Sys2Proof.Machine.execResume q s
  | .fwLoad q => Sys2Proof.Machine.execFwLoad q s
  | .resetDevice q => Sys2Proof.Machine.execResetDevice q s
  | .funcReset q => Sys2Proof.Machine.execFuncReset q s
  | .partClear q => Sys2Proof.Machine.execPartClear q s
  | .retire q => Sys2Proof.Machine.execRetire q s
  | .insert q => Sys2Proof.Machine.execInsert q s
  | .health q => Sys2Proof.Machine.execHealth q s
  | .spdm q => Sys2Proof.Machine.execSpdm q s
  | .copy q => Sys2Proof.Machine.execCopy q s
  | .fill q => Sys2Proof.Machine.execFill q s
  | .accClear q => Sys2Proof.Machine.execAccClear q s
  | .stats q => Sys2Proof.Machine.execStats q s
  | .descWrite q => Sys2Proof.Machine.execDescWrite q s
  | .matmul q => Sys2Proof.Machine.execMatmul q s
  | .fabLoad q => Sys2Proof.Machine.execFabLoad q s
  | .fabRun q => Sys2Proof.Machine.execFabRun q s
  | .chain q => Sys2Proof.Machine.execChain q s
  | .bar q => Sys2Proof.Machine.execBar q s
  | .seam q => Sys2Proof.Machine.execSeam q s
  | .tackWait q => Sys2Proof.Machine.execTackWait q s
  | .tackSignal q => Sys2Proof.Machine.execTackSignal q s
  | .tackAdd q => Sys2Proof.Machine.execTackAdd q s
  | .bobbinSet q => Sys2Proof.Machine.execBobbinSet q s
  | .objCreate q => Sys2Proof.Machine.execObjCreate q s
  | .objRelease q => Sys2Proof.Machine.execObjRelease q s
  | .tackCreate q => Sys2Proof.Machine.execTackCreate q s
  | .tackExport q => Sys2Proof.Machine.execTackExport q s
  | .tackImport q => Sys2Proof.Machine.execTackImport q s
  | .bobbinCreate q => Sys2Proof.Machine.execBobbinCreate q s
  | .seamCreate q => Sys2Proof.Machine.execSeamCreate q s
  | .heapSetup q => Sys2Proof.Machine.execHeapSetup q s
  | .alloc q => Sys2Proof.Machine.execAlloc q s
  | .free q => Sys2Proof.Machine.execFree q s
  | .xlateInval q => Sys2Proof.Machine.execXlateInval q s
  | .query q => Sys2Proof.Machine.execQuery q s
  | .patternDefine q => Sys2Proof.Machine.execPatternDefine q s
  | .replay q => Sys2Proof.Machine.execReplay q s
  | .patch q => Sys2Proof.Machine.execPatch q s
  | .loop q => Sys2Proof.Machine.execLoop q s
  | .endloop q => Sys2Proof.Machine.execEndloop q s
  | .predCmp q => Sys2Proof.Machine.execPredCmp q s
  | .predClip q => Sys2Proof.Machine.execPredClip q s
  | .mark q => Sys2Proof.Machine.execMark q s
  | .fitting q => Sys2Proof.Machine.execFitting q s
  | .submitGranule func win off data => Sys2Proof.Machine.execSubmitGranule func win off data s
  | .restart func win value => Sys2Proof.Machine.execRestart func win value s
  | .restartFlush func win value => Sys2Proof.Machine.execRestartFlush func win value s
  | .waitTackResume slot => Sys2Proof.Machine.execWaitTackResume slot s
  | .multicast q parity => Sys2Proof.Machine.execMulticast q parity s
  | .coreCompletion core uid => Sys2Proof.Machine.execCoreCompletion core uid s
  | .packetRetire q => Sys2Proof.Machine.execPacketRetire q s
  | .ringCfgWrite func ring value => Sys2Proof.Machine.execRingCfgWrite func ring value s
  | .ringHeadWrite func ring value => Sys2Proof.Machine.execRingHeadWrite func ring value s
  | .heldFaultRecordWrite func => Sys2Proof.Machine.execHeldFaultRecordWrite func s
  | .faultRecordRetry func => Sys2Proof.Machine.execFaultRecordRetry func s
  | .interruptSend func vector => Sys2Proof.Machine.execInterruptSend func vector s
  | .intCtlWrite func value => Sys2Proof.Machine.execIntCtlWrite func value s
  | .intMaskWrite func value => Sys2Proof.Machine.execIntMaskWrite func value s
  | .intPendClear func value => Sys2Proof.Machine.execIntPendClear func value s
  | .registerWrite func off value => Sys2Proof.Machine.execRegisterWrite func off value s
  | .resetKeyArm => Sys2Proof.Machine.execResetKeyArm s
  | .resetKeyFire => Sys2Proof.Machine.execResetKeyFire s
  | .resetKeyDisarm value => Sys2Proof.Machine.execResetKeyDisarm value s
  | .resetKeyTimeout => Sys2Proof.Machine.execResetKeyTimeout s
  | .partitionEntryWrite panel idx value => Sys2Proof.Machine.execPartitionEntryWrite panel idx value s
  | .grantW1Write g value => Sys2Proof.Machine.execGrantW1Write g value s
  | .grantStore g value => Sys2Proof.Machine.execGrantStore g value s
  | .grantIssue g value => Sys2Proof.Machine.execGrantIssue g value s
  | .grantKeepUpdate g value => Sys2Proof.Machine.execGrantKeepUpdate g value s
  | .grantRevoke g value => Sys2Proof.Machine.execGrantRevoke g value s
  | .grantFenceWipe g value => Sys2Proof.Machine.execGrantFenceWipe g value s
  | .grantPurgeDone g => Sys2Proof.Machine.execGrantPurgeDone g s
  | .grantWipeDone g => Sys2Proof.Machine.execGrantWipeDone g s
  | .functionEntryWrite f value => Sys2Proof.Machine.execFunctionEntryWrite f value s
  | .qosEntryWrite f value => Sys2Proof.Machine.execQosEntryWrite f value s
  | .qosWindowStart => Sys2Proof.Machine.execQosWindowStart s
  | .stackPortGrant panel port => Sys2Proof.Machine.execStackPortGrant panel port s
  | .apertureRead func addr nw => Sys2Proof.Machine.execApertureRead func addr nw s
  | .apertureWrite func addr data be => Sys2Proof.Machine.execApertureWrite func addr data be s
  | .hostResponse tag err data => Sys2Proof.Machine.execHostResponse tag err data s
  | .flrRequest func => Sys2Proof.Machine.execFlrRequest func s
  | .hostRequestAbandon tag => Sys2Proof.Machine.execHostRequestAbandon tag s
  | .snoopRequest granule inv => Sys2Proof.Machine.execSnoopRequest granule inv s
  | .pwrokChange level panel => Sys2Proof.Machine.execPwrokChange level s panel
  | .rstNChange level panel => Sys2Proof.Machine.execRstNChange level s panel
  | .holdInChange panel code => Sys2Proof.Machine.execHoldInChange panel code s
  | .resetHoldExpire => Sys2Proof.Machine.execResetHoldExpire s
  | .resetRelease => Sys2Proof.Machine.execResetRelease s
  | .rootclkWindow edges panel => Sys2Proof.Machine.execRootclkWindow edges s panel
  | .rootclkMissing panel => Sys2Proof.Machine.execRootclkMissing s panel
  | .pwrAlertAssert panel => Sys2Proof.Machine.execPwrAlertAssert s panel
  | .pwrAlertDeassert panel => Sys2Proof.Machine.execPwrAlertDeassert s panel
  | .pkgpwrSample watts => Sys2Proof.Machine.execPkgpwrSample watts s
  | .powerWindow => Sys2Proof.Machine.execPowerWindow s
  | .healthWindowEnd => Sys2Proof.Machine.execHealthWindowEnd s
  | .fatalResetTimer shared => Sys2Proof.Machine.execFatalResetTimer shared s
  | .stackReadResponse panel port sub tag st => Sys2Proof.Machine.execStackReadResponse panel port sub tag st s
  | .stackWriteAck panel port sub tag st => Sys2Proof.Machine.execStackWriteAck panel port sub tag st s
  | .stackReadyRise panel port cap retained => Sys2Proof.Machine.execStackReadyRise panel port cap retained s
  | .stackReadyFall panel port => Sys2Proof.Machine.execStackReadyFall panel port s
  | .accumulateOp panel port => Sys2Proof.Machine.execAccumulateOp panel port s
  | .accWriteback panel port granule => Sys2Proof.Machine.execAccWriteback panel port granule s
  | .remapGranuleCopy panel port => Sys2Proof.Machine.execRemapGranuleCopy panel port s
  | .pageWalkComplete panel idx => Sys2Proof.Machine.execPageWalkComplete panel idx s
  | .admission core => Sys2Proof.Machine.execAdmission core s
  | .commandBlockRead core => Sys2Proof.Machine.execCommandBlockRead core s
  | .bundleCopy core => Sys2Proof.Machine.execBundleCopy core s
  | .swatchCopy core store => Sys2Proof.Machine.execSwatchCopy core store s
  | .bobbinTake core => Sys2Proof.Machine.execBobbinTake core s
  | .granuleIssue core run two => Sys2Proof.Machine.execGranuleIssue core run two s
  | .writeUnitSend core run ecc => Sys2Proof.Machine.execWriteUnitSend core run ecc s
  | .readDataArrival core req => Sys2Proof.Machine.execReadDataArrival core req s
  | .mcastFreeReport member run issuer => Sys2Proof.Machine.execMcastFreeReport member run issuer s
  | .stallWatchdog core => Sys2Proof.Machine.execStallWatchdog core s
  | .watchdogAbort core source => Sys2Proof.Machine.execWatchdogAbort core source s
  | .sidePortRead core side ecc => Sys2Proof.Machine.execSidePortRead core side s ecc
  | .accLoad core ecc => Sys2Proof.Machine.execAccLoad core s ecc
  | .beatIssue core ecc => Sys2Proof.Machine.execBeatIssue core ecc s
  | .drainRowRead core ecc => Sys2Proof.Machine.execDrainRowRead core ecc s
  | .kernelRunStart core => Sys2Proof.Machine.execKernelRunStart core s
  | .fabricTick core rets ecc => Sys2Proof.Machine.execFabricTick core rets s ecc
  | .kernelRunEnd core => Sys2Proof.Machine.execKernelRunEnd core s
  | .fabLoadComplete core => Sys2Proof.Machine.execFabLoadComplete core s
  | .seamStart core => Sys2Proof.Machine.execSeamStart core s
  | .seamRelease slot => Sys2Proof.Machine.execSeamRelease slot s
  | .partitionEpisodeComplete slot => Sys2Proof.Machine.execPartitionEpisodeComplete slot s
  | .flitReceive link up module rxd => Sys2Proof.Machine.execFlitReceive link up module rxd s
  | .laneRepair link up module clkStopped => Sys2Proof.Machine.execLaneRepair link up module clkStopped s
  | .laneRepairDone link up => Sys2Proof.Machine.execLaneRepairDone link up s
  | .optionLoad copyA copyB => Sys2Proof.Machine.execOptionLoad copyA copyB s
  | .optRdyTimeout => Sys2Proof.Machine.execOptRdyTimeout s
  | .logicBist => Sys2Proof.Machine.execLogicBist s
  | .sramBist fails shared => Sys2Proof.Machine.execSramBist fails shared s
  | .stackTrainingTimeout => Sys2Proof.Machine.execStackTrainingTimeout s
  | .stackWipe => Sys2Proof.Machine.execStackWipe s
  | .linkTraining results => Sys2Proof.Machine.execLinkTraining results s
  | .bootImageVerify mc uc svcA svcB cert => Sys2Proof.Machine.execBootImageVerify mc uc svcA svcB cert s
  | .microcodePageFetch panel site page got => Sys2Proof.Machine.execMicrocodePageFetch panel site page got s
  | .quiesceRefetch failed => Sys2Proof.Machine.execQuiesceRefetch failed s
  | .fwQuiesceTimeout => Sys2Proof.Machine.execFwQuiesceTimeout s
  | .fittingEdge core => Sys2Proof.Machine.execFittingEdge core s
  | .testCapture panel sel pins => Sys2Proof.Machine.execTestCapture panel sel pins s
  | .testShift panel sel si => Sys2Proof.Machine.execTestShift panel sel si s
  | .testUpdate panel sel => Sys2Proof.Machine.execTestUpdate panel sel s
  | .testReset panel trstLow => Sys2Proof.Machine.execTestReset panel trstLow s
  | .testModeChange panel mode => Sys2Proof.Machine.execTestModeChange panel mode s
  | .backupSupplyFailure => Sys2Proof.Machine.execBackupSupplyFailure s
  | .targetChannelReady => Sys2Proof.Machine.execTargetChannelReady s
  | .partitionClearDone panel part => Sys2Proof.Machine.execPartitionClearDone panel part s

end Sys2Proof.Machine
end

