-- ==== Sys2Proof/Safety.lean ====
section
/-! DEFINITION. The terms in which claims about the block are stated: what a completed packet leaves behind, which commands never write
memory, and the invariant that every step keeps. -/

namespace Sys2Proof.Machine

/-- The state after a packet that dispatch executes ends step 10: it leaves R254 accepted and complete, with the results that `f` sets, and
completed packets hold nothing (R254, R257, R366). -/
def finished (s : State) (q : QRef) (p : Pkt) (f : Pkt → Pkt) : State := dropDone (finish s q p.uid f) q

/-- The state after a packet that was accepted and fails: it completes with a status, and stops its queue when it retires (R256). -/
def failed10 (s : State) (q : QRef) (p : Pkt) (st : Status) : State := finished s q p (fun x => { x with status := st })

/-- The state after a packet refused at step 10: the references it took are dropped and it stops its queue at once (R254, R256). -/
def refused10 (s : State) (q : QRef) (p : Pkt) (st : Status) (detail : Word) : State :=
  dropDone (refusePkt (dropRefs s (match s.dev.pkt q p.uid with | some x => x.holds | none => [])) q p.uid st detail) q

/-- The state while step 10 of a packet goes on waiting (R254). -/
def waits10 (s : State) (q : QRef) (p : Pkt) : State :=
  dropDone (s.upd (fun d => d.modPkt q p.uid (fun x => { x with stage := .atTen }))) q

/-- The state once a packet waits to be multicast (R255). -/
def toMulticast (s : State) (q : QRef) (p : Pkt) : State :=
  dropDone (s.upd (fun d => d.modPkt q p.uid (fun x => { x with stage := .multicast }))) q

/-- The state after a packet that the management controller executes was accepted (R254, R257). -/
def acceptedMc (s : State) (q : QRef) (p : Pkt) : State := dropDone (s.upd (fun d => leavePkt d q p.uid .accepted id)) q

/-- `n` is the lowest number below `max` that satisfies `free`. -/
def IsLowest (max : Nat) (free : Nat → Bool) (n : Nat) : Prop := n < max ∧ free n = true ∧ ∀ m, m < n → free m = false

/-- No number below `max` satisfies `free`. -/
def NoneBelow (max : Nat) (free : Nat → Bool) : Prop := ∀ m, m < max → free m = false

/-! ## A packet of a control queue entering R254 -/

/-- The words of the next packet in the ring of a control queue (R566). -/
def ctlNext (s : State) (f : Nat) : List Word :=
  Tbl.get [] ((s.dev.queue (.ctl f)).entered.toNat % (s.dev.queue (.ctl f)).depth) (s.dev.queue (.ctl f)).slots

/-- That packet as it enters R254. -/
def ctlPkt (s : State) (f : Nat) : Pkt :=
  newPkt (.ctl f) (s.dev.queue (.ctl f)) s.dev.nextUid (s.dev.queue (.ctl f)).entered 0xFFFF (ctlNext s f) none

/-- The state with that packet in flight, its acceptance charged to the function (R445). -/
def ctlWith (s : State) (f : Nat) (p : Pkt) : State :=
  s.withDev (dispCharge { s.dev.setQueue (.ctl f) { s.dev.queue (.ctl f) with
    flight := (s.dev.queue (.ctl f)).flight ++ [p], entered := (s.dev.queue (.ctl f)).entered + 1 } with
    nextUid := s.dev.nextUid + 1 } (.ctl f))

/-- The control queue may take the next packet of its ring: it serves the queue, no packet of it is inside R254, the ring is not empty, and
the arbiter of its panel grants it (R29, R254, R255, R445). -/
def CtlReady (s : State) (f : Nat) : Prop :=
  mayBegin s.dev (.ctl f) = true ∧ dispPick s.dev (s.dev.queue (.ctl f)).home = some (.ctl f) ∧ (s.dev.queue (.ctl f)).replay = none ∧
  (s.dev.queue (.ctl f)).entered ≠ (s.dev.queue (.ctl f)).posted ∧
  ∀ x ∈ (s.dev.queue (.ctl f)).flight, x.uid ≠ s.dev.nextUid

/-! ## Front copies of a core -/

/-- Every granule of a front copy of n bytes has been asked for and is here (R401, R406). -/
def FrontHere (c : Core) (uid code n : Nat) : Prop :=
  (∀ i, i < ceilDiv n 64 → ∃ r ∈ frontReqs c uid code, r.seg = i) ∧ ∀ r ∈ frontReqs c uid code, r.state = 1

/-- Granules of a front copy that no request asks for yet. -/
def frontLeft (c : Core) (uid code n : Nat) : List Nat :=
  (List.range (ceilDiv n 64)).filter (fun i => !(frontReqs c uid code).any (fun r => r.seg == i))

/-- The bytes that the requests of a front copy brought. -/
def frontBytes (c : Core) (uid code n : Nat) : List Byte :=
  ((List.range (ceilDiv n 64)).flatMap (fun i =>
    match (frontReqs c uid code).find? (fun r => r.seg == i) with | some r => r.data | none => [])).take n

/-- The state once the requests of a front copy have given up their bytes. -/
def frontTaken (s : State) (k uid code : Nat) : State :=
  s.upd (fun d => d.modCore k (fun c => { c with reqs := c.reqs.filter (fun r => !(r.uid == uid && r.region == code)) }))

/-! ## Memory -/

/-- The commands whose effect is on registers, queues, cores and links alone: they write no byte of memory and mark no granule. -/
def keepsMemory : Instr → Bool
  | .restart _ _ _ | .restartFlush _ _ _ | .heldFaultRecordWrite _ | .faultRecordRetry _ | .interruptSend _ _ | .resetKeyTimeout
  | .grantPurgeDone _ | .qosWindowStart | .apertureRead _ _ _ | .resetHoldExpire | .resetRelease | .pwrAlertAssert _ | .pwrAlertDeassert _
  | .pkgpwrSample _ | .powerWindow | .healthWindowEnd | .stackReadyRise _ _ _ _ | .pageWalkComplete _ _ | .admission _
  | .commandBlockRead _ | .bundleCopy _ | .swatchCopy _ _ | .bobbinTake _ | .granuleIssue _ _ _ | .readDataArrival _ _
  | .mcastFreeReport _ _ _ | .stallWatchdog _ | .watchdogAbort _ _ | .sidePortRead _ _ .ok | .accLoad _ .ok | .beatIssue _ .ok | .drainRowRead _ .ok
  | .kernelRunStart _ | .fabricTick _ _ .ok
  | .kernelRunEnd _ | .fabLoadComplete _ | .seamStart _ | .seamRelease _ | .flitReceive _ _ _ _ | .laneRepair _ _ _ _ | .optionLoad _ _
  | .optRdyTimeout | .logicBist | .sramBist _ _ | .stackTrainingTimeout | .linkTraining _ | .bootImageVerify _ _ _ _ _
  | .testCapture _ _ _ | .testShift _ _ _ | .testUpdate _ _ | .testReset _ _ | .testModeChange _ _ | .backupSupplyFailure
  | .targetChannelReady => true
  | _ => false

/-- Stack and host memory are in canonical form: addresses rise, and no listed byte is the one an unlisted address reads as. -/
def MemoryCanonical (s : State) : Prop := Memory.wf s.mem.stack = true ∧ Memory.wf s.mem.host = true

/-- Device physical byte `pa` lies in a range that the grants of function f cover (R426, R427). -/
def granted (d : Dev) (f pa : Nat) : Bool := (grantsOf d f).any (fun r => decide (r.1 ≤ pa) && decide (pa < r.1 + r.2))

end Sys2Proof.Machine
end

