-- ==== Sys2Proof/Certificates/Slice0/Obligations.lean ====
section
/-! DEFINITION. The statements about the block for the provers, each a closed proposition that cites the rules of spec/ it formalises.
A packet that stands at step 10 of R254 (`reach … = .ten s p`) has passed steps 1 to 9; `s` and `p` are the state and the packet as those
steps leave them. -/

open Sys2Proof Sys2Proof.Machine

/-! ## Packets that dispatch executes -/

/-- CTX_CREATE (R355), CTX_CONFIG (R290) and CTX_DESTROY (R358) at step 10. -/
def Obligations.ContextPacketsComplete : Prop :=
  (∀ q s s1 p c, reach semCtxCreate q s = .ten s1 p → IsLowest 1024 (fun k => !(s1.dev.ctx k).live) c →
    exec (.ctxCreate q) s = .next (finished
      (s1.upd (fun d => d.setCtx c { Ctx.none with
        live := true, owner := p.func, root := (p.b 0).toNat, spoolBase := (p.b 1).toNat, spoolSize := (p.b 2).toNat }))
      q p (fun x => { x with value := BitVec.ofNat 64 c }))) ∧
  (∀ q s s1 p, reach semCtxCreate q s = .ten s1 p → NoneBelow 1024 (fun k => !(s1.dev.ctx k).live) →
    exec (.ctxCreate q) s = .next (failed10 s1 q p .tableFull)) ∧
  (∀ q s s1 p c d1 d2 d3, reach semCtxConfig q s = .ten s1 p → fld (p.b 0) 9 0 = c →
    d1 = (if bitOf (p.b 0) 16 then (s1.dev.modCtx c (fun x => { x with root := (p.b 1).toNat })).purge c 0 0 else s1.dev) →
    d2 = (if bitOf (p.b 0) 17 then d1.modCtx c (fun x => { x with spoolBase := (p.b 2).toNat, spoolSize := (p.b 3).toNat }) else d1) →
    d3 = (if bitOf (p.b 0) 18 then d2.modCtx c (fun x => { x with spool := [], spoolPeak := 0 }) else d2) →
    exec (.ctxConfig q) s = .next
      (if bitOf (p.b 0) 16 && ctxRequests d1 c then waits10 (s1.withDev d1) q p else finished (s1.withDev d3) q p id)) ∧
  (∀ q s s1 p, reach semCtxDestroy q s = .ten s1 p →
    exec (.ctxDestroy q) s = .next (finished (destroyCtx s1 (fld (p.b 0) 9 0)) q p id) ∧
    (destroyCtx s1 (fld (p.b 0) 9 0)).dev.ctx (fld (p.b 0) 9 0) = Ctx.none)

/-- QUEUE_CREATE (R291) and QUEUE_DESTROY (R292) at step 10. GANG_CREATE (R18, R423) and GANG_DESTROY (R293) at step 10: a gang takes the lowest
free number of its home panel; where a panel of its mask holds 64 gangs, or the home panel has no number left, the packet fails with TABLE_FULL.
-/
def Obligations.QueueAndGangPacketsComplete : Prop :=
  (∀ q s s1 p n, reach semQueueCreate q s = .ten s1 p →
    refetches s1.dev (s1.dev.gang (fld (p.b 0) 45 44) (fld (p.b 0) 43 38)).mask = false →
    IsLowest 4096 (fun k => !(s1.dev.queue (.work k)).live) n →
    exec (.queueCreate q) s = .next (finished
      (s1.upd (fun d => ((leaveEpisodes d n).setQueue (.work n) (newQueue d p.func (p.b 0) (p.b 1))).modFn p.func (fun x =>
        { x with windows := Tbl.set (fld (p.b 0) 63 56) (n + 1) x.windows, asm := Tbl.del (fld (p.b 0) 63 56) x.asm })))
      q p (fun x => { x with value := BitVec.ofNat 64 n }))) ∧
  (∀ q s s1 p, reach semQueueCreate q s = .ten s1 p →
    refetches s1.dev (s1.dev.gang (fld (p.b 0) 45 44) (fld (p.b 0) 43 38)).mask = false →
    NoneBelow 4096 (fun k => !(s1.dev.queue (.work k)).live) →
    exec (.queueCreate q) s = .next (failed10 s1 q p .tableFull)) ∧
  (∀ q s s1 p, reach semQueueCreate q s = .ten s1 p →
    refetches s1.dev (s1.dev.gang (fld (p.b 0) 45 44) (fld (p.b 0) 43 38)).mask = true →
    exec (.queueCreate q) s = .next (waits10 s1 q p)) ∧
  (∀ q s s1 p n s2, reach semQueueDestroy q s = .ten s1 p → Tbl.get 0 (fld (p.b 0) 7 0) (s1.dev.fn p.func).windows = n + 1 →
    s2 = (if (s1.dev.queue (.work n)).state = .absent then s1 else dropDone (disposeRing
      (s1.upd (fun d => endReplay (d.modQueue (.work n) (fun x => { x with state := .absent, asm := [] })) (.work n)))
      (.work n) .queueClosed .closed (ringLeft (s1.dev.queue (.work n)))) (.work n)) →
    exec (.queueDestroy q) s = .next (if (s2.dev.queue (.work n)).flight.isEmpty then finished
        (s2.upd (fun d => applyIdle s1.params ((d.setQueue (.work n) Queue.none).modFn p.func (fun x =>
          { x with windows := Tbl.del (fld (p.b 0) 7 0) x.windows })))) q p id
      else waits10 s2 q p)) ∧
  (∀ q s s1 p g, reach semGangCreate q s = .ten s1 p → refetches s1.dev (gangMask p) = false →
    (∀ pl ∈ maskPanels s1.dev (gangMask p), gangsIn s1.dev pl < 64) →
    IsLowest 64 (fun k => !(s1.dev.gang (fld (p.b 0) 1 0) k).live) g →
    exec (.gangCreate q) s = .next (finished
      (s1.upd (fun d => d.setGang (fld (p.b 0) 1 0) g ⟨true, p.func, fld (p.b 0) 1 0, gangMask p⟩))
      q p (fun x => { x with value := BitVec.ofNat 64 g }))) ∧
  (∀ q s s1 p, reach semGangCreate q s = .ten s1 p → refetches s1.dev (gangMask p) = false →
    (NoneBelow 64 (fun k => !(s1.dev.gang (fld (p.b 0) 1 0) k).live) ∨ (∃ pl ∈ maskPanels s1.dev (gangMask p), 64 ≤ gangsIn s1.dev pl)) →
    exec (.gangCreate q) s = .next (failed10 s1 q p .tableFull)) ∧
  (∀ q s s1 p, reach semGangDestroy q s = .ten s1 p →
    exec (.gangDestroy q) s = .next (finished
      (s1.upd (fun d => d.setGang (fld (p.b 0) 7 6) (fld (p.b 0) 5 0) Gang.none)) q p id))

/-- The creating packets at step 10 (R301, R320, R361, R363, R371, R380, R389): a new object with the payload its packet names and HREF 1, whose
handle is the result; a tack imported is held by its import entry, a heap by a memory object that is one of its allocations. A full table
completes the packet with TABLE_FULL. -/
def Obligations.ObjectCreationCompletes : Prop :=
  (∀ q s s1 p r d, reach semTackCreate q s = .ten s1 p →
    s1.dev.create 2 (fld (p.b 0) 1 0) p.func (.tack (p.b 1) [] false) = some (r, d) →
    exec (.tackCreate q) s = .next (finished (s1.withDev d) q p (fun x => { x with value := d.handle r }))) ∧
  (∀ q s s1 p r d, reach semBobbinCreate q s = .ten s1 p →
    s1.dev.create 3 (fld (p.b 0) 1 0) p.func (.bobbin 0 0) = some (r, d) →
    exec (.bobbinCreate q) s = .next (finished (s1.withDev d) q p (fun x => { x with value := d.handle r }))) ∧
  (∀ q s s1 p r d, reach semSeamCreate q s = .ten s1 p →
    s1.dev.create 4 0 p.func (.seam (fld (p.b 0) 1 0) none none) = some (r, d) →
    exec (.seamCreate q) s = .next (finished (s1.withDev d) q p (fun x => { x with value := d.handle r }))) ∧
  (∀ q s s1 p r d, reach semObjCreate q s = .ten s1 p → backingHeap s1 p.ctx (p.b 0).toNat (p.b 1).toNat = none →
    s1.dev.create 1 0 p.ctx (.memObj (p.b 0).toNat (p.b 1).toNat none) = some (r, d) →
    exec (.objCreate q) s = .next (finished (s1.withDev d) q p (fun x => { x with value := d.handle r }))) ∧
  (∀ q s s1 p h r d, reach semObjCreate q s = .ten s1 p → backingHeap s1 p.ctx (p.b 0).toNat (p.b 1).toNat = some h →
    s1.dev.create 1 0 p.ctx (.memObj (p.b 0).toNat (p.b 1).toNat (some h)) = some (r, d) →
    exec (.objCreate q) s = .next (finished (s1.withDev (addRef d ⟨6, h⟩)) q p (fun x => { x with value := d.handle r }))) ∧
  (∀ q s s1 p r d, reach semTackImport q s = .ten s1 p → s1.dev.create 7 0 p.func (.imported (fld (p.b 1) 19 0)) = some (r, d) →
    exec (.tackImport q) s = .next (finished (s1.withDev (addRef d ⟨2, fld (p.b 1) 19 0⟩)) q p (fun x => { x with value := d.handle r }))) ∧
  (∀ q s s1 p, reach semTackCreate q s = .ten s1 p →
    s1.dev.create 2 (fld (p.b 0) 1 0) p.func (.tack (p.b 1) [] false) = none →
    exec (.tackCreate q) s = .next (failed10 s1 q p .tableFull)) ∧
  (∀ q s s1 p, reach semBobbinCreate q s = .ten s1 p → s1.dev.create 3 (fld (p.b 0) 1 0) p.func (.bobbin 0 0) = none →
    exec (.bobbinCreate q) s = .next (failed10 s1 q p .tableFull)) ∧
  (∀ q s s1 p, reach semSeamCreate q s = .ten s1 p → s1.dev.create 4 0 p.func (.seam (fld (p.b 0) 1 0) none none) = none →
    exec (.seamCreate q) s = .next (failed10 s1 q p .tableFull)) ∧
  (∀ q s s1 p h, reach semObjCreate q s = .ten s1 p → backingHeap s1 p.ctx (p.b 0).toNat (p.b 1).toNat = h →
    s1.dev.create 1 0 p.ctx (.memObj (p.b 0).toNat (p.b 1).toNat h) = none →
    exec (.objCreate q) s = .next (failed10 s1 q p .tableFull)) ∧
  (∀ q s s1 p, reach semTackImport q s = .ten s1 p → s1.dev.create 7 0 p.func (.imported (fld (p.b 1) 19 0)) = none →
    exec (.tackImport q) s = .next (failed10 s1 q p .tableFull))

/-- What a create gives (R361, R363, R365): an entry of the chosen table that was free, now live with HREF 1 and DREF 0, its generation kept;
every other entry of the table is as it was. -/
def Obligations.CreateTakesAFreeEntry : Prop :=
  ∀ (t : Table) (i owner : Nat) (pay : Payload) (t' : Table), t.take = some (i, t') →
    (t'.make i owner pay).get i = ⟨true, (t.get i).gen, true, 0, owner, pay⟩ ∧
    (∀ j, j ≠ i → (t'.make i owner pay).get j = t.get j) ∧
    (t.fresh < t.size → i = t.fresh ∧ t'.fresh = t.fresh + 1 ∧ t'.freed = t.freed) ∧
    (t.size ≤ t.fresh → t.freed = i :: t'.freed ∧ t'.fresh = t.fresh)

/-- At step 10: OBJ_RELEASE (R368) releases the object of its handle. TACK_EXPORT (R379) adds the function named to the tack's grants; an export to
the issuing function, or to a fifth function, is refused with BAD_PARAM; an export already made changes nothing. XLATE_INVAL (R405) removes the cached
entries of its range, and waits while a request of its context is outstanding. QUERY (R391) writes its sixteen words, and is refused with PERM_FAULT and
a record of KIND 2 when they cannot be written. -/
def Obligations.ReleaseExportInvalidationQueryComplete : Prop :=
  (∀ q s s1 p, reach semObjRelease q s = .ten s1 p → exec (.objRelease q) s = .next (finished (releaseObj s1 (objB0 p)) q p id)) ∧
  (∀ q s s1 p, reach semTackExport q s = .ten s1 p → fld (p.b 1) 7 0 ≠ p.func → fld (p.b 1) 7 0 ∈ grantList s1.dev (objB0 p) →
    exec (.tackExport q) s = .next (finished s1 q p id)) ∧
  (∀ q s s1 p v g b, reach semTackExport q s = .ten s1 p → fld (p.b 1) 7 0 ≠ p.func →
    (s1.dev.entry (objB0 p)).payload = .tack v g b → fld (p.b 1) 7 0 ∉ g → g.length < 4 →
    exec (.tackExport q) s = .next (finished
      (s1.upd (fun d => d.modEntry (objB0 p) (fun e => { e with payload := .tack v (g ++ [fld (p.b 1) 7 0]) b }))) q p id)) ∧
  (∀ q s s1 p, reach semTackExport q s = .ten s1 p →
    (fld (p.b 1) 7 0 = p.func ∨ (fld (p.b 1) 7 0 ∉ grantList s1.dev (objB0 p) ∧ 4 ≤ (grantList s1.dev (objB0 p)).length)) →
    exec (.tackExport q) s = .next (refused10 s1 q p .badParam 0)) ∧
  (∀ q s s1 p d, reach semXlateInval q s = .ten s1 p → d = s1.dev.purge p.ctx (p.b 0).toNat (p.b 1).toNat → ctxRequests d p.ctx = false →
    exec (.xlateInval q) s = .next (finished (s1.withDev d) q p id)) ∧
  (∀ q s s1 p d, reach semXlateInval q s = .ten s1 p → d = s1.dev.purge p.ctx (p.b 0).toNat (p.b 1).toNat → ctxRequests d p.ctx = true →
    exec (.xlateInval q) s = .next (waits10 (s1.withDev d) q p)) ∧
  (∀ q s s1 p s2, reach semQuery q s = .ten s1 p →
    dWrite (queryTouch s1 p) (s1.dev.queue p.q).home p.ctx (p.b 0).toNat (wordsToBytes (queryRecord s1 p.ctx)) = .ok s2 →
    exec (.query q) s = .next (finished s2 q p id)) ∧
  (∀ q s s1 p x, reach semQuery q s = .ten s1 p →
    dWrite (queryTouch s1 p) (s1.dev.queue p.q).home p.ctx (p.b 0).toNat (wordsToBytes (queryRecord s1 p.ctx)) = .error x →
    exec (.query q) s = .next (refused10 ((queryTouch s1 p).upd (fun d => dFault d p.q p { x with perm := true })) q p .permFault 0))

/-- The tack and bobbin packets at step 10 (R299, R300, R372, R382): a TACK_WAIT whose wait has not ended ends when its tack has reached B1, is refused
with TACK_BROKEN on a broken tack and waits otherwise; one whose wait has ended ends (R375), as does one whose handle word is 0 (log entry 11).
TACK_SIGNAL and TACK_ADD complete at once. BOBBIN_SET sets NEXT and REMAIN once every earlier packet of the queue that names the bobbin has completed, and
waits before that. -/
def Obligations.TackAndBobbinPacketsComplete : Prop :=
  (∀ q s s1 p, reach semTackWait q s = .ten s1 p → (p.waitEnded = true ∨ p.b 0 = 0) → exec (.tackWait q) s = .next (finished s1 q p id)) ∧
  (∀ q s s1 p c, reach semTackWait q s = .ten s1 p → p.waitEnded = false → p.b 0 ≠ 0 → tackVal s1.dev (objB0 p) = (c, false) →
    0 ≤ (c - p.b 1).toInt → exec (.tackWait q) s = .next (finished s1 q p id)) ∧
  (∀ q s s1 p c, reach semTackWait q s = .ten s1 p → p.waitEnded = false → p.b 0 ≠ 0 → tackVal s1.dev (objB0 p) = (c, false) →
    (c - p.b 1).toInt < 0 → exec (.tackWait q) s = .next (waits10 s1 q p)) ∧
  (∀ q s s1 p c, reach semTackWait q s = .ten s1 p → p.waitEnded = false → p.b 0 ≠ 0 → tackVal s1.dev (objB0 p) = (c, true) →
    exec (.tackWait q) s = .next (refused10 s1 q p .tackBroken 0)) ∧
  (∀ q s s1 p, reach semTackSignal q s = .ten s1 p → exec (.tackSignal q) s = .next (finished s1 q p id)) ∧
  (∀ q s s1 p, reach semTackAdd q s = .ten s1 p → exec (.tackAdd q) s = .next (finished s1 q p id)) ∧
  (∀ q s s1 p, reach semBobbinSet q s = .ten s1 p →
    (∀ x ∈ (s1.dev.queue p.q).flight, x.uid = p.uid ∨ x.done = true ∨ objB0 p ∉ x.holds) →
    exec (.bobbinSet q) s = .next (finished (s1.upd (fun d => d.modEntry (objB0 p) (fun e =>
      { e with payload := .bobbin (BitVec.ofNat 32 (fld (p.b 1) 31 0)) (BitVec.ofNat 32 (fld (p.b 2) 31 0)) }))) q p id)) ∧
  (∀ q s s1 p x, reach semBobbinSet q s = .ten s1 p → x ∈ (s1.dev.queue p.q).flight → x.uid ≠ p.uid → x.done = false →
    objB0 p ∈ x.holds → exec (.bobbinSet q) s = .next (waits10 s1 q p))

/-- The heap packets at step 10 (R383 to R388), after the accesses of the allocator (`heapStart`). HEAP_SETUP completes with the handle of a new heap once
header and bitmap are written, and with TABLE_FULL where its table is full. ALLOC completes with the address that `heapAlloc` answers, with OUT_OF_HEAP
where it finds no run, and with BAD_PARAM where the metadata do not agree; a handle word of 0 names no heap and finds no run (log entry 11). FREE completes
with the allocation freed, and is refused with BAD_PARAM where `heapFree` finds no such allocation or no metadata that agree, and where a live memory
object is backed at its address. A fault of the metadata refuses each of them with PERM_FAULT and a record of KIND 2. -/
def Obligations.HeapPacketsComplete : Prop :=
  (∀ q s s1 p l n s0 r d s2, reach semHeapSetup q s = .ten s1 p → l = Nat.log2 (p.b 2).toNat → n = (p.b 1).toNat / (p.b 2).toNat →
    s0 = heapStart s1 p (p.b 0).toNat n → s1.dev.create 6 0 p.ctx (.heap (p.b 0).toNat l n) = some (r, d) →
    dWrite s0 heapPanel p.ctx (p.b 0).toNat (heapMeta l n) = .ok s2 →
    exec (.heapSetup q) s = .next (finished (s2.upd (fun e => { e with objs := d.objs })) q p (fun x => { x with value := d.handle r }))) ∧
  (∀ q s s1 p l n, reach semHeapSetup q s = .ten s1 p → l = Nat.log2 (p.b 2).toNat → n = (p.b 1).toNat / (p.b 2).toNat →
    s1.dev.create 6 0 p.ctx (.heap (p.b 0).toNat l n) = none → exec (.heapSetup q) s = .next (failed10 s1 q p .tableFull)) ∧
  (∀ q s s1 p l n s0 r d x, reach semHeapSetup q s = .ten s1 p → l = Nat.log2 (p.b 2).toNat → n = (p.b 1).toNat / (p.b 2).toNat →
    s0 = heapStart s1 p (p.b 0).toNat n → s1.dev.create 6 0 p.ctx (.heap (p.b 0).toNat l n) = some (r, d) →
    dWrite s0 heapPanel p.ctx (p.b 0).toNat (heapMeta l n) = .error x →
    exec (.heapSetup q) s = .next (refused10 (s0.upd (fun d => dFault d p.q p { x with perm := true })) q p .permFault 0)) ∧
  (∀ q s s1 p b l n s2 a, reach semAlloc q s = .ten s1 p → (s1.dev.entry (objB0 p)).payload = .heap b l n →
    heapAlloc (heapStart s1 p b n) p.ctx b l n (ceilDiv (p.b 1).toNat (2 ^ l)) = .ok (s2, a) →
    exec (.alloc q) s = .next (finished s2 q p (fun x => { x with value := BitVec.ofNat 64 a }))) ∧
  (∀ q s s1 p b l n, reach semAlloc q s = .ten s1 p → (s1.dev.entry (objB0 p)).payload = .heap b l n →
    heapAlloc (heapStart s1 p b n) p.ctx b l n (ceilDiv (p.b 1).toNat (2 ^ l)) = .none →
    exec (.alloc q) s = .next (failed10 (heapStart s1 p b n) q p .outOfHeap)) ∧
  (∀ q s s1 p, reach semAlloc q s = .ten s1 p → (∀ b l n, (s1.dev.entry (objB0 p)).payload ≠ .heap b l n) →
    exec (.alloc q) s = .next (failed10 s1 q p .outOfHeap)) ∧
  (∀ q s s1 p b l n, reach semAlloc q s = .ten s1 p → (s1.dev.entry (objB0 p)).payload = .heap b l n →
    heapAlloc (heapStart s1 p b n) p.ctx b l n (ceilDiv (p.b 1).toNat (2 ^ l)) = .bad →
    exec (.alloc q) s = .next (refused10 (heapStart s1 p b n) q p .badParam 0)) ∧
  (∀ q s s1 p b l n x, reach semAlloc q s = .ten s1 p → (s1.dev.entry (objB0 p)).payload = .heap b l n →
    heapAlloc (heapStart s1 p b n) p.ctx b l n (ceilDiv (p.b 1).toNat (2 ^ l)) = .fault x →
    exec (.alloc q) s = .next (refused10 ((heapStart s1 p b n).upd (fun d => dFault d p.q p { x with perm := true })) q p .permFault 0)) ∧
  (∀ q s s1 p b l n s2, reach semFree q s = .ten s1 p → (s1.dev.entry (objB0 p)).payload = .heap b l n →
    backedAt s1.dev (objB0 p).slot (p.b 1).toNat = false → heapFree (heapStart s1 p b n) p.ctx b l n (p.b 1).toNat = .ok s2 →
    exec (.free q) s = .next (finished s2 q p id)) ∧
  (∀ q s s1 p b l n, reach semFree q s = .ten s1 p → (s1.dev.entry (objB0 p)).payload = .heap b l n →
    backedAt s1.dev (objB0 p).slot (p.b 1).toNat = false →
    (heapFree (heapStart s1 p b n) p.ctx b l n (p.b 1).toNat = .bad ∨ heapFree (heapStart s1 p b n) p.ctx b l n (p.b 1).toNat = .none) →
    exec (.free q) s = .next (refused10 (heapStart s1 p b n) q p .badParam 0)) ∧
  (∀ q s s1 p b l n x, reach semFree q s = .ten s1 p → (s1.dev.entry (objB0 p)).payload = .heap b l n →
    backedAt s1.dev (objB0 p).slot (p.b 1).toNat = false → heapFree (heapStart s1 p b n) p.ctx b l n (p.b 1).toNat = .fault x →
    exec (.free q) s = .next (refused10 ((heapStart s1 p b n).upd (fun d => dFault d p.q p { x with perm := true })) q p .permFault 0)) ∧
  (∀ q s s1 p, reach semFree q s = .ten s1 p → backedAt s1.dev (objB0 p).slot (p.b 1).toNat = true →
    exec (.free q) s = .next (refused10 s1 q p .badParam 0))

/-- The first fit of R385: the run that ALLOC takes is free, long enough, inside the heap, and no lower run of that length is free. -/
def Obligations.AllocTakesTheLowestRun : Prop :=
  ∀ (bm : List Byte) (n nblock i : Nat), 0 < n → freeRun bm n 0 0 0 nblock = some i →
    i + n ≤ nblock ∧ (∀ k, k < n → blockCode bm (i + k) = 0) ∧ ∀ j, j < i → ∃ k, k < n ∧ blockCode bm (j + k) ≠ 0

/-- Pattern packets at step 10 (R261 to R264). PATTERN_DEFINE reads its packets and completes with the handle of a new pattern, or is refused with
BAD_PARAM where one of them may not stand in it. REPLAY begins its replay and waits for the last packet replayed. LOOP opens a frame, or passes its body
with a count of 0. ENDLOOP goes round with its registers raised, or closes the loop and restores them. -/
def Obligations.PatternPacketsComplete : Prop :=
  (∀ q s s1 p s0 r d, reach semPatternDefine q s = .ten s1 p →
    s0 = patternTouch (s1.dev.queue p.q).home p.ctx (p.b 1).toNat (p.b 0).toNat s1 →
    patternOk s1 (s1.dev.queue p.q).home p.ctx 0 0 (p.b 0).toNat (p.b 1).toNat = .ok true →
    s0.dev.create 5 0 p.ctx (.pattern (p.b 0).toNat (p.b 1).toNat) = some (r, d) →
    exec (.patternDefine q) s = .next (finished (s0.withDev d) q p (fun x => { x with value := d.handle r }))) ∧
  (∀ q s s1 p s0, reach semPatternDefine q s = .ten s1 p →
    s0 = patternTouch (s1.dev.queue p.q).home p.ctx (p.b 1).toNat (p.b 0).toNat s1 →
    patternOk s1 (s1.dev.queue p.q).home p.ctx 0 0 (p.b 0).toNat (p.b 1).toNat = .ok false →
    exec (.patternDefine q) s = .next (refused10 s0 q p .badParam 0)) ∧
  (∀ q s s1 p va n, reach semReplay q s = .ten s1 p → (s1.dev.entry (objB0 p)).payload = .pattern va n →
    exec (.replay q) s = .next (waits10
      (s1.upd (fun d => d.modQueue p.q (fun x => { x with replay := some ⟨p.uid, (objB0 p).slot, va, n, 0, va, []⟩ }))) q p)) ∧
  (∀ q s s1 p dst r, reach semLoop q s = .ten s1 p → loopEnd s1 p.q = .ok (some dst) → (s1.dev.queue p.q).replay = some r →
    0 < (p.b 0).toNat →
    exec (.loop q) s = .next (finished ((loopTouch s1 p.q).upd (fun d => d.modQueue p.q (fun x => { x with replay := some { r with
      loops := ⟨r.next, r.nextVa, (p.b 0).toNat, loopIncs p, (loopIncs p).map (fun e => (e.1, ctxReg s1.dev p.ctx e.1))⟩ :: r.loops } })))
      q p id)) ∧
  (∀ q s s1 p dst r, reach semLoop q s = .ten s1 p → loopEnd s1 p.q = .ok (some dst) → (s1.dev.queue p.q).replay = some r →
    (p.b 0).toNat = 0 →
    exec (.loop q) s = .next (finished ((loopTouch s1 p.q).upd (fun d => d.modQueue p.q (fun x => { x with replay := x.replay.map (fun y =>
      { y with next := dst.1, nextVa := dst.2 }) }))) q p id)) ∧
  (∀ q s s1 p r f fs, reach semEndloop q s = .ten s1 p → (s1.dev.queue p.q).replay = some r → r.loops = f :: fs → 1 < f.remaining →
    exec (.endloop q) s = .next (finished (s1.withDev
      ((f.incs.foldl (fun d e => setReg d p.ctx e.1 (ctxReg d p.ctx e.1 + e.2)) s1.dev).modQueue p.q (fun x => { x with replay := some { r with
        next := f.body, nextVa := f.bodyVa, loops := { f with remaining := f.remaining - 1 } :: fs } }))) q p id)) ∧
  (∀ q s s1 p r f fs, reach semEndloop q s = .ten s1 p → (s1.dev.queue p.q).replay = some r → r.loops = f :: fs → f.remaining ≤ 1 →
    exec (.endloop q) s = .next (finished (s1.withDev
      ((f.saved.foldl (fun d e => setReg d (s1.dev.queue p.q).ctx e.1 e.2) s1.dev).modQueue p.q (fun x => { x with replay := some { r with
        loops := fs } }))) q p id))

/-- At step 10: PATCH (R303) writes its registers. PRED_CMP (R304) sets its predicate to a cond b, by the condition codes 0 to 5; step 6 does not pass the
reserved codes 6 and 7. PRED_CLIP (R94, R305) merges its statistics records, for the predicate to be set when it retires, once every earlier packet of its
queue has retired, and waits before that. DESC_WRITE (R296) writes its descriptors once every earlier packet of its queue has finished its bundle copy,
and waits before that. -/
def Obligations.RegisterPacketsComplete : Prop :=
  (∀ q s s1 p, reach semPatch q s = .ten s1 p →
    exec (.patch q) s = .next (finished (s1.upd (fun d => (List.range (fld (p.b 0) 12 8 + 1)).foldl
      (fun d i => d.modCtx p.ctx (fun x => { x with params := Tbl.set (fld (p.b 0) 7 0 + i) (p.b (1 + i)) x.params })) d)) q p id)) ∧
  (∀ q s s1 p, reach semPredCmp q s = .ten s1 p →
    exec (.predCmp q) s = .next (finished (s1.upd (fun d =>
      setPred d p.ctx (fld (p.b 0) 4 0) (predCond (fld (p.b 0) 10 8) (p.b 1) (p.b 2)))) q p id)) ∧
  (∀ a b : Word, predCond 0 a b = (a == b) ∧ predCond 1 a b = (a != b) ∧ predCond 2 a b = BitVec.ult a b ∧
    predCond 3 a b = BitVec.ule a b ∧ predCond 4 a b = BitVec.slt a b ∧ predCond 5 a b = BitVec.sle a b) ∧
  (∀ s p, 6 ≤ fld (p.b 0) 10 8 → semPredCmp.check s p = false) ∧
  (∀ q s s1 p va n bs, reach semPredClip q s = .ten s1 p → alone s1.dev p = true →
    va = (p.b 0).toNat + 192 * (p.b 1).toNat → n = 192 * (p.b 2).toNat → dRead s1 (s1.dev.queue p.q).home p.ctx va n = .ok bs →
    exec (.predClip q) s = .next (finished (dTouch s1 (s1.dev.queue p.q).home p.ctx va n .read) q p (fun x => { x with
      pendPred := some (fld (p.b 3) 20 16), predVal := clipExceeds (mergeRecords (p.b 2).toNat bs) (fld (p.b 3) 15 0) }))) ∧
  (∀ q s s1 p, reach semPredClip q s = .ten s1 p → alone s1.dev p = false → exec (.predClip q) s = .next (waits10 s1 q p)) ∧
  (∀ q s s1 p s2, reach semDescWrite q s = .ten s1 p → copiesDone s1.dev p = true →
    writeDescs s1 (s1.dev.queue p.q).home p.ctx (p.b 0).toNat
      ((List.range (p.b 1).toNat).map (fun i => (List.range 8).map (fun j => p.b (2 + 8 * i + j)))) = (s2, none) →
    exec (.descWrite q) s = .next (finished s2 q p id)) ∧
  (∀ q s s1 p, reach semDescWrite q s = .ten s1 p → copiesDone s1.dev p = false → exec (.descWrite q) s = .next (waits10 s1 q p))

/-- The packets that cores carry out wait at step 10 to be multicast (R255): every stream, matrix, vector and chain packet, BAR, MARK, a SEAM
that opens or joins an episode (R329, R331), and FITTING once its core has none armed (R552). -/
def Obligations.MulticastPacketsAwaitTheGang : Prop :=
  (∀ q s s1 p, reach semCopy q s = .ten s1 p → exec (.copy q) s = .next (toMulticast s1 q p)) ∧
  (∀ q s s1 p, reach semFill q s = .ten s1 p → exec (.fill q) s = .next (toMulticast s1 q p)) ∧
  (∀ q s s1 p, reach semAccClear q s = .ten s1 p → exec (.accClear q) s = .next (toMulticast s1 q p)) ∧
  (∀ q s s1 p, reach semStats q s = .ten s1 p → exec (.stats q) s = .next (toMulticast s1 q p)) ∧
  (∀ q s s1 p, reach semMatmul q s = .ten s1 p → exec (.matmul q) s = .next (toMulticast s1 q p)) ∧
  (∀ q s s1 p, reach semFabLoad q s = .ten s1 p → exec (.fabLoad q) s = .next (toMulticast s1 q p)) ∧
  (∀ q s s1 p, reach semFabRun q s = .ten s1 p → exec (.fabRun q) s = .next (toMulticast s1 q p)) ∧
  (∀ q s s1 p, reach semChain q s = .ten s1 p → exec (.chain q) s = .next (toMulticast s1 q p)) ∧
  (∀ q s s1 p, reach semBar q s = .ten s1 p → exec (.bar q) s = .next (toMulticast s1 q p)) ∧
  (∀ q s s1 p, reach semMark q s = .ten s1 p → exec (.mark q) s = .next (toMulticast s1 q p)) ∧
  (∀ q s s1 p h sc, reach semSeam q s = .ten s1 p → bitOf (p.b 1) 0 = false → seamOf s1.dev (seamSlot (p.b 0)) = (h, sc, none) →
    exec (.seam q) s = .next (toMulticast (s1.upd (fun d =>
      setSeam d (seamSlot (p.b 0)) (some false) (some ⟨false, [], [], [], [], [p.uid]⟩))) q p)) ∧
  (∀ q s s1 p h sc e, reach semSeam q s = .ten s1 p → bitOf (p.b 1) 0 = false → seamOf s1.dev (seamSlot (p.b 0)) = (h, sc, some e) →
    exec (.seam q) s = .next (waits10 s1 q p)) ∧
  (∀ q s s1 p h sc e, reach semSeam q s = .ten s1 p → bitOf (p.b 1) 0 = true → seamOf s1.dev (seamSlot (p.b 0)) = (h, sc, some e) →
    exec (.seam q) s = .next (toMulticast (s1.upd (fun d =>
      setSeam d (seamSlot (p.b 0)) (some true) (some { e with pkts := e.pkts ++ [p.uid] }))) q p)) ∧
  (∀ q s s1 p h sc cov, reach semSeam q s = .ten s1 p → bitOf (p.b 1) 0 = true → seamOf s1.dev (seamSlot (p.b 0)) = (h, sc, none) →
    cov = gangParts s1.dev (gangOf s1.dev p.q) →
    exec (.seam q) s = .next (toMulticast (s1.upd (fun d =>
      setSeam d (seamSlot (p.b 0)) (some true) (some ⟨true, [], [], cov, partQueues s1.dev p.func cov, [p.uid]⟩))) q p)) ∧
  (∀ q s s1 p, reach semFitting q s = .ten s1 p →
    (∀ k, s1.dev.siteOf (fld (p.b 0) 9 0) = some k → (s1.dev.core k).fitting = none) →
    exec (.fitting q) s = .next (toMulticast s1 q p)) ∧
  (∀ q s s1 p k f, reach semFitting q s = .ten s1 p → s1.dev.siteOf (fld (p.b 0) 9 0) = some k → (s1.dev.core k).fitting = some f →
    exec (.fitting q) s = .next (waits10 s1 q p))

/-! ## Packets that the management controller executes -/

/-- FW_LOAD (R477), RESET_DEVICE (R448, R450), FUNC_RESET (R435, R436) and PART_CLEAR (R440) at step 10. While the MC restarts, each of them waits (R477).
Else a FW_LOAD begins to be read, or completes with BAD_PARAM for a length no image has; RESET_DEVICE resets the device at once with cause 3; FUNC_RESET
begins its reset; PART_CLEAR begins its clear, or waits while its partition is being cleared. -/
def Obligations.ResetPacketsComplete : Prop :=
  (∀ q s s1 p, reach semFwLoad q s = .ten s1 p → mcRestarts s1.dev = false → 512 ≤ (p.b 1).toNat → (p.b 1).toNat ≤ 512 + 261888 →
    exec (.fwLoad q) s = .next (acceptedMc
      (s1.upd (fun d => mcStart d ⟨0, p.uid, (p.b 0).toNat, (p.b 1).toNat, [], none, none⟩)) q p)) ∧
  (∀ q s s1 p, reach semFwLoad q s = .ten s1 p → mcRestarts s1.dev = false → ((p.b 1).toNat < 512 ∨ 512 + 261888 < (p.b 1).toNat) →
    exec (.fwLoad q) s = .next (failed10 s1 q p .badParam)) ∧
  (∀ q s s1 p s2, reach semResetDevice q s = .ten s1 p → mcRestarts s1.dev = false →
    s2 = acceptedMc (s1.upd (fun d => { d with boot := { d.boot with hold := 3 } })) q p → s2.dev.boot.inReset = false →
    s2.dev.boot.hold = 3 → exec (.resetDevice q) s = .next (deviceReset s2 3 3)) ∧
  (∀ q s s1 p, reach semFuncReset q s = .ten s1 p → mcRestarts s1.dev = false →
    exec (.funcReset q) s = .next (acceptedMc (startReset s1 (fld (p.b 0) 7 0) false [] [p.uid]) q p)) ∧
  (∀ q s s1 p, reach semPartClear q s = .ten s1 p → mcRestarts s1.dev = false →
    (∀ c ∈ s1.dev.mc.clears, c.1 ≠ 16 * fld (p.b 0) 1 0 + fld (p.b 0) 7 4) →
    exec (.partClear q) s = .next (acceptedMc (beginClear s1 (fld (p.b 0) 1 0) (fld (p.b 0) 7 4) p.uid) q p)) ∧
  (∀ q s s1 p c, reach semPartClear q s = .ten s1 p → c ∈ s1.dev.mc.clears → c.1 = 16 * fld (p.b 0) 1 0 + fld (p.b 0) 7 4 →
    exec (.partClear q) s = .next (waits10 s1 q p)) ∧
  (∀ q s s1 p, mcRestarts s1.dev = true →
    (reach semFwLoad q s = .ten s1 p → exec (.fwLoad q) s = .next (waits10 s1 q p)) ∧
    (reach semFuncReset q s = .ten s1 p → exec (.funcReset q) s = .next (waits10 s1 q p)) ∧
    (reach semPartClear q s = .ten s1 p → exec (.partClear q) s = .next (waits10 s1 q p)))

/-- RETIRE (R489, R490, R494), INSERT (R489 to R491), HEALTH (R488), SPDM (R561) and RESUME (R232) at step 10. While the MC restarts, the first four wait
(R477). Else RETIRE of a core, of a row or of a column, and INSERT, stage a change, which is applied at once where `applyIdle` finds its index idle (R334);
with 63 changes pending they complete with TABLE_FULL; a retirement already made or pending completes without effect. RETIRE of a stack range installs the
lowest unused slot of its size and completes when the copy ends, or completes with TABLE_FULL; RETIRE of a lane or module begins its replacement. A kind
that is not 1 to 6, bits outside the identifier, a vacant index and a third row or column complete with BAD_PARAM, as does an INSERT of another kind or of a
site that may not fill the index. HEALTH writes the record as the issuing function reads it to its address; SPDM has its request read for the responder;
RESUME retries the halted stream and the halted image read of every core for its context. -/
def Obligations.SpareHealthSpdmResumeComplete : Prop :=
  (∀ q s s1 p k, reach semRetire q s = .ten s1 p → mcRestarts s1.dev = false → fld (p.b 0) 3 0 = 1 → p.b 1 &&& ~~~0x3FF#64 = 0 →
    s1.dev.siteOf (fld (p.b 1) 9 0) = some k →
    (∀ c ∈ s1.dev.mc.changes, ¬ (c.insert = false ∧ c.kind = 1 ∧ c.index = fld (p.b 1) 9 0)) →
    exec (.retire q) s = .next (if s1.dev.mc.changes.length < 63 then finished (s1.upd (fun d => applyIdle s1.params { d with mc := { d.mc with
      changes := d.mc.changes ++ [⟨keyPanel k, false, 1, p.b 1, p.seq⟩] } })) q p id else failed10 s1 q p .tableFull)) ∧
  (∀ q s s1 p k c, reach semRetire q s = .ten s1 p → mcRestarts s1.dev = false → fld (p.b 0) 3 0 = 1 → p.b 1 &&& ~~~0x3FF#64 = 0 →
    s1.dev.siteOf (fld (p.b 1) 9 0) = some k → c ∈ s1.dev.mc.changes → c.insert = false → c.kind = 1 → c.index = fld (p.b 1) 9 0 →
    exec (.retire q) s = .next (finished s1 q p id)) ∧
  (∀ q s s1 p row k gone, reach semRetire q s = .ten s1 p → mcRestarts s1.dev = false → fld (p.b 0) 3 0 = (if row then 2 else 3) →
    p.b 1 &&& ~~~0x7F03FF#64 = 0 → s1.dev.siteOf (fld (p.b 1) 9 0) = some k → fld (p.b 1) 22 16 < s1.params.opuDim + 2 →
    gone = linesGone s1.dev k (fld (p.b 1) 9 0) row →
    exec (.retire q) s = .next (
      if fld (p.b 1) 22 16 ∈ gone then finished s1 q p id
      else if 2 ≤ gone.length then failed10 s1 q p .badParam
      else if s1.dev.mc.changes.length < 63 then finished (s1.upd (fun d => applyIdle s1.params { d with mc := { d.mc with
        changes := d.mc.changes ++ [⟨keyPanel k, false, if row then 2 else 3, p.b 1, p.seq⟩] } })) q p id
      else failed10 s1 q p .tableFull)) ∧
  (∀ q s s1 p v key, reach semRetire q s = .ten s1 p → mcRestarts s1.dev = false → fld (p.b 0) 3 0 = 4 → v = p.b 1 → v &&& ~~~rangeMask = 0 →
    key = rangeKey v → key / 16 < livePanels s1.params s1.dev → key % 16 < s1.params.stackPorts → aligned (unitBytes (rangeCoarse v)) (rangeAddr v) = true →
    rangeAddr v < usable s1.params s1.dev (key / 16) → remapOf (s1.dev.port key) (rangeCoarse v) (rangeAddr v) = none →
    exec (.retire q) s = .next (match freeSlot s1.params (s1.dev.port key) (rangeCoarse v) with
      | some i => acceptedMc (s1.upd (fun d => d.modPort key (fun x => install x ⟨rangeAddr v, rangeCoarse v, i, true, 0, none, p.uid⟩))) q p
      | none => failed10 s1 q p .tableFull)) ∧
  (∀ q s s1 p l up m j x, reach semRetire q s = .ten s1 p → mcRestarts s1.dev = false → fld (p.b 0) 3 0 = 5 → p.b 1 &&& ~~~0x39F7F#64 = 0 →
    l = fld (p.b 1) 17 16 → up = bitOf (p.b 1) 15 → m = fld (p.b 1) 12 8 → j = fld (p.b 1) 6 0 → x = (s1.dev.link l).dir up → l < s1.params.links →
    m < 26 → j < 68 → (s1.dev.link l).formed = true → m ∉ x.out → j ∉ x.bad m → x.repairing = none →
    exec (.retire q) s = .next (match startLane s1.dev l up m j (some p.uid) with
      | (d, true) => acceptedMc (s1.withDev d) q p
      | (d, false) => finished (s1.withDev d) q p id)) ∧
  (∀ q s s1 p l up m x, reach semRetire q s = .ten s1 p → mcRestarts s1.dev = false → fld (p.b 0) 3 0 = 6 → p.b 1 &&& ~~~0x39F00#64 = 0 →
    l = fld (p.b 1) 17 16 → up = bitOf (p.b 1) 15 → m = fld (p.b 1) 12 8 → x = (s1.dev.link l).dir up → l < s1.params.links → m < 26 →
    (s1.dev.link l).formed = true → m ∉ x.out → 17 ≤ x.usable → x.repairing = none →
    exec (.retire q) s = .next (acceptedMc
      (s1.upd (fun d => modDir d l up (fun x => { x with repairing := some ⟨m, none, some p.uid⟩ }))) q p)) ∧
  (∀ q s s1 p k, reach semRetire q s = .ten s1 p → mcRestarts s1.dev = false → k = fld (p.b 0) 3 0 →
    (k < 1 ∨ 6 < k ∨ p.b 1 &&& ~~~(identMask false k) ≠ 0 ∨ (1 ≤ k ∧ k ≤ 3 ∧ s1.dev.siteOf (fld (p.b 1) 9 0) = none)) →
    exec (.retire q) s = .next (failed10 s1 q p .badParam)) ∧
  (∀ q s s1 p c, reach semInsert q s = .ten s1 p → mcRestarts s1.dev = false → c = changeOf s1.dev p true → c.kind = 1 →
    p.b 1 &&& ~~~(identMask true 1) = 0 → indexExists s1.dev c.index = true → keyPanel c.spare < s1.params.panels →
    fld c.ident 7 0 < s1.params.sites →
    (s1.dev.siteOf c.index = none ∨ ∃ x ∈ s1.dev.mc.changes, x.insert = false ∧ x.kind = 1 ∧ x.index = c.index) →
    (∀ x ∈ s1.dev.mc.changes, ¬ (x.insert = true ∧ x.index = c.index)) →
    (s1.dev.site c.spare).st = .spare → (s1.dev.site c.spare).fetched = true → ownersAgree s1.dev c.index c.spare = true →
    exec (.insert q) s = .next (if s1.dev.mc.changes.length < 63 then finished (s1.upd (fun d => applyIdle s1.params { d with mc := { d.mc with
      changes := d.mc.changes ++ [c] } })) q p id else failed10 s1 q p .tableFull)) ∧
  (∀ q s s1 p c, reach semInsert q s = .ten s1 p → mcRestarts s1.dev = false → c = changeOf s1.dev p true →
    (c.kind ≠ 1 ∨ indexExists s1.dev c.index = false ∨ (s1.dev.site c.spare).st ≠ .spare ∨ (s1.dev.site c.spare).fetched = false ∨
      ownersAgree s1.dev c.index c.spare = false) →
    exec (.insert q) s = .next (failed10 s1 q p .badParam)) ∧
  (∀ q s s1 p, reach semHealth q s = .ten s1 p → mcRestarts s1.dev = false →
    exec (.health q) s = .next (finished
      (s1.upd (fun d => mcWriteAll d p.func (p.b 0).toNat (wordsToBytes (healthRecordOf s1.params d p.func)))) q p id)) ∧
  (∀ q s s1 p, reach semSpdm q s = .ten s1 p → mcRestarts s1.dev = false →
    exec (.spdm q) s = .next (acceptedMc (s1.upd (fun d =>
      mcStart d ⟨p.func, p.uid, (p.b 0).toNat, (p.b 1).toNat, [], none, some ((p.b 2).toNat, (p.b 3).toNat)⟩)) q p)) ∧
  (∀ q s s1 p, reach semResume q s = .ten s1 p →
    exec (.resume q) s = .next (finished ((s1.dev.cores.map (·.1)).foldl
      (fun s k => retryLoad (fld (p.b 0) 9 0) (retryStream (fld (p.b 0) 9 0) s k) k) s1) q p id)) ∧
  (∀ q s s1 p, mcRestarts s1.dev = true →
    (reach semRetire q s = .ten s1 p → exec (.retire q) s = .next (waits10 s1 q p)) ∧
    (reach semInsert q s = .ten s1 p → exec (.insert q) s = .next (waits10 s1 q p)) ∧
    (reach semHealth q s = .ten s1 p → exec (.health q) s = .next (waits10 s1 q p)) ∧
    (reach semSpdm q s = .ten s1 p → exec (.spdm q) s = .next (waits10 s1 q p)))

/-! ## Acceptance in general -/

/-- R254 on a control queue: a packet of the row's opcode whose checks pass comes to step 10 in one go. The only changes on the way are the
packet in flight, the ring cursor, the packet number and the charge of the dispatch arbiter: no byte of memory, no register and no other queue
changes. The charge (R445) writes nothing but the arbiter of the queue's home panel: a weighted function loses one credit, and when it has none
left every weighted function first gets its weight; a function without weight is charged nothing (log entry 8). -/
def Obligations.ControlPacketReachesStepTen : Prop :=
  (∀ (sem : OpSem) (s : State) (f : Nat) (p : Pkt), CtlReady s f → p = ctlPkt s f → p.isOp sem.row = true →
    sem.row.cls = 0 → sem.row.handles = [] → step1For s.dev (.ctl f) p = none →
    bodyOk sem.row p = true → resultOk sem.row p = true → sem.check (ctlWith s f p) p = true →
    (sem.row.f0 = true → p.func = 0) → sem.own (ctlWith s f p) p = none →
    reach sem (.ctl f) s = .ten (ctlWith s f { p with pendReg := resultReg sem.row p }) { p with pendReg := resultReg sem.row p }) ∧
  (∀ (d : Dev) (q : QRef), dispCharge d q = { d with panels := (dispCharge d q).panels } ∧
    ∀ n, n ≠ (d.queue q).home → (dispCharge d q).panel n = d.panel n) ∧
  (∀ (d : Dev) (q : QRef) (f n : Nat), f = (d.queue q).func → n = (d.queue q).home →
    ((dispCharge d q).panel n).dispLast = f ∧
    (dispWeight d f = 0 → ((dispCharge d q).panel n).dispCredits = (d.panel n).dispCredits) ∧
    (0 < dispWeight d f → 0 < Tbl.get 0 f (d.panel n).dispCredits →
      ((dispCharge d q).panel n).dispCredits = Tbl.set f (Tbl.get 0 f (d.panel n).dispCredits - 1) (d.panel n).dispCredits) ∧
    (0 < dispWeight d f → Tbl.get 0 f (d.panel n).dispCredits = 0 →
      Tbl.get 0 f ((dispCharge d q).panel n).dispCredits = dispWeight d f - 1 ∧
      ∀ g, g ≠ f → 0 < dispWeight d g → Tbl.get 0 g ((dispCharge d q).panel n).dispCredits = dispWeight d g))

/-- R255, R445: for a queue with no packet inside R254, a packet row changes nothing but the references of completed packets while the queue is STOPPED, its
ring is empty, READ_AHEAD packets of it are accepted and unretired, or the arbiter of its home panel grants another queue. R254, step 4: a packet of a work queue whose predicate tells it to skip leaves R254 with status SKIPPED
and is counted as accepted. -/
def Obligations.BlockedAndSkippedPackets : Prop :=
  (∀ (sem : OpSem) (q : QRef) (s : State), (∀ x ∈ (s.dev.queue q).flight, x.inside = false) →
    ((s.dev.queue q).state ≠ .running ∨ (s.dev.queue q).readAhead ≤ ((s.dev.queue q).flight.filter Pkt.counts).length ∨
      ((s.dev.queue q).replay = none ∧ (s.dev.queue q).entered = (s.dev.queue q).posted) ∨
      dispPick s.dev (s.dev.queue q).home ≠ some q) →
    acceptRow sem q s = dropDone s q) ∧
  (∀ (sem : OpSem) (q : QRef) (s : State) (p : Pkt), p.stage = .entered → p.isCtl = false → step2 s.dev p = true →
    hWen p.w1 = false → hPen p.w1 = true → ctxPred s.dev p.ctx (hPsel p.w1) = hPneg p.w1 →
    p.isOp rowLoop = false → p.isOp rowEndloop = false → p.waitHold = none → s.dev.pkt q p.uid = some p →
    ∃ act, steps2 sem s q p = .out (s.upd (fun d => replayNext (leavePkt d q p.uid .skipped
      (fun x => { x with done := true, status := .skipped, sigTack := act })) q)))

/-- A refusal (R254, R256): the packet's queue is STOPPED and FAILED, and keeps the STOP_STATUS of an earlier stop. R254, step 1, and R256: a
packet of a control queue whose header step 1 refuses stops its queue with that status; the refused packet completes and is not counted in
Q_ACCEPTED. -/
def Obligations.RefusalStopsTheQueue : Prop :=
  (∀ (s : State) (q : QRef) (uid : Nat) (st : Status) (det : Word), (s.dev.queue q).state ≠ .absent →
    ((refusePkt s q uid st det).dev.queue q).state = .stopped ∧ ((refusePkt s q uid st det).dev.queue q).failed = true ∧
    ((s.dev.queue q).state = .running → ((refusePkt s q uid st det).dev.queue q).stopStatus = BitVec.ofNat 8 st.code) ∧
    ((s.dev.queue q).state = .stopped → ((refusePkt s q uid st det).dev.queue q).stopStatus = (s.dev.queue q).stopStatus) ∧
    ((refusePkt s q uid st det).dev.queue q).posted = (s.dev.queue q).posted ∧
    ((refusePkt s q uid st det).dev.queue q).retired = (s.dev.queue q).retired) ∧
  (∀ (sem : OpSem) (s : State) (f : Nat) (st : Status), CtlReady s f → rowTakes sem.row (ctlPkt s f) = true →
    step1For s.dev (.ctl f) (ctlPkt s f) = some st →
    ((acceptRow sem (.ctl f) s).dev.queue (.ctl f)).state = .stopped ∧
    ((acceptRow sem (.ctl f) s).dev.queue (.ctl f)).failed = true ∧
    ((acceptRow sem (.ctl f) s).dev.queue (.ctl f)).stopStatus = BitVec.ofNat 8 st.code ∧
    ((acceptRow sem (.ctl f) s).dev.queue (.ctl f)).accepted = (s.dev.queue (.ctl f)).accepted)

/-- R402: a fault of an access that PATTERN_DEFINE, LOOP, PRED_CLIP or DESC_WRITE makes at step 10 writes the fault record of what was found and refuses
the packet with PERM_FAULT; descriptors already written stay (R296). A fault of the metadata that ALLOC and FREE use counts as PERM_FAULT in the record
too (R388). -/
def Obligations.FaultsAtStepTenRefuse : Prop :=
  (∀ q s s1 p s0 x, reach semPatternDefine q s = .ten s1 p →
    s0 = patternTouch (s1.dev.queue p.q).home p.ctx (p.b 1).toNat (p.b 0).toNat s1 →
    patternOk s1 (s1.dev.queue p.q).home p.ctx 0 0 (p.b 0).toNat (p.b 1).toNat = .error x →
    exec (.patternDefine q) s = .next (refused10 (s0.upd (fun d => dFault d p.q p x)) q p .permFault 0)) ∧
  (∀ q s s1 p x, reach semLoop q s = .ten s1 p → loopEnd s1 p.q = .error x →
    exec (.loop q) s = .next (refused10 ((loopTouch s1 p.q).upd (fun d => dFault d p.q p x)) q p .permFault 0)) ∧
  (∀ q s s1 p va n x, reach semPredClip q s = .ten s1 p → alone s1.dev p = true →
    va = (p.b 0).toNat + 192 * (p.b 1).toNat → n = 192 * (p.b 2).toNat → dRead s1 (s1.dev.queue p.q).home p.ctx va n = .error x →
    exec (.predClip q) s = .next (refused10
      ((dTouch s1 (s1.dev.queue p.q).home p.ctx va n .read).upd (fun d => dFault d p.q p x)) q p .permFault 0)) ∧
  (∀ q s s1 p s2 x, reach semDescWrite q s = .ten s1 p → copiesDone s1.dev p = true →
    writeDescs s1 (s1.dev.queue p.q).home p.ctx (p.b 0).toNat
      ((List.range (p.b 1).toNat).map (fun i => (List.range 8).map (fun j => p.b (2 + 8 * i + j)))) = (s2, some x) →
    exec (.descWrite q) s = .next (refused10 (s2.upd (fun d => dFault d p.q p x)) q p .permFault 0)) ∧
  (∀ q s s1 p b l n x, reach semAlloc q s = .ten s1 p → (s1.dev.entry (objB0 p)).payload = .heap b l n →
    heapAlloc (heapStart s1 p b n) p.ctx b l n (ceilDiv (p.b 1).toNat (2 ^ l)) = .fault x →
    exec (.alloc q) s = .next (refused10 ((heapStart s1 p b n).upd (fun d => dFault d p.q p { x with perm := true })) q p .permFault 0)) ∧
  (∀ q s s1 p b l n x, reach semFree q s = .ten s1 p → (s1.dev.entry (objB0 p)).payload = .heap b l n →
    backedAt s1.dev (objB0 p).slot (p.b 1).toNat = false → heapFree (heapStart s1 p b n) p.ctx b l n (p.b 1).toNat = .fault x →
    exec (.free q) s = .next (refused10 ((heapStart s1 p b n).upd (fun d => dFault d p.q p { x with perm := true })) q p .permFault 0))

/-! ## After acceptance -/

/-- WAIT_TACK_RESUME (R377): the waits on the tack are re-evaluated queue by queue, the first waiting packet of each by its own row; nothing happens where
no packet waits on it. PACKET_RETIRE (R257): the oldest packet of the queue, once complete, retires, the elements that its failed command could reach taking
free values first (R235); a packet that ended well, without tack action, result or reply, leaves its queue, and Q_RETIRED counts it. A queue whose oldest
packet has not completed changes nothing. -/
def Obligations.AcceptedPacketsGoOnAndRetire : Prop :=
  (∀ slot s, exec (.waitTackResume slot) s = .next (s.dev.queueRefs.foldl (resumeQueue slot) s)) ∧
  (∀ slot s q p sem, (s.dev.queue q).flight.find? (waitsOn s.dev slot) = some p → workSems.find? (fun m => p.isOp m.row) = some sem →
    resumeQueue slot s q = acceptRow sem q s) ∧
  (∀ slot s, (∀ q ∈ s.dev.queueRefs, ∀ p ∈ (s.dev.queue q).flight, waitsOn s.dev slot p = false) →
    exec (.waitTackResume slot) s = .next s) ∧
  (∀ q s, retireNext (s.dev.queue q) = none → exec (.packetRetire q) s = .next s) ∧
  (∀ q s p, retireNext (s.dev.queue q) = some p →
    exec (.packetRetire q) s = .next (dropDone ((spoil (dropDone s q) p).upd (fun d => retirePkt d q p)) q)) ∧
  (∀ (s : State) (p : Pkt), (p.spoiled = false → spoil s p = s) ∧ (p.spoiled = true → spoil s p = p.reach.foldl (fun s e => freeGran s p.ctx e) s)) ∧
  (∀ (d : Dev) (q : QRef) (p : Pkt), p.fate = .accepted → p.status = .done → p.parent = none → p.sigTack = none → p.ownTack = none →
    p.pendReg = none → p.pendPred = none → hRply p.w0 = 0 →
    (retirePkt d q p).queue q = { d.queue q with
      flight := (d.queue q).flight.filter (fun y => y.uid != p.uid), retired := (d.queue q).retired + 1 })

/-- The tack actions of R372 to R374: a SIGNAL raises the value to V when V lies ahead by less than 2^63, and otherwise leaves it and is a
regression; an ADD adds modulo 2^64; a broken tack keeps its value (R382). -/
def Obligations.TackActionsFollowTheRules : Prop :=
  (∀ (d : Dev) (r : ObjRef) (v c : Word) (g : List Nat), (d.entry r).payload = .tack c g false →
    (0 < (v - c).toInt → tackVal (tackAct d r false v).1 r = (v, false) ∧ (tackAct d r false v).2 = false) ∧
    ((v - c).toInt ≤ 0 → tackAct d r false v = (d, true)) ∧
    (tackAct d r true v).2 = false ∧ tackVal (tackAct d r true v).1 r = (c + v, false)) ∧
  ∀ (d : Dev) (r : ObjRef) (v c : Word) (g : List Nat) (add : Bool), (d.entry r).payload = .tack c g true → tackAct d r add v = (d, false)

/-! ## Submission and queue registers -/

/-- R246 and R566: one granule that is a whole packet, written at offset 0 of a control queue's aperture with no packet half assembled, puts the
packet into the ring with Q_POSTED in its SEQ field, and Q_POSTED counts it; no byte of memory changes. A complete packet of a work queue is
written into the next slot of its ring in memory in the same way; whatever the host wrote in the SEQ field is replaced. Where that write faults, the packet
is not posted: the fault record is written and the queue stops with PERM_FAULT (R402). -/
def Obligations.SubmissionPostsPackets : Prop :=
  (∀ (s : State) (f : Nat) (data : List Byte) (x : Queue), writable s.dev f 0x1000 = true → data.length = 64 →
    x = s.dev.queue (.ctl f) → x.state ≠ .absent → x.asm = [] → x.overrun = false →
    hGran (wordAt (bytesToWords 8 data) 0) = 1 → (x.posted - x.retired).toNat ≠ x.depth → (∀ p ∈ x.flight, p.done = true → p.holds = []) →
    exec (.submitGranule f 0xFFFF 0 data) s = .next (s.upd (fun d => d.setQueue (.ctl f) { x with
      slots := Tbl.set (x.posted.toNat % x.depth) (withSeq (bytesToWords 8 data) x.posted) x.slots, posted := x.posted + 1 }))) ∧
  (∀ (s s1 : State) (n f win : Nat) (ws : List Word) (x : Queue), x = s.dev.queue (.work n) → x.overrun = false →
    (x.posted - x.retired).toNat ≠ x.depth →
    dWrite (dTouch s x.home x.ctx (x.ringVa + 256 * (x.posted.toNat % x.depth)) (8 * (withSeq ws x.posted).length) .write) x.home x.ctx
      (x.ringVa + 256 * (x.posted.toNat % x.depth)) (wordsToBytes (withSeq ws x.posted)) = .ok s1 →
    postPacket s (.work n) f win ws = s1.upd (fun d => d.modQueue (.work n) (fun y => { y with posted := y.posted + 1 }))) ∧
  (∀ (s s0 : State) (n f win va : Nat) (ws : List Word) (x : Queue) (e : XFault), x = s.dev.queue (.work n) → x.overrun = false →
    (x.posted - x.retired).toNat ≠ x.depth → va = x.ringVa + 256 * (x.posted.toNat % x.depth) →
    s0 = dTouch s x.home x.ctx va (8 * (withSeq ws x.posted).length) .write →
    dWrite s0 x.home x.ctx va (wordsToBytes (withSeq ws x.posted)) = .error e →
    postPacket s (.work n) f win ws = s0.upd (fun d =>
      stopQueue (d.fault f { e.info with ctx := x.ctx, queue := n, tag := hTag (wordAt ws 0) }) (.work n) Status.permFault.code false)) ∧
  (∀ (w : Word) (ws : List Word) (n : BitVec 32), fld (wordAt (withSeq (w :: ws) n) 0) 47 16 = n.toNat ∧
    fld (wordAt (withSeq (w :: ws) n) 0) 15 0 = fld w 15 0 ∧ fld (wordAt (withSeq (w :: ws) n) 0) 63 48 = fld w 63 48 ∧
    (withSeq (w :: ws) n).drop 1 = ws)

/-- R245, R247 and R248: a granule out of its place stops the queue MALFORMED; a packet for a full ring stops it with QUEUE_OVERRUN; neither is
posted. A write the block does not serve changes nothing. -/
def Obligations.BadSubmissionsAreNotPosted : Prop :=
  (∀ s f win off data, writable s.dev f (windowOff win) = false → exec (.submitGranule f win off data) s = .next s) ∧
  (∀ (s : State) (q : QRef) (f win off : Nat) (ws : List Word), (s.dev.queue q).state = .running → off ≠ 0 →
    off ≠ 8 * (s.dev.queue q).asm.length →
    ((subGran s q f win off ws).dev.queue q).state = .stopped ∧ ((subGran s q f win off ws).dev.queue q).malformed = true ∧
    ((subGran s q f win off ws).dev.queue q).stopStatus = BitVec.ofNat 8 Status.malformed.code ∧
    ((subGran s q f win off ws).dev.queue q).asm = [] ∧ ((subGran s q f win off ws).dev.queue q).posted = (s.dev.queue q).posted) ∧
  (∀ (s : State) (q : QRef) (f win : Nat) (ws : List Word), (s.dev.queue q).state = .running → (s.dev.queue q).overrun = false →
    ((s.dev.queue q).posted - (s.dev.queue q).retired).toNat = (s.dev.queue q).depth →
    ((postPacket s q f win ws).dev.queue q).state = .stopped ∧ ((postPacket s q f win ws).dev.queue q).overrun = true ∧
    ((postPacket s q f win ws).dev.queue q).stopStatus = BitVec.ofNat 8 Status.queueOverrun.code ∧
    ((postPacket s q f win ws).dev.queue q).posted = (s.dev.queue q).posted) ∧
  (∀ (s : State) (q : QRef) (f win : Nat) (ws : List Word), (s.dev.queue q).overrun = true → postPacket s q f win ws = s)

/-- RESTART and RESTART_FLUSH (R243, R256): a STOPPED queue runs again with its sticky bits, STOP_STATUS and half-assembled packet gone; with
FLUSH the packets of its ring complete as FLUSHED; a RUNNING queue only loses the sticky bits written with 1. -/
def Obligations.RestartResumesTheQueue : Prop :=
  (∀ s f win v q, writable s.dev f (windowOff win) = true → bitOf v 4 = true → bitOf v 5 = false → windowQ s.dev f win = some q →
    (s.dev.queue q).state = .stopped →
    exec (.restart f win v) s = .next (s.upd (fun d => d.setQueue q { s.dev.queue q with
      malformed := false, overrun := false, failed := false, stopStatus := 0, asm := [], state := .running }))) ∧
  (∀ s f win v q, writable s.dev f (windowOff win) = true → bitOf v 4 = true → bitOf v 5 = false → windowQ s.dev f win = some q →
    (s.dev.queue q).state ≠ .stopped →
    exec (.restart f win v) s = .next (s.upd (fun d => d.setQueue q (clearSticky (s.dev.queue q) v)))) ∧
  (∀ s f win v q, writable s.dev f (windowOff win) = true → bitOf v 4 = true → bitOf v 5 = true → windowQ s.dev f win = some q →
    (s.dev.queue q).state = .stopped →
    exec (.restartFlush f win v) s = .next (disposeRing (s.upd (fun d => d.setQueue q { s.dev.queue q with
      malformed := false, overrun := false, failed := false, stopStatus := 0, asm := [], state := .running }))
      q .flushed .flushed (ringLeft (s.dev.queue q)))) ∧
  (∀ s f win v, writable s.dev f (windowOff win) = false →
    exec (.restart f win v) s = .next s ∧ exec (.restartFlush f win v) s = .next s)

/-! ## Function registers, interrupts, the reset key -/

/-- RING_CFG and RING_HEAD (R265, R268), and the frame of such writes: no byte of memory and no queue changes. Fault records that could not be
written (R268, R513): a held record goes out once the fault ring is enabled and has room, and waits otherwise; a record the bridge refused is
written again to its place. -/
def Obligations.RingRegistersAndHeldRecords : Prop :=
  (∀ s f v, writable s.dev f 0xF0020 = true →
    exec (.ringCfgWrite f .control v) s = .next (s.upd (fun d => d.modFn f (fun x => { x with
      ctlRing := if 11 ≤ fld v 11 8 then x.ctlRing else { x.ctlRing with cfg := v &&& 0xFFFFFFFFFFFFFF01#64, head := 0, tail := 0 } })))) ∧
  (∀ s f v, writable s.dev f 0xF0000 = true → 11 ≤ fld v 11 8 →
    exec (.ringCfgWrite f .fault v) s = .next (s.upd (fun d => d.modFn f (fun x => x)))) ∧
  (∀ s f v, writable s.dev f 0xF0000 = true → fld v 11 8 < 11 →
    exec (.ringCfgWrite f .fault v) s = .next (s.upd (fun d => refault (d.modFn f (fun x => { x with
      faultRing := { x.faultRing with cfg := v &&& 0xFFFFFFFFFFFFFF01#64, head := 0, tail := 0 } })) f))) ∧
  (∀ s f v, writable s.dev f 0xF0028 = true →
    exec (.ringHeadWrite f .control v) s = .next (s.upd (fun d => d.modFn f (fun x => { x with
      ctlRing := { x.ctlRing with head := v.setWidth 32 } })))) ∧
  (∀ s f v, writable s.dev f 0xF0008 = true →
    exec (.ringHeadWrite f .fault v) s = .next (s.upd (fun d => d.modFn f (fun x => { x with
      faultRing := { x.faultRing with head := v.setWidth 32 } })))) ∧
  (∀ s f c v, c < 1024 → writable s.dev f (0xF4000 + 32 * c) = true → ownsCtx s.dev f c = true →
    exec (.ringCfgWrite f (.context c) v) s = .next (s.upd (fun d => d.modCtx c (fun x => { x with ring := ringCfg x.ring v })))) ∧
  (∀ s f c v, c < 1024 → writable s.dev f (0xF4000 + 32 * c + 8) = true → ownsCtx s.dev f c = true →
    exec (.ringHeadWrite f (.context c) v) s = .next (s.upd (fun d => d.modCtx c (fun x => { x with
      ring := { x.ring with head := v.setWidth 32 } })))) ∧
  (∀ s f, exec (.heldFaultRecordWrite f) s = .next (if s.dev.inService || s.dev.error3 then s.upd (fun d => d.writeHeld f) else s)) ∧
  (∀ (d : Dev) (f : Nat), (d.fn f).faultRing.open_ = false → d.writeHeld f = d) ∧
  (∀ (d : Dev) (f : Nat) (r : FaultRec) (rs : List FaultRec), (d.fn f).held = r :: rs → (d.fn f).faultRing.open_ = true →
    ((d.writeHeld f).fn f).held = rs ∧ ((d.writeHeld f).fn f).faultRing.tail = (d.fn f).faultRing.tail + 1 ∧
    (d.writeHeld f).host.reqs.length = d.host.reqs.length + 1) ∧
  (∀ s f e, s.dev.host.retry.find? (fun x => x.1 == f) = some e →
    exec (.faultRecordRetry f) s = .next (s.upd (fun d =>
      ({ d with host := { d.host with retry := d.host.retry.erase e } }).issueWrite f e.2.1 (wordsToBytes e.2.2) (.faultRec f e.2.2)))) ∧
  (∀ s f, s.dev.host.retry.find? (fun x => x.1 == f) = none → exec (.faultRecordRetry f) s = .next s)

/-- Interrupts (R432, R434): INT_CTL, INT_MASK and INT_PEND are written; a pending, unmasked vector of a function whose messages are enabled is
sent as an MSG at address 0 that holds it in data bits [5:0] (R515) and its pending bit cleared; any other sends nothing. -/
def Obligations.InterruptRegistersAndMessages : Prop :=
  (∀ s f v, writable s.dev f 0xF1000 = true →
    exec (.intCtlWrite f v) s = .next (s.upd (fun d => d.modFn f (fun x => { x with intEn := bitOf v 7 })))) ∧
  (∀ s f v, writable s.dev f 0xF1008 = true →
    exec (.intMaskWrite f v) s = .next (s.upd (fun d => d.modFn f (fun x => { x with intMask := v })))) ∧
  (∀ s f v, writable s.dev f 0xF1010 = true →
    exec (.intPendClear f v) s = .next (s.upd (fun d => d.modFn f (fun x => { x with intPend := x.intPend &&& ~~~v })))) ∧
  (∀ s f v, s.dev.inService = true → (s.dev.fn f).intEn = true → v < 64 → bitOf (s.dev.fn f).intPend v = true →
    bitOf (s.dev.fn f).intMask v = false →
    exec (.interruptSend f v) s = .next (s.upd (fun d =>
      (d.modFn f (fun x => { x with intPend := x.intPend &&& ~~~(placeB true v) })).issue f 2 0 (leBytes 8 (v % 64)) (List.replicate 8 true) .msg))) ∧
  (∀ s f v, ((s.dev.fn f).intEn = false ∨ bitOf (s.dev.fn f).intPend v = false ∨ bitOf (s.dev.fn f).intMask v = true) →
    exec (.interruptSend f v) s = .next s)

/-- REGISTER_WRITE (R241, R436, R464, R471): a write that is not served, or to a read-only or reserved place, changes nothing; a served write of
CAUSE_VEC stores the bytes of causes 0 to 3 without their reserved bit, with EN of cause 0 set (R432, R433). -/
def Obligations.RegisterWritesFollowTheFieldMap : Prop :=
  (∀ s f off v, writable s.dev f off = false → exec (.registerWrite f off v) s = .next s) ∧
  (∀ s f off v o, writable s.dev f off = true → off % 8 = 0 → areaOf off = .ident o → exec (.registerWrite f off v) s = .next s) ∧
  (∀ s f off v, areaOf off = .reserved → exec (.registerWrite f off v) s = .next s) ∧
  (∀ s f v, writable s.dev f 0xF1018 = true →
    exec (.registerWrite f 0xF1018 v) s = .next (s.upd (fun d => d.modFn f (fun x =>
      { x with causeVec := (v &&& 0xBFBFBFBF#64) ||| 0x80#64 })))) ∧
  (∀ s f v, writable s.dev f 0xF1020 = true →
    exec (.registerWrite f 0xF1020 v) s = .next (s.upd (fun d => d.modFn f (fun x => { x with resetDone := x.resetDone && !bitOf v 0 }))))

/-- R453: the reset key. The arming value arms it, the completing value while it is armed resets the device with cause 4, any other value, and
the completing value while it is not armed, disarm it, and so does the time limit. -/
def Obligations.ResetKeySequence : Prop :=
  (∀ s, writable s.dev 0 0x2000 = true →
    exec .resetKeyArm s = .next (s.upd (fun d => { d with boot := { d.boot with keyArmed := true } }))) ∧
  (∀ s, writable s.dev 0 0x2000 = true → s.dev.boot.keyArmed = true → exec .resetKeyFire s = .next (deviceReset s 4 4)) ∧
  (∀ s, writable s.dev 0 0x2000 = true → s.dev.boot.keyArmed = false →
    exec .resetKeyFire s = .next (s.upd (fun d => { d with boot := { d.boot with keyArmed := false } }))) ∧
  (∀ s v, writable s.dev 0 0x2000 = true → v ≠ 0x000000004B335253#64 → v ≠ 0xFFFFFFFFB4CCADAC#64 →
    exec (.resetKeyDisarm v) s = .next (s.upd (fun d => { d with boot := { d.boot with keyArmed := false } }))) ∧
  (∀ s, exec .resetKeyTimeout s = .next (s.upd (fun d => { d with boot := { d.boot with keyArmed := false } })))

/-! ## Partitions, functions, grants, QoS -/

/-- PARTITION_ENTRY_WRITE (R424, R425), FUNCTION_ENTRY_WRITE (R431) and QOS_ENTRY_WRITE (R444): an accepted entry is stored with its defined
fields; a refused one leaves the table and sets PART_REFUSED or VEC_REFUSED; QoS writes wait for the next window. -/
def Obligations.TableEntryWrites : Prop :=
  (∀ s pl i v, pl < s.params.panels → s.params.panels ≤ 4 → i < 16 → writable s.dev 0 (0x4000 + 8 * (16 * pl + i)) = true →
    partRefused s.params s.dev pl i v = false →
    exec (.partitionEntryWrite pl i v) s = .next (s.upd (fun d =>
      { d with parts := Tbl.set (16 * pl + i) (v &&& 0x80FF0000000000FF#64) d.parts }))) ∧
  (∀ s pl i v, pl < s.params.panels → s.params.panels ≤ 4 → i < 16 → writable s.dev 0 (0x4000 + 8 * (16 * pl + i)) = true →
    partRefused s.params s.dev pl i v = true →
    exec (.partitionEntryWrite pl i v) s = .next (s.upd (fun d => { d with partStatus := d.partStatus ||| 1#64 }))) ∧
  (∀ s f v, f < 256 → writable s.dev 0 (0x4800 + 8 * f) = true → vecRefused s.dev f v = false →
    exec (.functionEntryWrite f v) s = .next (s.upd (fun d => d.modFn f (fun x => { x with
      vecBase := fld v 31 21, vecCount := fld v 20 14, intPend := x.intPend &&& BitVec.ofNat 64 (2 ^ fld v 20 14 - 1) })))) ∧
  (∀ s f v, f < 256 → writable s.dev 0 (0x4800 + 8 * f) = true → vecRefused s.dev f v = true →
    exec (.functionEntryWrite f v) s = .next (s.upd (fun d => { d with partStatus := d.partStatus ||| 4#64 }))) ∧
  (∀ s f v, f < 256 → writable s.dev 0 (0x8000 + 16 * f) = true →
    exec (.qosEntryWrite f v) s = .next (s.upd (fun d => d.modFn f (fun x => { x with qos := v &&& 0x80FFFF00FFFF0000#64 })))) ∧
  (∀ s, s.dev.boot.inReset = false →
    exec .qosWindowStart s = .next (s.upd (fun d => { d with
      funcs := Tbl.mapv (fun x => { x with qosNow := x.qos }) d.funcs, ports := Tbl.mapv (fun q => { q with capCount := [] }) d.ports })))

/-- R428: a grant is written. While FREE, W1 and the fields of W0 are stored, and it becomes GRANTED where `mayGrant` lets it; while GRANTED only KEEP
changes; a write of W1 while it is not FREE, and a write of W0 that the table of R428 does not list, is ignored and sets GRANT_REFUSED (for FREE written
with 2 that is the model's choice, log entry 50). What a write of W0 does lies in the state it finds and the value, whichever command it is called. -/
def Obligations.GrantWrites : Prop :=
  (∀ s g v, g < 512 → writable s.dev 0 (0x5008 + 16 * g) = true → (s.dev.grant g).state = 0 →
    exec (.grantW1Write g v) s = .next (s.upd (fun d => d.setGrant g { s.dev.grant g with w1 := v &&& 0x1FFFFFF#64 }))) ∧
  (∀ s g v, g < 512 → writable s.dev 0 (0x5008 + 16 * g) = true → (s.dev.grant g).state ≠ 0 →
    exec (.grantW1Write g v) s = .next (s.upd (fun d => { d with partStatus := d.partStatus ||| 2#64 }))) ∧
  (∀ s g v, g < 512 → writable s.dev 0 (0x5000 + 16 * g) = true → (s.dev.grant g).state = 0 → fld v 63 62 = 0 →
    exec (.grantStore g v) s = .next (s.upd (fun d => d.setGrant g { s.dev.grant g with w0 := grantW0Fields v, wipe := false, purged := false }))) ∧
  (∀ s g v y, g < 512 → writable s.dev 0 (0x5000 + 16 * g) = true → (s.dev.grant g).state = 0 → fld v 63 62 = 1 →
    y = { s.dev.grant g with w0 := grantW0Fields v, wipe := false, purged := false } → mayGrant s.params s.dev g y = true →
    exec (.grantIssue g v) s = .next (s.upd (fun d => d.setGrant g y))) ∧
  (∀ s g v y, g < 512 → writable s.dev 0 (0x5000 + 16 * g) = true → (s.dev.grant g).state = 0 → fld v 63 62 = 1 →
    y = { s.dev.grant g with w0 := grantW0Fields v, wipe := false, purged := false } → mayGrant s.params s.dev g y = false →
    exec (.grantIssue g v) s = .next (s.upd (fun d => { d with partStatus := d.partStatus ||| 2#64 }))) ∧
  (∀ s g v, g < 512 → writable s.dev 0 (0x5000 + 16 * g) = true → (s.dev.grant g).state = 1 → fld v 63 62 = 1 →
    exec (.grantKeepUpdate g v) s = .next (s.upd (fun d =>
      d.setGrant g { s.dev.grant g with w0 := setFld (s.dev.grant g).w0 61 61 (fld v 61 61) }))) ∧
  (∀ s g v x, g < 512 → writable s.dev 0 (0x5000 + 16 * g) = true → x = (s.dev.grant g).state →
    (2 ≤ x ∨ (x = 0 ∧ 2 ≤ fld v 63 62) ∨ (x = 1 ∧ fld v 63 62 = 3)) →
    exec (.grantRevoke g v) s = .next (s.upd (fun d => { d with partStatus := d.partStatus ||| 2#64 }))) ∧
  (∀ s g v, exec (.grantStore g v) s = exec (.grantRevoke g v) s ∧ exec (.grantIssue g v) s = exec (.grantRevoke g v) s ∧
    exec (.grantKeepUpdate g v) s = exec (.grantRevoke g v) s ∧ exec (.grantFenceWipe g v) s = exec (.grantRevoke g v) s)

/-- R429: revoking or wiping a GRANTED grant fences it and removes the cached translations of its owner, and of function 0 (log entry 89), at once. The
purge is done when no request of the owner into the range is left: then a revoked grant is FREE, and one that is to be wiped waits for the wipe; once its
range is zero it is GRANTED or FREE by KEEP. -/
def Obligations.GrantFencePurgeWipe : Prop :=
  (∀ s g v x, g < 512 → writable s.dev 0 (0x5000 + 16 * g) = true → x = s.dev.grant g → x.state = 1 → fld v 63 62 = 0 →
    exec (.grantRevoke g v) s = .next (s.upd (fun d =>
      purgeOwner (purgeOwner (d.setGrant g { x with w0 := setFld x.w0 63 62 2, wipe := false, purged := false }) x.owner) 0))) ∧
  (∀ s g v x, g < 512 → writable s.dev 0 (0x5000 + 16 * g) = true → x = s.dev.grant g → x.state = 1 → fld v 63 62 = 2 →
    exec (.grantFenceWipe g v) s = .next (s.upd (fun d =>
      purgeOwner (purgeOwner (d.setGrant g { x with w0 := setFld x.w0 63 62 2, wipe := true, purged := false }) x.owner) 0))) ∧
  (∀ s g x, x = s.dev.grant g → x.state = 2 → x.purged = false → requestsIn s.params s.dev x.owner x.base x.bytes = false → x.wipe = false →
    exec (.grantPurgeDone g) s = .next (s.upd (fun d => d.setGrant g { x with w0 := setFld x.w0 63 62 0, purged := false }))) ∧
  (∀ s g x, x = s.dev.grant g → x.state = 2 → x.purged = false → requestsIn s.params s.dev x.owner x.base x.bytes = false → x.wipe = true →
    exec (.grantPurgeDone g) s = .next (s.upd (fun d => d.setGrant g { x with purged := true }))) ∧
  (∀ s g x, x = s.dev.grant g → x.state = 2 → x.purged = false → requestsIn s.params s.dev x.owner x.base x.bytes = true →
    exec (.grantPurgeDone g) s = .next s) ∧
  (∀ s g x, x = s.dev.grant g → x.state = 2 → x.wipe = true → x.purged = true →
    exec (.grantWipeDone g) s = .next ((zeroRange s x.base x.bytes).upd (fun d =>
      d.setGrant g { x with w0 := setFld x.w0 63 62 (if x.keep then 1 else 0), wipe := false, purged := false })))

/-- R429: after the wipe of a range every byte of host memory in it reads 0 in a host-coupled instance, and every byte outside keeps its value.
-/
def Obligations.WipeZeroesExactlyTheRange : Prop :=
  ∀ (s : State) (base n a : Nat), hostBacked s.params = true → Memory.wf s.mem.host = true →
    (base ≤ a → a < base + n → Memory.get a (zeroRange s base n).mem.host = 0) ∧
    (¬ (base ≤ a ∧ a < base + n) → Memory.get a (zeroRange s base n).mem.host = Memory.get a s.mem.host) ∧
    (zeroRange s base n).mem.stack = s.mem.stack

/-! ## The host port -/

/-- The memory aperture (R415, R511): a served read answers with the bytes of its targets, a refused one with the error flag and zeros, one that is
not served with zeros, and none changes memory; a served write stores its enabled bytes, a refused one stores nothing. A served access is counted and
cached as any other (`apTouch`). Responses and requests of the bridge (R437, R513, R514, R516, R517): a response ends its request, the late one of an
abandoned request without any other effect, and lets the answered writes be stored whose turn it is; a response to no request changes nothing;
FLR_REQUEST starts a function reset; a snoop of a granule not held is answered clean. -/
def Obligations.ApertureAndBridgeEvents : Prop :=
  (∀ s f a nw ts, apShape s.dev f a (8 * (nw + 1)) = true → a % 8 = 0 → apServed s.dev f = true →
    apTargets s f a (8 * (nw + 1)) .read = some ts →
    exec (.apertureRead f a nw) s = .next ((apTouch s f a (8 * (nw + 1)) .read).upd (fun d => { d with
      host := { d.host with response := some (false, apRead s ts) }, freeCtr := d.freeCtr + 8 * (nw + 1) }))) ∧
  (∀ s t n ts bs, readTarget s t n = some bs → apRead s ((t, n) :: ts) = bs ++ apRead s ts) ∧
  (∀ s f a n k, (apTouch s f a n k).mem = s.mem) ∧
  (∀ s f a nw, apShape s.dev f a (8 * (nw + 1)) = true → a % 8 = 0 → apServed s.dev f = true →
    apTargets s f a (8 * (nw + 1)) .read = none →
    exec (.apertureRead f a nw) s = .next (s.upd (fun d => { d with host := { d.host with
      response := some (true, List.replicate (8 * (nw + 1)) 0) } }))) ∧
  (∀ s f a nw, apShape s.dev f a (8 * (nw + 1)) = true → a % 8 = 0 → apServed s.dev f = false →
    exec (.apertureRead f a nw) s = .next (s.upd (fun d => { d with host := { d.host with
      response := some (false, List.replicate (8 * (nw + 1)) 0) } }))) ∧
  (∀ s f a data be ts, apShape s.dev f a data.length = true → be.length = data.length → apServed s.dev f = true →
    apTargets s f a data.length .write = some ts →
    exec (.apertureWrite f a data be) s =
      .next (apWrite f (apCtx s.dev f a data.length) (apTouch s f a data.length .write) data be ts)) ∧
  (∀ s f a data be, apTargets s f a data.length .write = none → exec (.apertureWrite f a data be) s = .next s) ∧
  (∀ s tag err data r, s.dev.host.reqs.find? (fun x => x.tag == tag && tag != noTag) = some r → r.abandoned = false →
    exec (.hostResponse tag err data) s = .next (advanceResets (landLate
      ((hostAnswer (noteHost s r err) r err data).upd (fun d => pump (d.retireReq tag)))))) ∧
  (∀ s tag err data r, s.dev.host.reqs.find? (fun x => x.tag == tag && tag != noTag) = some r → r.abandoned = true →
    exec (.hostResponse tag err data) s = .next (advanceResets (landLate (s.upd (fun d => pump (d.retireReq tag)))))) ∧
  (∀ s tag err data, s.dev.host.reqs.find? (fun x => x.tag == tag && tag != noTag) = none → exec (.hostResponse tag err data) s = .next s) ∧
  (∀ s r data, (r.use = .unitWrite ∨ r.use = .mcWrite ∨ (∃ a, r.use = .accWrite a)) →
    hostAnswer s r false data = s.upd (fun d => keepLate d r) ∧ hostAnswer s r true data = s) ∧
  (∀ s r data a bs, r.use = .accRead a → bs = (List.range r.be.length).map (byteAt data) →
    hostAnswer s r false data = s.upd (fun d => { d with host := { d.host with accBuf := d.host.accBuf ++ [⟨a, bs, false, r.func⟩] } })) ∧
  (∀ s tag r, tag ≠ noTag → s.dev.host.reqs.find? (fun x => x.tag == tag && !x.abandoned && mayAbandon s.dev x) = some r →
    (∀ a, r.use ≠ .accRead a) →
    exec (.hostRequestAbandon tag) s = .next (advanceResets (s.upd (fun d => { d with
      host := { d.host with reqs := d.host.reqs.map (fun x => if x == r then { x with abandoned := true } else x) }
      resets := d.resets.map (fun x => if (resetFns x).contains r.func then { x with abandoned := true } else x) })))) ∧
  (∀ s tag, (∀ r ∈ s.dev.host.reqs, r.tag = tag → r.abandoned = true ∨ mayAbandon s.dev r = false) →
    exec (.hostRequestAbandon tag) s = .next s) ∧
  (∀ (d : Dev) (r : HostReq), (∀ u, r.use ≠ .mcRead u) → (d.fn r.func).inReset = true → mayAbandon d r = true) ∧
  (∀ s f, s.dev.boot.inReset = false → s.dev.boot.targetReady = true → f < 256 →
    exec (.flrRequest f) s = .next (startReset (s.upd (fun d => { d with host := { d.host with flrAcks := [] } })) f true [f] [])) ∧
  (∀ s f, (s.dev.boot.inReset = true ∨ s.dev.boot.targetReady = false) → exec (.flrRequest f) s = .next s) ∧
  (∀ s g inv, s.params.hostCoupled = true → s.dev.boot.inReset = false → (∀ e ∈ s.dev.host.accBuf, e.addr ≠ gran g) →
    exec (.snoopRequest g inv) s = .next (s.upd (fun d => { d with host := { d.host with snoop := some (false, []) } }))) ∧
  (∀ s g inv e, s.params.hostCoupled = true → s.dev.boot.inReset = false → s.dev.host.accBuf.find? (fun x => x.addr == gran g) = some e →
    e.dirty = true → ∃ t, exec (.snoopRequest g inv) s = .next t ∧ t.mem.host = Memory.write e.addr e.data s.mem.host ∧
      t.dev.host.snoop = some (true, e.data) ∧ t.dev.host.accBuf = s.dev.host.accBuf.filter (fun x => x.addr != e.addr))

/-! ## Reset, clocks and power -/

/-- Reset sources (R448 to R450, R510), each of its own panel: falling k3_pwrok, low k3_rst_n and a nonzero k3_hold_i of another panel reset the
device with their cause; their release leaves it in reset; the 64-cycle hold ends. A pin of a panel that does not exist changes nothing. -/
def Obligations.ResetSources : Prop :=
  (∀ s pl, pl < s.params.panels → pl ∉ s.dev.pins.pwrLow → exec (.pwrokChange false pl) s = .next ((deviceReset s 1 0).upd (fun d =>
    ({ d with pins := { d.pins with pwrLow := d.pins.pwrLow.filter (· != pl) ++ [pl] } }).setTest pl (d.testPort pl).cleared))) ∧
  (∀ s pl, pl < s.params.panels → pl ∈ s.dev.pins.pwrLow → exec (.pwrokChange true pl) s = .next (s.upd (fun d =>
    { d with
      pins := { d.pins with pwrLow := d.pins.pwrLow.filter (· != pl) }
      aon := { d.aon with monitor := Tbl.set pl 6 d.aon.monitor, goodWindows := Tbl.del pl d.aon.goodWindows } }))) ∧
  (∀ s pl, pl < s.params.panels → exec (.rstNChange false pl) s = .next ((deviceReset s 2 0).upd (fun d =>
    { d with pins := { d.pins with rstLow := d.pins.rstLow.filter (· != pl) ++ [pl] } }))) ∧
  (∀ s pl, pl < s.params.panels → exec (.rstNChange true pl) s = .next (s.upd (fun d =>
    { d with pins := { d.pins with rstLow := d.pins.rstLow.filter (· != pl) } }))) ∧
  (∀ s pl lv, s.params.panels ≤ pl → exec (.pwrokChange lv pl) s = .next s ∧ exec (.rstNChange lv pl) s = .next s) ∧
  (∀ s pl c, 0 < pl → pl < s.params.panels → 0 < c → c < 8 →
    exec (.holdInChange pl c) s = .next ((deviceReset s c 0).upd (fun d =>
      { d with pins := { d.pins with holdIn := Tbl.set pl c d.pins.holdIn } }))) ∧
  (∀ s pl, 0 < pl → pl < s.params.panels →
    exec (.holdInChange pl 0) s = .next (s.upd (fun d => { d with pins := { d.pins with holdIn := Tbl.del pl d.pins.holdIn } }))) ∧
  (∀ s, exec .resetHoldExpire s = .next (s.upd (fun d => { d with boot := { d.boot with hold := 0 } })))

/-- R450 and R451: a reset event out of reset counts, records its cause and phase, and puts every function, queue, context, object, core, port
and link at its reset value; the always-on cache, the pins and the free-value counter stay. In reset nothing happens but that a source of a lower
code takes the cause over while the period of the event lasts; that the period ends with the first cycle the block counts in reset is the model's
choice (log entry 84). -/
def Obligations.ResetEventClearsTheDevice : Prop :=
  (∀ s c h, s.dev.boot.inReset = true → (s.dev.aon.fresh = false ∨ s.dev.aon.cause ≤ c) → deviceReset s c h = s) ∧
  (∀ s c h, s.dev.boot.inReset = true → s.dev.aon.fresh = true → c < s.dev.aon.cause →
    deviceReset s c h = s.upd (fun d => { d with aon := { d.aon with cause := c } })) ∧
  (∀ s c h d, s.dev.boot.inReset = false → d = (deviceReset s c h).dev →
    d.boot.inReset = true ∧ d.boot.ready = false ∧ d.boot.hold = h ∧ d.boot.targetReady = false ∧
    d.aon.cause = c ∧ d.aon.fresh = true ∧ d.aon.resetCount = BitVec.ofNat 32 (min (s.dev.aon.resetCount.toNat + 1) 0xFFFFFFFF) ∧
    d.aon.phase = (if s.dev.boot.ready then 15 else s.dev.boot.phase) ∧ d.aon.linkCache = s.dev.aon.linkCache ∧
    d.funcs = [] ∧ d.ctls = [] ∧ d.queues = [] ∧ d.ctxs = [] ∧ d.gangs = [] ∧ d.objs = Objects.empty ∧ d.cores = [] ∧ d.links = [] ∧
    d.grants = [] ∧ d.parts = partsReset s.params ∧ d.time = 0 ∧ d.pins = s.dev.pins ∧
    (deviceReset s c h).mem.stack = s.mem.stack ∧ (deviceReset s c h).params = s.params)

/-- RESET_RELEASE (R449), TARGET_CHANNEL_READY (R454), BACKUP_SUPPLY_FAILURE (R538) and FATAL_RESET_TIMER (R504, R505; the numbers of shared units
are the model's, log entry 68): release needs every source of every panel to have ceased and starts bring-up at phase 0 with the device time at 0.
R455: the root-clock monitor of a panel. A window out of range, or four periods without an edge, resets the device with cause 6 or 5 and holds it;
two consecutive windows in range end the hold. -/
def Obligations.ReleaseClockMonitorAndAlwaysOn : Prop :=
  (∀ s, s.dev.boot.inReset = true →
    (∀ pl, pl < s.params.panels → pl ∉ s.dev.pins.pwrLow ∧ pl ∉ s.dev.pins.rstLow ∧ Tbl.get 0 pl s.dev.aon.monitor = 0) →
    (∀ e ∈ s.dev.pins.holdIn, e.2 = 0) → s.dev.boot.hold = 0 →
    exec .resetRelease s = .next (s.upd (fun d => { d with boot := Boot.release, time := 0, aon := { d.aon with fresh := false } }))) ∧
  (∀ s pl, pl < s.params.panels →
    (pl ∈ s.dev.pins.pwrLow ∨ pl ∈ s.dev.pins.rstLow ∨ s.dev.boot.hold ≠ 0 ∨ Tbl.get 0 pl s.dev.aon.monitor ≠ 0 ∨ ∃ e ∈ s.dev.pins.holdIn, e.2 ≠ 0) →
    exec .resetRelease s = .next s) ∧
  (∀ s, s.dev.boot.inReset = false →
    exec .targetChannelReady s = .next (s.upd (fun d => { d with boot := { d.boot with targetReady := true } }))) ∧
  (∀ s, ∃ t, exec .backupSupplyFailure s = .next t ∧ t.dev.aon.cause = 0 ∧ t.dev.aon.resetCount = 0 ∧ t.dev.aon.linkCache = [] ∧
    t.dev.aon.lastLc = 0 ∧ t.dev.boot = s.dev.boot ∧ t.mem = s.mem) ∧
  (∀ s, s.dev.mc.fatal = true → exec (.fatalResetTimer none) s = .next (deviceReset s 3 3)) ∧
  (∀ s, s.dev.mc.fatal = false → exec (.fatalResetTimer none) s = .next s) ∧
  (∀ s u, s.dev.boot.inReset = false → u ∈ sharedUnits → ∃ t, exec (.fatalResetTimer (some u)) s = .next t ∧ t.dev.mc.fatal = true ∧
    t = s.upd (fun d => Dev.health { d with mc := { d.mc with fatal := true } }
      { status := .done, kind := 11, w4 := 2, w5 := BitVec.ofNat 64 u })) ∧
  (∀ s pl n, pl < s.params.panels → clockInRange n = false → exec (.rootclkWindow n pl) s = .next ((deviceReset s 6 0).upd (fun d =>
    { d with aon := { d.aon with
      monitor := if Tbl.get 0 pl d.aon.monitor = 0 then Tbl.set pl 6 d.aon.monitor else d.aon.monitor
      goodWindows := Tbl.del pl d.aon.goodWindows } }))) ∧
  (∀ s pl n, clockInRange n = true → pl ∉ s.dev.pins.pwrLow → Tbl.get 0 pl s.dev.aon.monitor ≠ 0 → Tbl.get 0 pl s.dev.aon.goodWindows = 0 →
    exec (.rootclkWindow n pl) s = .next (s.upd (fun d => { d with aon := { d.aon with goodWindows := Tbl.set pl 1 d.aon.goodWindows } }))) ∧
  (∀ s pl n, clockInRange n = true → pl ∉ s.dev.pins.pwrLow → Tbl.get 0 pl s.dev.aon.monitor ≠ 0 → Tbl.get 0 pl s.dev.aon.goodWindows ≠ 0 →
    exec (.rootclkWindow n pl) s = .next (s.upd (fun d => { d with aon := { d.aon with
      monitor := Tbl.del pl d.aon.monitor, goodWindows := Tbl.del pl d.aon.goodWindows } }))) ∧
  (∀ s pl n, clockInRange n = true → Tbl.get 0 pl s.dev.aon.monitor = 0 → exec (.rootclkWindow n pl) s = .next s) ∧
  (∀ s pl, pl < s.params.panels → exec (.rootclkMissing pl) s = .next ((deviceReset s 5 0).upd (fun d =>
    { d with aon := { d.aon with
      monitor := if Tbl.get 0 pl d.aon.monitor = 0 then Tbl.set pl 5 d.aon.monitor else d.aon.monitor
      goodWindows := Tbl.del pl d.aon.goodWindows } })))

/-- Power and the hour (R484, R539 to R541): the alert halves the edges at once; a window steps the share by one within 8 to 32 against the cap
and below 95 % of it; a sample of 0xFFFF counts as the cap; the health window's counts restart. -/
def Obligations.PowerAndHealthWindows : Prop :=
  (∀ s pl, ∃ t, exec (.pwrAlertAssert pl) s = .next t ∧ pl ∈ t.dev.pins.alertLow ∧ shareNow t.dev = min 16 s.dev.mc.share ∧ t.mem = s.mem) ∧
  (∀ s pl, exec (.pwrAlertDeassert pl) s = .next (s.upd (fun d => { d with pins := { d.pins with
    alertLow := d.pins.alertLow.filter (· != pl) } }))) ∧
  (∀ s w, s.dev.inService = true → w < 0xFFFF → exec (.pkgpwrSample w) s = .next (s.upd (fun d => { d with mc := { d.mc with
    pwrSum := d.mc.pwrSum + w, pwrCount := d.mc.pwrCount + 1 } }))) ∧
  (∀ s, s.dev.inService = true → exec (.pkgpwrSample 0xFFFF) s = .next (s.upd (fun d => { d with mc := { d.mc with
    pwrSum := d.mc.pwrSum + d.opts.powerCap, pwrCount := d.mc.pwrCount + 1 } }))) ∧
  (∀ s, s.dev.inService = true → 0 < s.dev.mc.pwrCount → ∃ t, exec .powerWindow s = .next t ∧
    (s.dev.opts.powerCap * s.dev.mc.pwrCount < s.dev.mc.pwrSum → t.dev.mc.share = max 8 (s.dev.mc.share - 1)) ∧
    (100 * s.dev.mc.pwrSum < 95 * s.dev.opts.powerCap * s.dev.mc.pwrCount → t.dev.mc.share = min 32 (s.dev.mc.share + 1)) ∧
    (t.dev.mc.alert = true ↔ ∃ pl, pl ∈ s.dev.pins.alertLow) ∧ t.dev.mc.pwrSum = 0 ∧ t.dev.mc.pwrCount = 0 ∧ t.mem = s.mem) ∧
  (∀ s, s.dev.inService = true → ∃ t, exec .healthWindowEnd s = .next t ∧ t.dev.mc.windowStart = s.dev.time ∧ t.dev.mc.sent = [] ∧
    (∀ k, (t.dev.site k).ceWin = 0) ∧ (∀ k, (t.dev.site k).ceTotal = (s.dev.site k).ceTotal) ∧ (∀ k, (t.dev.port k).ceWin = 0) ∧ t.mem = s.mem)

/-! ## Stack ports and the accumulate units -/

/-- Responses of a stack port (R406, R505, R521): a read response without error gives its data to the reader, or fills the accumulate unit's buffer for
which it was made, a corrected one being counted; one with status 2 or more fails it and counts as uncorrectable; a write acknowledged with status 2
poisons its granule, counts as uncorrectable and fails its command; a response to no request changes nothing. (log entry 9: `noteStatus` keeps the
status for the accesses that dispatch makes whole.) -/
def Obligations.StackPortResponses : Prop :=
  (∀ s pl pt sub tag st r, (s.dev.port (portKey pl pt)).outR.find? (fun x => x.sub == sub && x.tag == tag) = some r → r.part = 0 →
    r.two = false → st % 4 < 2 → r.data ≠ [] → r.src ≠ .unit →
    exec (.stackReadResponse pl pt sub tag st) s = .next (advanceResets ((noteStatus s (portKey pl pt) r.addr (st % 4)).upd (fun d =>
      reqDone s.params ((if st % 4 = 1 then countPort d (portKey pl pt) r.addr else d).modPort (portKey pl pt) (fun q =>
        { q with outR := q.outR.filter (fun x => !(x.sub == sub && x.tag == tag)) })) r (some r.data))))) ∧
  (∀ s pl pt sub tag st r, (s.dev.port (portKey pl pt)).outR.find? (fun x => x.sub == sub && x.tag == tag) = some r → r.part = 0 →
    r.two = false → 2 ≤ st % 4 → r.src ≠ .unit →
    exec (.stackReadResponse pl pt sub tag st) s = .next (advanceResets ((noteStatus s (portKey pl pt) r.addr (st % 4)).upd (fun d =>
      reqDone s.params ((countUe s.params d (portKey pl pt) r.addr).modPort (portKey pl pt) (fun q =>
        { q with outR := q.outR.filter (fun x => !(x.sub == sub && x.tag == tag)) })) r none)))) ∧
  (∀ s pl pt sub tag st r s1, (s.dev.port (portKey pl pt)).outR.find? (fun x => x.sub == sub && x.tag == tag) = some r → r.part = 0 →
    r.two = false → st % 4 = 0 → r.data ≠ [] → r.src = .unit →
    s1 = (noteStatus s (portKey pl pt) r.addr 0).upd (fun d => d.modPort (portKey pl pt) (fun q =>
      { q with outR := q.outR.filter (fun x => !(x.sub == sub && x.tag == tag)) })) →
    exec (.stackReadResponse pl pt sub tag st) s = .next (advanceResets (s1.upd (fun d => d.modPort (portKey pl pt) (fun q =>
      { q with buf := q.buf ++ [⟨r.addr, stackGran s1 (portKey pl pt) r.addr⟩] }))))) ∧
  (∀ s pl pt sub tag st, (s.dev.port (portKey pl pt)).outR.find? (fun x => x.sub == sub && x.tag == tag) = none →
    exec (.stackReadResponse pl pt sub tag st) s = .next s) ∧
  (∀ s pl pt sub tag st r, (s.dev.port (portKey pl pt)).outW.find? (fun x => x.sub == sub && x.tag == tag) = some r → st ≠ 2 →
    exec (.stackWriteAck pl pt sub tag st) s = .next (advanceResets (s.withDev (reqDone s.params (s.dev.modPort (portKey pl pt) (fun q =>
      { q with outW := q.outW.filter (fun x => !(x.sub == sub && x.tag == tag)) })) r (some []))))) ∧
  (∀ s pl pt sub tag r s1, (s.dev.port (portKey pl pt)).outW.find? (fun x => x.sub == sub && x.tag == tag) = some r →
    s1 = { s with mem := { s.mem with
      poison := Tbl.set (placeOf (portKey pl pt) (served s.params s.dev (portKey pl pt) r.addr) / 64) () s.mem.poison } } →
    exec (.stackWriteAck pl pt sub tag 2) s = .next (advanceResets (s1.withDev (reqDone s.params (countUe s.params
      (s.dev.modPort (portKey pl pt) (fun q => { q with outW := q.outW.filter (fun x => !(x.sub == sub && x.tag == tag)) }))
      (portKey pl pt) r.addr) r none)))) ∧
  (∀ s pl pt sub tag st, (s.dev.port (portKey pl pt)).outW.find? (fun x => x.sub == sub && x.tag == tag) = none →
    exec (.stackWriteAck pl pt sub tag st) s = .next s)

/-- STACK_PORT_GRANT (R29, R445): the port grants the function that its credits and pointer choose, and of it the oldest request of the core
whose turn it is; a function in reset requests nothing (R447); a port without its controller ready grants nothing, and one that lost it answers what it
grants as uncorrectable. STACK_READY_RISE and STACK_READY_FALL (R523, R524): a port that comes up
during bring-up samples its capacity; one that leaves in service drops its buffer and answers everything outstanding as uncorrectable. -/
def Obligations.StackPortGrantsAndReadyChanges : Prop :=
  (∀ s pl pt, (s.dev.port (portKey pl pt)).ready = false → (s.dev.port (portKey pl pt)).lost = false →
    exec (.stackPortGrant pl pt) s = .next s) ∧
  (∀ s pl pt q f q1 r, q = s.dev.port (portKey pl pt) → q.ready = true → q.lost = false →
    pickFn s.dev q (fun f => !capped s.dev q f && !(s.dev.fn f).inReset && q.waiting.any (fun r => r.func == f)) (grantSize q) = some (f, q1) →
    pickReq q f = some r →
    exec (.stackPortGrant pl pt) s = .next ((acceptReq (s.upd (fun d => d.setPort (portKey pl pt) { q1 with
      waiting := q1.waiting.filter (fun x => x.id != r.id), lastCore := Tbl.set f r.core q1.lastCore })) (portKey pl pt) r).getD s)) ∧
  (∀ s pl pt q f q1 r, q = s.dev.port (portKey pl pt) → q.lost = true →
    pickFn s.dev q (fun f => !capped s.dev q f && !(s.dev.fn f).inReset && q.waiting.any (fun r => r.func == f)) (grantSize q) = some (f, q1) →
    pickReq q f = some r →
    exec (.stackPortGrant pl pt) s = .next (advanceResets (s.withDev (reqDone s.params (countUe s.params (s.dev.setPort (portKey pl pt) { q1 with
      waiting := q1.waiting.filter (fun x => x.id != r.id), lastCore := Tbl.set f r.core q1.lastCore }) (portKey pl pt) r.addr) r none)))) ∧
  (∀ s pl pt, (∀ r ∈ (s.dev.port (portKey pl pt)).waiting, (s.dev.fn r.func).inReset = true ∨ 256 ≤ r.func) →
    exec (.stackPortGrant pl pt) s = .next s) ∧
  (∀ (d : Dev) (q : StackPort) (req : Nat → Bool) (n : Nat → Nat) (f : Nat) (q1 : StackPort), pickFn d q req n = some (f, q1) →
    req f = true ∧ f < 256 ∧ q1.last = f ∧ ((∃ g, g < 256 ∧ req g = true ∧ 0 < portWeight d g) → 0 < portWeight d f)) ∧
  (∀ s pl pt cap ret, inPhase s.dev 3 = true → pl < livePanels s.params s.dev → pt < s.params.stackPorts →
    (s.dev.port (portKey pl pt)).ready = false → ∃ t, exec (.stackReadyRise pl pt cap ret) s = .next t ∧
    t.dev.port (portKey pl pt) = { s.dev.port (portKey pl pt) with
      ready := true, trained := true, fullLast := !ret, retained := ret, cap := 64 * (cap % 2 ^ 34) } ∧
    (t.dev.boot.phase = 3 ∨ t.dev.boot.phase = 4) ∧ t.mem = s.mem) ∧
  (∀ s pl pt cap ret, inPhase s.dev 3 = false → exec (.stackReadyRise pl pt cap ret) s = .next s) ∧
  (∀ s pl pt, ((s.dev.port (portKey pl pt)).ready = false ∨ s.dev.inService = false) → exec (.stackReadyFall pl pt) s = .next s) ∧
  (∀ s pl pt q, q = s.dev.port (portKey pl pt) → q.ready = true → s.dev.inService = true → q.outR = [] → q.outW = [] → q.accq = [] →
    exec (.stackReadyFall pl pt) s = .next (advanceResets (s.upd (fun d => d.setPort (portKey pl pt)
      { q with ready := false, lost := true, outR := [], outW := [], accq := [], buf := [] }))))

/-- R407 and R81: the accumulate unit's read-modify-write. Masked elements of the granule are replaced by their FP32 sum with the operand (an
accumulate), by +0 (a zeroing read), or the whole granule by zeros (a clear); elements outside the mask keep their bits. -/
def Obligations.AccumulateChangesMaskedElements : Prop :=
  ∀ (old data : List Byte) (mask i : Nat), old.length = 64 → i < 16 →
    elemAt (accGran old data mask) i = (if mask.testBit i then fadd (elemAt old i) (elemAt data i) else elemAt old i) ∧
    elemAt (zeroGran old mask) i = (if mask.testBit i then 0 else elemAt old i) ∧
    (accGran old data mask).length = 64 ∧ (zeroGran old mask).length = 64

/-- ACCUMULATE_OP and ACC_WRITEBACK (R407, R409, R520): the unit carries out the first operation of its queue on granules it holds and acknowledges it;
a granule it does not hold is read from the stack first, or taken as zeros by a clear; with nothing queued nothing happens; a buffered granule that no
request waits for goes back on the wire whole. The host port's unit (R412), which the model names port 15 of panel 0 (log entry 37), acts on granules it
holds and reads one it does not hold for ownership. -/
def Obligations.AccumulateUnitOperations : Prop :=
  (∀ s pl pt r rest g s0, ¬ (pl = 0 ∧ pt = hostUnit) → (s.dev.port (portKey pl pt)).accq = r :: rest → r.two = false →
    (s.dev.port (portKey pl pt)).buf.find? (fun x => x.addr == r.addr) = some g →
    s0 = s.upd (fun d => d.modPort (portKey pl pt) (fun q => { q with accq := rest })) →
    (r.op = .accum → exec (.accumulateOp pl pt) s = .next (advanceResets (s0.upd (fun d =>
      reqDone s.params (bufferPut d (portKey pl pt) r.addr (accGran g.data r.data (r.mask % 65536))) r (some (g.data ++ [])))))) ∧
    (r.op = .zeroRead → exec (.accumulateOp pl pt) s = .next (advanceResets (s0.upd (fun d =>
      reqDone s.params (bufferPut d (portKey pl pt) r.addr (zeroGran g.data (r.mask % 65536))) r (some (g.data ++ [])))))) ∧
    (r.op = .clear → exec (.accumulateOp pl pt) s = .next (advanceResets
      ({ s0 with mem := s0.mem.clean (granKey s0 (portKey pl pt) r.addr) }.upd (fun d =>
        reqDone s.params (bufferPut d (portKey pl pt) r.addr (List.replicate 64 0)) r (some (g.data ++ []))))))) ∧
  (∀ s pl pt r rest a as, ¬ (pl = 0 ∧ pt = hostUnit) → (s.dev.port (portKey pl pt)).accq = r :: rest →
    unbuffered (s.dev.port (portKey pl pt)) r = a :: as → unitHolds (s.dev.port (portKey pl pt)) < 64 →
    ((r.op = .accum ∨ r.op = .zeroRead) → (∀ x ∈ (s.dev.port (portKey pl pt)).outR, x.src = .unit → x.addr ≠ a) →
      exec (.accumulateOp pl pt) s = .next ((wireRead s (portKey pl pt) (unitReq .read a 0 [])).getD s)) ∧
    (r.op = .clear → exec (.accumulateOp pl pt) s = .next (s.upd (fun d => bufferPut d (portKey pl pt) a (List.replicate 64 0))))) ∧
  (∀ s pl pt, ¬ (pl = 0 ∧ pt = hostUnit) → (s.dev.port (portKey pl pt)).accq = [] → exec (.accumulateOp pl pt) s = .next s) ∧
  (∀ s pl pt a g k s1 t, ¬ (pl = 0 ∧ pt = hostUnit) → k = portKey pl pt → (s.dev.port k).buf.find? (fun x => x.addr == gran a) = some g →
    (∀ r ∈ (s.dev.port k).accq, overlaps r.addr (64 * reqGrans r) g.addr 64 = false) →
    s1 = s.upd (fun d => d.modPort k (fun q => { q with buf := q.buf.filter (fun x => x.addr != g.addr) })) →
    freeTag (s1.dev.port k).outW (subOf (served s.params s1.dev k g.addr)) = some t →
    exec (.accWriteback pl pt a) s = .next ((putGran s1 k g.addr g.data fullMask).upd (fun d => d.modPort k (fun q => { q with
      outW := q.outW ++ [{ unitReq .write g.addr fullMask [] with sub := subOf (served s.params s1.dev k g.addr), tag := t }] })))) ∧
  (∀ s r rest d1 x, s.dev.host.accq = r :: rest → (r.op = .accum ∨ r.op = .zeroRead ∨ r.op = .clear) → missing s.dev r = [] → r.two = false →
    hostOp { s.dev with host := { s.dev.host with accq := rest } } r.op r.func r.addr (r.mask % 65536) r.data = (d1, x) →
    exec (.accumulateOp 0 hostUnit) s = .next (advanceResets (s.withDev (reqDone s.params d1 r (some (x ++ [])))))) ∧
  (∀ s r rest a as, s.dev.host.accq = r :: rest → (r.op = .accum ∨ r.op = .zeroRead ∨ r.op = .clear) → missing s.dev r = a :: as →
    (∀ x ∈ s.dev.host.reqs, x.use = .accRead a → x.abandoned = true) → s.dev.host.accBuf.length < 16 →
    exec (.accumulateOp 0 hostUnit) s = .next (s.upd (fun d => d.issueFor r.func r.ctx 4 a [] (List.replicate 64 true) (.accRead a)))) ∧
  (∀ (d : Dev) (op : PortOp) (f a mask : Nat) (data : List Byte) (g : HeldGran), a % 64 = 0 → d.host.accBuf.find? (fun x => x.addr == a) = some g →
    (hostOp d op f a mask data).2 = g.data) ∧
  (∀ s, s.dev.host.accq = [] → exec (.accumulateOp 0 hostUnit) s = .next s) ∧
  (∀ s a g, s.dev.host.accBuf.find? (fun x => x.addr == gran a) = some g →
    (∀ r ∈ s.dev.host.accq, overlaps r.addr (64 * reqGrans r) g.addr 64 = false) →
    exec (.accWriteback 0 hostUnit a) s = .next (wrOwn s g))

/-- REMAP_GRANULE_COPY and PAGE_WALK_COMPLETE (R403, R404, R417): the first unit being copied moves one granule with its poison and its pointer
advances, its RETIRE completing with the last granule; a walk whose last read is here leaves the walker: a leaf is cached in its panel and its core,
an absent page halts the core that asked (R230), a malformed or forbidden entry fails its command (R400). A walk whose reads are not all here, and one
that is not there, changes nothing. (log entry 87: the copy is made in one act.) -/
def Obligations.RemapCopiesAndWalks : Prop :=
  (∀ s pl pt r a b, (s.dev.port (portKey pl pt)).remaps.find? (·.copying) = some r → remapEnds s.params s.dev (portKey pl pt) r = (a, b) →
    r.ptr + 64 < unitBytes r.coarse →
    exec (.remapGranuleCopy pl pt) s = .next { s with
      mem := moveGran s.mem (placeOf (portKey pl pt) a) (placeOf (portKey pl pt) b), dev := s.dev.modPort (portKey pl pt) (advanceRemap r) }) ∧
  (∀ s pl pt r a b, (s.dev.port (portKey pl pt)).remaps.find? (·.copying) = some r → remapEnds s.params s.dev (portKey pl pt) r = (a, b) →
    unitBytes r.coarse ≤ r.ptr + 64 →
    exec (.remapGranuleCopy pl pt) s = .next (completePkt { s with
      mem := moveGran s.mem (placeOf (portKey pl pt) a) (placeOf (portKey pl pt) b), dev := s.dev.modPort (portKey pl pt) (advanceRemap r) }
      (.ctl 0) r.uid)) ∧
  (∀ s pl pt, (∀ r ∈ (s.dev.port (portKey pl pt)).remaps, r.copying = false) → exec (.remapGranuleCopy pl pt) s = .next s) ∧
  (∀ s pl i w n pte, (s.dev.panel pl).walks[i]? = some w → w.res = some (.leaf n pte) →
    exec (.pageWalkComplete pl i) s = .next (s.withDev (cacheWalk
      (s.dev.setPanel pl { s.dev.panel pl with walks := (s.dev.panel pl).walks.eraseIdx i }) pl w.site
      (some ⟨w.ctx, w.root, n, w.va / 2 ^ n * 2 ^ n, pte⟩) w.ptrs))) ∧
  (∀ s pl i w m n, (s.dev.panel pl).walks[i]? = some w → w.res = some (.absent n) → (s.dev.core w.site).cmd w.uid = some m →
    (s.dev.core w.site).halted = false → m.fail = none →
    exec (.pageWalkComplete pl i) s = .next (s.withDev (xlateHalt (cacheWalk
      (s.dev.setPanel pl { s.dev.panel pl with walks := (s.dev.panel pl).walks.eraseIdx i }) pl w.site none w.ptrs) w.site m
      ⟨m.uid, w.region, w.va, w.access, w.gen, haltWhat w.region, match m.region w.region with | some r => r.credited.map (·.1) | none => []⟩
      (BitVec.ofNat 64 n)))) ∧
  (∀ s pl i w m w4, (s.dev.panel pl).walks[i]? = some w → w.res = some (.bad w4) → (s.dev.core w.site).cmd w.uid = some m →
    exec (.pageWalkComplete pl i) s = .next (s.withDev (permFail (cacheWalk
      (s.dev.setPanel pl { s.dev.panel pl with walks := (s.dev.panel pl).walks.eraseIdx i }) pl w.site none w.ptrs) w.site m w.va w.access w.gen w4))) ∧
  (∀ s pl i w, (s.dev.panel pl).walks[i]? = some w → w.res = none → exec (.pageWalkComplete pl i) s = .next s) ∧
  (∀ s pl i, (s.dev.panel pl).walks[i]? = none → exec (.pageWalkComplete pl i) s = .next s)

/-! ## The front of a core -/

/-- ADMISSION, COMMAND_BLOCK_READ, BUNDLE_COPY and SWATCH_COPY (R111, R195, R210, R282, R401): a core in service admits its next command; the granules
of a command block, a bundle or a swatch are asked for, and once all are here the block is read, the bundle copied and checked, the swatch store
filled; while some are missing nothing is taken; a vacant index, or a block out of service, does nothing. -/
def Obligations.CoreFrontCommands : Prop :=
  (∀ s i k, s.dev.siteOf i = some k → s.dev.inService = true →
    exec (.admission i) s = .next (s.upd (fun d => d.modCore k (fun c => admitNext s.params (planeWaits c) (planeVerdict c) c)))) ∧
  (∀ s i k m, s.dev.siteOf i = some k → s.dev.inService = true →
    firstCmd (s.dev.core k) (fun m => m.isWork && !m.admitted && m.block.isNone) = some m →
    (FrontHere (s.dev.core k) m.uid 18 (blockBytes m) →
      exec (.commandBlockRead i) s = .next ((frontTaken s k m.uid 18).upd (fun d => d.modCore k (fun c =>
        { c.modCmd m.uid (fun x => { x with block := some (bytesToWords (blockBytes x / 8) (frontBytes (s.dev.core k) m.uid 18 (blockBytes m))) }) with
          moved := true })))) ∧
    (frontLeft (s.dev.core k) m.uid 18 (blockBytes m) ≠ [] → (s.dev.core k).halted = false →
      exec (.commandBlockRead i) s = .next (s.upd (frontIssue s.params k ((siteIndex s.dev k).getD 0) m 18 m.work.cblock .desc
        (frontLeft (s.dev.core k) m.uid 18 (blockBytes m))))) ∧
    (frontLeft (s.dev.core k) m.uid 18 (blockBytes m) = [] → (∃ r ∈ frontReqs (s.dev.core k) m.uid 18, r.state ≠ 1) →
      exec (.commandBlockRead i) s = .next s)) ∧
  (∀ s i k m n ds s1 d1 d2, s.dev.siteOf i = some k → s.dev.inService = true →
    firstCmd (s.dev.core k) (fun m => m.isWork && m.admitted && !m.copied) = some m → n = 64 * m.work.ndesc →
    FrontHere (s.dev.core k) m.uid 19 n → s1 = frontTaken s k m.uid 19 →
    ds = (List.range (splitDescs m.work.ndesc (frontBytes (s.dev.core k) m.uid 19 n)).length).map (fun j =>
      override m.work j ((splitDescs m.work.ndesc (frontBytes (s.dev.core k) m.uid 19 n)).getD j [])) →
    d1 = s1.dev.modCore k (fun c => { c.modCmd m.uid (fun m => { m with descs := ds, copied := true }) with moved := true }) →
    d2 = (countUsage d1 m.ctx (fun u => { u with rdBytes := u.rdBytes + BitVec.ofNat 64 n })).modPkt m.q m.uid (fun x =>
      { x with
        copied := x.copied ++ [((siteIndex s.dev k).getD 0, ((ds.map Desc.ofWords).map (·.gen)).headD 0)]
        mixed := x.mixed || ((ds.map Desc.ofWords).map (·.gen)).any (· != ((ds.map Desc.ofWords).map (·.gen)).headD 0) }) →
    exec (.bundleCopy i) s = .next (s.withDev
      (if bundleOk s.params d2 ((siteIndex s.dev k).getD 0) m (ds.map Desc.ofWords) then d2 else failAt d2 k m.uid .badParam 0))) ∧
  (∀ s i k m, s.dev.siteOf i = some k → s.dev.inService = true →
    firstCmd (s.dev.core k) (fun m => m.isWork && m.admitted && !m.copied) = some m →
    frontLeft (s.dev.core k) m.uid 19 (64 * m.work.ndesc) ≠ [] → (s.dev.core k).halted = false →
    exec (.bundleCopy i) s = .next (s.upd (frontIssue s.params k ((siteIndex s.dev k).getD 0) m 19 m.work.bundle .desc
      (frontLeft (s.dev.core k) m.uid 19 (64 * m.work.ndesc))))) ∧
  (∀ s i n k m, s.dev.siteOf i = some k → s.dev.inService = true → swatchCmd s.params (s.dev.core k) n = some m →
    (FrontHere (s.dev.core k) m.uid (20 + n) 256 →
      exec (.swatchCopy i n) s = .next ((frontTaken s k m.uid (20 + n)).upd (fun d => d.modCore k (fun c =>
        { c.modCmd m.uid (fun m => { m with swDone := m.swDone ++ [n] }) with
          stores := updAt (fun _ => frontBytes (s.dev.core k) m.uid (20 + n) 256) n c.stores, moved := true })))) ∧
    (frontLeft (s.dev.core k) m.uid (20 + n) 256 ≠ [] → (s.dev.core k).halted = false →
      exec (.swatchCopy i n) s = .next (s.upd (frontIssue s.params k ((siteIndex s.dev k).getD 0) m (20 + n) (swatchVa m.work n) .read
        (frontLeft (s.dev.core k) m.uid (20 + n) 256))))) ∧
  (∀ s i, (s.dev.siteOf i = none ∨ s.dev.inService = false) → exec (.admission i) s = .next s ∧ exec (.commandBlockRead i) s = .next s ∧
    exec (.bundleCopy i) s = .next s ∧ (∀ n, exec (.swatchCopy i n) s = .next s) ∧ exec (.bobbinTake i) s = .next s)

/-- R320 and R321: a take of up to c values from NEXT and REMAIN gives the next min(c, REMAIN) values in order and moves both by that count; with
REMAIN 0 it is EMPTY. BOBBIN_TAKE gives its command the range and leaves the bobbin with what remains; the pointer of the bobbin unit moves to the
core served (R29). -/
def Obligations.BobbinTakesInOrder : Prop :=
  (∀ (n r : BitVec 32) (c : Nat), r = 0 → takeFrom n r c = none) ∧
  (∀ (n r : BitVec 32) (c : Nat) (vs : List Nat) (n' r' : BitVec 32), takeFrom n r c = some (vs, n', r') →
    vs.length = min c r.toNat ∧ (∀ j, j < vs.length → vs[j]? = some ((n.toNat + j) % 2 ^ 32)) ∧
    n'.toNat = (n.toNat + min c r.toNat) % 2 ^ 32 ∧ r'.toNat = r.toNat - min c r.toNat) ∧
  (∀ s i k m nx rm vs nx' rm' d, s.dev.siteOf i = some k → s.dev.inService = true → firstCmd (s.dev.core k) (fun m => m.takePending) = some m →
    (s.dev.entry ⟨3, m.work.bobbin % 2 ^ 20⟩).payload = .bobbin nx rm →
    takeFrom nx rm (2 ^ (Tiling.ofWord m.work.tiling).take) = some (vs, nx', rm') →
    d = s.dev.won (m.work.bobbin % 2 ^ 20 / 1024) arbBobbin ((siteIndex s.dev k).getD 0) →
    exec (.bobbinTake i) s = .next (s.withDev
      ((d.modEntry ⟨3, m.work.bobbin % 2 ^ 20⟩ (fun e => { e with payload := .bobbin nx' rm' })).modCore k (fun c =>
        (c.modCmd m.uid (fun y => { y with
          items := y.items ++ vs, takePending := !vs.any (fun v => decide (v < itemCount s.params.opuDim m.work)) })).sweep s.params)))) ∧
  (∀ s i k m nx rm d, s.dev.siteOf i = some k → s.dev.inService = true → firstCmd (s.dev.core k) (fun m => m.takePending) = some m →
    (s.dev.entry ⟨3, m.work.bobbin % 2 ^ 20⟩).payload = .bobbin nx rm → rm = 0 →
    d = s.dev.won (m.work.bobbin % 2 ^ 20 / 1024) arbBobbin ((siteIndex s.dev k).getD 0) →
    exec (.bobbinTake i) s = .next (s.withDev (d.modCore k (fun c =>
      (c.modCmd m.uid (fun m => { m with takePending := false, empty := true })).sweep s.params)))) ∧
  (∀ (d : Dev) (pl code i : Nat), d.won pl code i = { d with panels := (d.won pl code i).panels } ∧
    Tbl.get 0 code ((d.won pl code i).panel pl).lasts = i ∧ ∀ q, q ≠ pl → (d.won pl code i).panel q = d.panel q)

/-! ## The vector fabric -/

/-- KERNEL_RUN_START, FABRIC_TICK, KERNEL_RUN_END and FAB_LOAD_COMPLETE (R171, R183 to R187, R191): a kernel run that is due begins, and its plane becomes
the active one; with no run the fabric neither ticks nor ends; a tick that every port can serve moves the fabric one tick on and counts V_TICKS of its
context, and an uncorrectable error of its reads removes the core; a run whose ticks are over ends; a FAB_LOAD whose whole image is here makes the plane
valid for its function when the image passes its checks and fails with BAD_PARAM otherwise; one for the active plane is PLANE_BUSY. -/
def Obligations.FabricCommands : Prop :=
  (∀ s i k m, s.dev.siteOf i = some k → s.dev.inService = true → nextKernel s.params (s.dev.core k) = some m →
    exec (.kernelRunStart i) s = .next (s.upd (fun d => d.modCore k (fun c =>
      beginRun c m m.work.plane (imgRows (BitVec.ofNat 64 (leNat (((c.fab.planes.getD m.work.plane Plane.zero).image).take 8)))))))) ∧
  (∀ (c : Core) (m : Cmd) (n rows : Nat), (beginRun c m n rows).fab.run = some m.uid ∧ (beginRun c m n rows).fab.plane = n ∧
    (beginRun c m n rows).fab.tick = 0 ∧ (beginRun c m n rows).fab.frozen = false ∧
    (beginRun c m n rows).fab.cells = List.replicate (16 * rows) CellSt.zero ∧
    (c.fab.activeArr ≤ m.arr → (beginRun c m n rows).fab.active = some n)) ∧
  (∀ s i k, s.dev.siteOf i = some k → nextKernel s.params (s.dev.core k) = none → exec (.kernelRunStart i) s = .next (s.upd (fun d =>
    if d.inService then d.modCore k id else d))) ∧
  (∀ s i k rets m c1 ctr, s.dev.siteOf i = some k → s.dev.inService = true → (s.dev.core k).fab.run.bind (s.dev.core k).cmd = some m →
    (s.dev.core k).fab.frozen = false → (s.dev.core k).fab.tick < runTicks (s.dev.core k) m →
    fabTick s.params (if s.dev.opts.extEn then s.params.extPorts else 0) rets (s.dev.core k) m s.dev.freeCtr = some (c1, ctr) →
    exec (.fabricTick i rets .ok) s = .next (s.upd (fun d => countUsage ({ d with freeCtr := ctr }.setCore k c1) m.ctx (fun u =>
      { u with vTicks := u.vTicks + 1 }))) ∧
    exec (.fabricTick i rets .double) s = .next (removeCore s k)) ∧
  (∀ s i k rets ecc m, s.dev.siteOf i = some k → s.dev.inService = true → (s.dev.core k).fab.run.bind (s.dev.core k).cmd = some m →
    fabTick s.params (if s.dev.opts.extEn then s.params.extPorts else 0) rets (s.dev.core k) m s.dev.freeCtr = none →
    exec (.fabricTick i rets ecc) s = .next s) ∧
  (∀ s i k rets ecc, s.dev.siteOf i = some k → (s.dev.core k).fab.run = none →
    exec (.fabricTick i rets ecc) s = .next s ∧ exec (.kernelRunEnd i) s = .next s) ∧
  (∀ s i k m, s.dev.siteOf i = some k → s.dev.inService = true → (s.dev.core k).fab.run.bind (s.dev.core k).cmd = some m →
    (s.dev.core k).fab.tick < runTicks (s.dev.core k) m → exec (.kernelRunEnd i) s = .next s) ∧
  (∀ s i k m us c1 ctr c2, s.dev.siteOf i = some k → s.dev.inService = true → (s.dev.core k).fab.run.bind (s.dev.core k).cmd = some m →
    (s.dev.core k).fab.frozen = false → runTicks (s.dev.core k) m ≤ (s.dev.core k).fab.tick →
    us = portUses (Img.ofBytes ((s.dev.core k).fab.planes.getD (s.dev.core k).fab.plane Plane.zero).image) m →
    us.foldl (fun (acc : Core × Nat) u => if u.out then flushGather s.params acc.1 m u acc.2 else acc) (s.dev.core k, s.dev.freeCtr) = (c1, ctr) →
    closeOutputs s.params us m c1 = some c2 →
    exec (.kernelRunEnd i) s = .next (s.upd (fun d => { d with freeCtr := ctr }.setCore k
      (Core.sweep s.params { c2.modCmd m.uid (fun m => { m with kdone := m.kdone + 1 }) with fab := { c2.fab with run := none } })))) ∧
  (∀ s i k m n q, s.dev.siteOf i = some k → s.dev.inService = true → nextLoad s.params (s.dev.core k) = some m → n = fld (wordAt m.body 1) 0 0 →
    q = (s.dev.core k).fab.planes.getD n Plane.zero → q.loading ≠ some m.uid → planeBefore (s.dev.core k) m = some n →
    exec (.fabLoadComplete i) s = .next (s.upd (fun d => d.modCore k (fun c =>
      Core.failCmd ((c.setPlane n { q with failed := true }).modCmd m.uid (fun m => { m with vDone := true })) m.uid .planeBusy 0)))) ∧
  (∀ s i k m n bs, s.dev.siteOf i = some k → s.dev.inService = true → nextLoad s.params (s.dev.core k) = some m → n = fld (wordAt m.body 1) 0 0 →
    ((s.dev.core k).fab.planes.getD n Plane.zero).loading = some m.uid → FrontHere (s.dev.core k) m.uid 24 (imageBytes (s.dev.core k) m.uid) →
    bs = frontBytes (s.dev.core k) m.uid 24 (imageBytes (s.dev.core k) m.uid) →
    (imageOk s.params s.dev bs = true → exec (.fabLoadComplete i) s = .next ((frontTaken s k m.uid 24).upd (fun d => d.modCore k (fun c =>
      (c.setPlane n ⟨true, m.func, none, bs, false⟩).modCmd m.uid (fun m => { m with vDone := true }))))) ∧
    (imageOk s.params s.dev bs = false → exec (.fabLoadComplete i) s = .next ((frontTaken s k m.uid 24).upd (fun d => d.modCore k (fun c =>
      Core.failCmd ((c.setPlane n { Plane.zero with failed := true }).modCmd m.uid (fun m => { m with vDone := true })) m.uid .badParam 0)))))

/-! ## Streams, watchdog and completion in a core -/

/-- The stream engine (R214, R219, R220, R230, R295): the next granule of a FILL or ACC_CLEAR, with its 64-bit value or +0 in every element, is translated
and sent; the next step of a COPY or STATS is taken, that of a COPY being one granule translated and asked for; the next granule of a run's segment is asked for; the bytes of a read of a COPY are
kept for its write, those of a run are placed in its region, those of a failed command dropped; a member's FREE segment credits its issuer. Halted streams
send nothing, and a channel with no command does nothing. -/
def Obligations.StreamCommands : Prop :=
  (∀ s i k run two ecc, s.dev.siteOf i = some k → ((s.dev.core k).halt.isSome = true ∨ (s.dev.core k).fab.loadHalt.isSome = true) →
    exec (.granuleIssue i run two) s = .next s ∧ exec (.writeUnitSend i run ecc) s = .next s) ∧
  (∀ s i k run two m, s.dev.siteOf i = some k → s.dev.inService = true → (s.dev.core k).halted = false → run < 16 →
    channelCmd s.params (s.dev.core k) run true = some m → m.copied = true → (s.dev.core k).mayStart s.params m.uid 0 = true →
    exec (.granuleIssue i run two) s = .next (issueRegion s k ((siteIndex s.dev k).getD 0) m run two)) ∧
  (∀ s k own m n h va t d, chanOf s.params s.dev m n = some h → h.x.mc = 0 → inside (s.dev.core k) h = true → (s.dev.core k).cmd m.uid = some m →
    (grans (h.pieces h.x (h.rg.segIdx - 1)))[h.rg.pos]? = some va → h.rg.pos + 1 < (grans (h.pieces h.x (h.rg.segIdx - 1))).length →
    h.x.kind = 0 → coreXlate s.dev k m va .read = (.ok t, d) →
    issueRegion s k own m n false = s.withDev (((d.modCore k (fun c => { c with
        reqs := c.reqs ++ [memberReq c m n h h h.x va false], nextReq := c.nextReq + 1, moved := true })).send s.params m.func m.ctx own t .read false
          (elemMask va ((h.pieces h.x (h.rg.segIdx - 1)).filter (fun q => gran q.va == va))) [] (.core k (d.core k).nextReq)).modCore k (fun c =>
      c.modCmd m.uid (fun m => m.modRegion n (fun r => { r with pos := r.pos + 1 }))))) ∧
  (∀ s i k run two m, s.dev.siteOf i = some k → s.dev.inService = true → (s.dev.core k).halted = false → 16 ≤ run →
    streamCmd (s.dev.core k) (fun m => m.isOp rowCopy || m.isOp rowStats) = some m → (s.dev.core k).mayStart s.params m.uid 0 = true →
    exec (.granuleIssue i run two) s = .next (streamIssue s k ((siteIndex s.dev k).getD 0) m)) ∧
  (∀ s k own m va t d, m.isOp rowStats = false → va = gran (wordAt m.body 0).toNat + 64 * granAt m m.cursor → coreXlate s.dev k m va .read = (.ok t, d) →
    streamIssue s k own m = s.withDev (((d.modCore k (fun c => { c with
        reqs := c.reqs ++ [⟨c.nextReq, m.uid, 16, granAt m m.cursor, 0, va, false, false, 0, [], [], [], []⟩], nextReq := c.nextReq + 1, moved := true })).send
          s.params m.func m.ctx own t .read false 0 [] (.core k (d.core k).nextReq)).modCore k (fun c =>
      c.modCmd m.uid (fun m => { m with cursor := m.cursor + 1 })))) ∧
  (∀ s i k run ecc m, s.dev.siteOf i = some k → s.dev.inService = true → (s.dev.core k).halted = false → run < 16 →
    channelCmd s.params (s.dev.core k) run false = some m → m.copied = true → (s.dev.core k).mayStart s.params m.uid 0 = true →
    exec (.writeUnitSend i run ecc) s = .next (unitSend s k ((siteIndex s.dev k).getD 0) m run ecc)) ∧
  (∀ s i k run ecc m own va t d, s.dev.siteOf i = some k → s.dev.inService = true → (s.dev.core k).halted = false → 16 ≤ run →
    (s.dev.core k).reqs = [] → streamCmd (s.dev.core k) (fun m => m.isOp rowFill || m.isOp rowAccClear) = some m →
    (s.dev.core k).mayStart s.params m.uid 0 = true → own = (siteIndex s.dev k).getD 0 → va = (wordAt m.body 0).toNat + 64 * granAt m m.cursor →
    (m.isOp rowAccClear = false → coreXlate s.dev k m va .write = (.ok t, d) → exec (.writeUnitSend i run ecc) s = .next (s.withDev
      ((sendUnit s.params d k own m .write 0 [(⟨va, fullMask, wordsToBytes (List.replicate 8 (wordAt m.body 2))⟩, t)]).modCore k (fun c =>
        c.modCmd m.uid (fun m => { m with cursor := m.cursor + 1 }))))) ∧
    (m.isOp rowAccClear = true → coreXlate s.dev k m va .zeroRead = (.ok t, d) → exec (.writeUnitSend i run ecc) s = .next (s.withDev
      ((sendUnit s.params d k own m .clear 0 [(⟨va, 65535, List.replicate 64 0⟩, t)]).modCore k (fun c =>
        c.modCmd m.uid (fun m => { m with cursor := m.cursor + 1 })))))) ∧
  (∀ s i k req r m, s.dev.siteOf i = some k → s.dev.inService = true →
    (s.dev.core k).reqs.find? (fun r => r.id == req && mayArrive (s.dev.core k) r) = some r → (s.dev.core k).cmd r.uid = some m →
    (m.fail.isSome = true → exec (.readDataArrival i req) s = .next (s.upd (fun d => d.modCore k (fun c =>
      { c with reqs := c.reqs.filter (fun x => x.id != r.id), moved := true })))) ∧
    (m.fail = none → r.state = 1 → r.region = 16 → m.isOp rowStats = false →
      exec (.readDataArrival i req) s = .next (s.upd (fun d => d.modCore k (fun c =>
        { c with reqs := c.reqs.map (fun x => if x.id == r.id then { x with state := 3 } else x), moved := true })))) ∧
    (∀ rg x, m.fail = none → r.state = 1 → r.region ≠ 16 → m.region r.region = some rg → r.pads = [] → x = m.desc ((m.descsOf r.region).headD 0) →
      exec (.readDataArrival i req) s = .next (s.upd (fun d => d.modCore k (fun c => Core.sweep s.params (settleSeg
        (r.place.foldl (fun c q => c.put s.params rg.shape x q.1 ((r.data.drop q.2.1).take q.2.2))
          { c with reqs := c.reqs.filter (fun x => x.id != r.id), moved := true }) m.uid r.region rg.key r.seg)))))) ∧
  (∀ s i k run iss ki m h mi, s.dev.siteOf i = some k → s.dev.inService = true → channelCmd s.params (s.dev.core k) run true = some m →
    s.dev.siteOf iss = some ki → (s.dev.core ki).clearing = false → chanOf s.params s.dev m run = some h → (s.dev.core ki).cmd m.uid = some mi →
    h.x.mc ≠ 0 → iss ≠ (siteIndex s.dev k).getD 0 → issuerOf h.x = iss → (mcMembers h.x).contains ((siteIndex s.dev k).getD 0) = true →
    (s.dev.core k).halted = false → m.copied = true → mi.copied = true → mi.fail = none → (s.dev.core k).mayStart s.params m.uid 0 = true →
    inside (s.dev.core k) h = false → (s.dev.core k).producerTurn s.params m.uid h.rg.key = true → ((s.dev.core k).ring h.rg.key).canBegin = true →
    exec (.mcastFreeReport i run iss) s = .next (s.upd (fun d => (d.modCore k (fun c => beginNext s.params c m run h)).modCore ki (fun c =>
      c.modCmd m.uid (fun y => y.modRegion (mi.desc h.di).region (fun r =>
        { r with credited := Tbl.set ((siteIndex s.dev k).getD 0) (Tbl.get 0 ((siteIndex s.dev k).getD 0) r.credited + 1) r.credited })))))) ∧
  (∀ s i k run iss, s.dev.siteOf i = some k → channelCmd s.params (s.dev.core k) run true = none → exec (.mcastFreeReport i run iss) s = .next s)

/-- The stall watchdog (R237 to R239): it fires only while a run waits on another core and no awaited core is halted, and fails the first waiting
command with STALL_WATCHDOG and a KIND 3 record; an abort reaches a core only through a command that waits on the aborting core. -/
def Obligations.WatchdogFailsTheWaitingCommand : Prop :=
  (∀ s i k, s.dev.siteOf i = some k → watchdogRuns s.params s.dev k ((siteIndex s.dev k).getD 0) = false →
    exec (.stallWatchdog i) s = .next s) ∧
  (∀ s i k own m ws rest, s.dev.siteOf i = some k → s.dev.inService = true → own = (siteIndex s.dev k).getD 0 →
    watchdogRuns s.params s.dev k own = true → waitingCmds s.params s.dev k own = (m, ws) :: rest →
    exec (.stallWatchdog i) s = .next (s.upd (fun d => stallFail (d.modCore k (fun c => { c with wdCount := 2 ^ 20 })) k own m ws))) ∧
  (∀ s i k src own, s.dev.siteOf i = some k → own = (siteIndex s.dev k).getD 0 →
    (∀ e ∈ waitingCmds s.params s.dev k own, ∀ w ∈ e.2, w.1 ≠ src) → exec (.watchdogAbort i src) s = .next s) ∧
  (∀ s i k src own m ws rest j, s.dev.siteOf i = some k → s.dev.inService = true → own = (siteIndex s.dev k).getD 0 →
    waitingCmds s.params s.dev k own = (m, ws) :: rest → (∃ w ∈ ws, w.1 = src) → s.dev.siteOf src = some j → (s.dev.core j).cmd m.uid = none →
    exec (.watchdogAbort i src) s = .next (s.upd (fun d => stallFail d k own m ws)))

/-- CORE_COMPLETION and MULTICAST (R133, R255, R257, R317): a command whose parts are done, at the head of its queues, without writes outstanding
and with no statistics to write leaves its core and reports; while a write of it is outstanding nothing is reported. A packet that awaits its gang is
multicast once every present member has room, while its queue is RUNNING (R256). -/
def Obligations.MulticastAndCoreCompletion : Prop :=
  (∀ s i k uid m, s.dev.siteOf i = some k → s.dev.inService = true → (s.dev.core k).cmd uid = some m →
    allParts s.params (s.dev.core k) uid = true → (s.dev.core k).atHead uid = true → m.acks = 0 →
    (m.fail.isSome = true ∨ m.statsWritten = true ∨ statsWrites ((siteIndex s.dev k).getD 0) m = []) →
    exec (.coreCompletion i uid) s = .next (leaveCore s k ((siteIndex s.dev k).getD 0) m)) ∧
  (∀ s i k uid m, s.dev.siteOf i = some k → (s.dev.core k).cmd uid = some m → m.acks ≠ 0 → exec (.coreCompletion i uid) s = .next s) ∧
  (∀ s q p, (s.dev.queue q).flight.find? (fun p => p.stage == .multicast) = some p → mayGoOn s.dev q = false →
    exec (.multicast q none) s = .next s) ∧
  (∀ s q p, (s.dev.queue q).flight.find? (fun p => p.stage == .multicast) = some p → mayGoOn s.dev q = true →
    (∀ i ∈ mcastMembers s.dev p, ∀ k, s.dev.siteOf i = some k → queueRoom (s.dev.core k) = true) →
    exec (.multicast q none) s = .next (multicastPkt s p)) ∧
  (∀ s q par, (∀ p ∈ (s.dev.queue q).flight, p.stage ≠ .multicast) → exec (.multicast q par) s = .next s)

/-- The outer-product unit (R99, R112, R121, R127, R191): SIDE_PORT_READ fetches the next item due, ACC_LOAD loads the accumulator of the next tile,
BEAT_ISSUE issues the next beat of the tile being filled and counts M_BEATS, DRAIN_ROW_READ drains the next row; where an operand, an item or a
slot is missing nothing changes, a tile that cannot begin fails its command with BAD_PARAM, and an uncorrectable error removes the core (R98,
R236). -/
def Obligations.OpuCommands : Prop :=
  (∀ s i k m tile it t n rg a seg, s.dev.siteOf i = some k → s.dev.inService = true → nextTile s.params (s.dev.core k) = some (m, tile) →
    m.work.accInit = accLoad → (s.dev.core k).mayStart s.params m.uid 1 = true → (∀ x ∈ (s.dev.core k).opu.accs, x.st ≠ .loading) →
    (tileItems s.params m)[tile]? = some (it, t) → unitRegion m 6 = some (n, rg) → freeAcc (s.dev.core k).opu = some a → servSeg m n rg it = some seg →
    segsFull (s.dev.core k) rg.key ((loadSegs s.params m n rg.shape it t).map (seg + ·)) = true →
    exec (.accLoad i .ok) s = .next (s.upd (fun d => d.setCore k (Core.sweep s.params { s.dev.core k with
      opu := assign (s.dev.core k).opu a .loading (loadVals s.params (s.dev.core k) m n rg.shape seg it t) m tile t }))) ∧
    exec (.accLoad i .double) s = .next (removeCore s k)) ∧
  (∀ s i k ecc, s.dev.siteOf i = some k → accLoadStep s.params (s.dev.core k) = none → exec (.accLoad i ecc) s = .next s) ∧
  (∀ s i k side u m j, s.dev.siteOf i = some k → s.dev.inService = true → (side = .a ∧ u = 4 ∨ side = .b ∧ u = 5 ∨ side = .drain ∧ u = 8) →
    (if u = 8 then drainJobs s.params (s.dev.core k) else feedJobs s.params (s.dev.core k) u).find? (fun e =>
      !(s.dev.core k).opu.holds e.1.uid e.2) = some (m, j) → jobReady s.params (s.dev.core k) m j = true →
    exec (.sidePortRead i side .ok) s = .next (s.upd (fun d => d.modCore k (fun c => Core.sweep s.params
      { c with opu := c.opu.setSide u (Tbl.set (sideKey m.uid j.tile j.code) (sideBytes s.params c m j) (c.opu.sideOf u)) }))) ∧
    exec (.sidePortRead i side .double) s = .next (removeCore s k)) ∧
  (∀ s i k ecc, s.dev.siteOf i = some k → (s.dev.core k).opu.fill = none → beginTile s.params (s.dev.core k) = .wait →
    exec (.beatIssue i ecc) s = .next s) ∧
  (∀ s i k ecc uid, s.dev.siteOf i = some k → s.dev.inService = true → (s.dev.core k).opu.fill = none →
    beginTile s.params (s.dev.core k) = .fails uid → exec (.beatIssue i ecc) s = .next (s.upd (fun d => failAt d k uid .badParam 0))) ∧
  (∀ s i k f c1 m, s.dev.siteOf i = some k → s.dev.inService = true → (s.dev.core k).opu.fill = some f →
    doBeat s.params (s.dev.core k) f = some c1 → (s.dev.core k).cmd f.uid = some m →
    exec (.beatIssue i .ok) s = .next (s.upd (fun d => countUsage (d.setCore k c1) m.ctx (fun u =>
      if (c1.cmd f.uid).any (fun m => m.fail.isSome) then u else { u with mBeats := u.mBeats + 1 })))) ∧
  (∀ s i k o f c c1 m, s.dev.siteOf i = some k → s.dev.inService = true → (s.dev.core k).opu.fill = none →
    beginTile s.params (s.dev.core k) = .fill o f → c = { s.dev.core k with opu := { o with fill := some f } } →
    doBeat s.params c f = some c1 → c.cmd f.uid = some m →
    exec (.beatIssue i .ok) s = .next (s.upd (fun d => countUsage (d.setCore k c1) m.ctx (fun u =>
      if (c1.cmd f.uid).any (fun m => m.fail.isSome) then u else { u with mBeats := u.mBeats + 1 })))) ∧
  (∀ s i k f ecc, s.dev.siteOf i = some k → (s.dev.core k).opu.fill = some f → doBeat s.params (s.dev.core k) f = none →
    exec (.beatIssue i ecc) s = .next s) ∧
  (∀ s i k f c1, s.dev.siteOf i = some k → s.dev.inService = true → (s.dev.core k).opu.fill = some f →
    doBeat s.params (s.dev.core k) f = some c1 → exec (.beatIssue i .double) s = .next (removeCore s k)) ∧
  (∀ s i k x c1 ctr, s.dev.siteOf i = some k → s.dev.inService = true → beginDrain (s.dev.core k) = some x →
    drainStep s.params (s.dev.core k) s.dev.freeCtr x = some (c1, ctr) →
    exec (.drainRowRead i .ok) s = .next (s.upd (fun d => { d with freeCtr := ctr }.setCore k c1)) ∧
    exec (.drainRowRead i .double) s = .next (removeCore s k)) ∧
  (∀ s i k ecc, s.dev.siteOf i = some k → beginDrain (s.dev.core k) = none → exec (.drainRowRead i ecc) s = .next s)

/-! ## Seams and partition clears -/

/-- SEAM_START, SEAM_RELEASE and PARTITION_EPISODE_COMPLETE (R329, R331, R334): a SEAM at the head of its core starts and counts toward its
episode; the gang's episode releases every participant only when all have started; a partition's episode ends only when every participating queue
has arrived, after its staged changes. -/
def Obligations.SeamEpisodes : Prop :=
  (∀ s i k m own d1, s.dev.siteOf i = some k → s.dev.inService = true →
    firstCmd (s.dev.core k) (fun m => m.isOp rowSeam && !m.started && (s.dev.core k).atHead m.uid) = some m → own = (siteIndex s.dev k).getD 0 →
    d1 = s.dev.modCore k (fun c => { c.modCmd m.uid (fun m => { m with started := true, released := m.seamPart }) with moved := true }) →
    exec (.seamStart i) s = .next (s.withDev (if m.seamPart then d1 else
      setSeam d1 m.seamSlot (seamOf d1 m.seamSlot).2.1 ((seamOf d1 m.seamSlot).2.2.map (fun e => { e with started := e.started ++ [own] }))))) ∧
  (∀ s slot h sc e, seamOf s.dev slot = (h, sc, some e) → s.dev.inService = true → e.partScope = false → e.cores ≠ [] →
    (∀ c ∈ e.cores, c ∈ e.started) →
    exec (.seamRelease slot) s = .next (s.upd (fun d =>
      setSeam { d with cores := Tbl.mapv (releaseSeam e.pkts) d.cores } slot sc none))) ∧
  (∀ s slot h sc e c, seamOf s.dev slot = (h, sc, some e) → c ∈ e.cores → c ∉ e.started → exec (.seamRelease slot) s = .next s) ∧
  (∀ s slot e, (seamOf s.dev slot).2.2 = some e → s.dev.inService = true → e.partScope = true → (∀ n ∈ e.queues, arrivedQueue s.dev e n = true) →
    exec (.partitionEpisodeComplete slot) s = .next (endEpisode (applyCovered s e.covered) slot e)) ∧
  (∀ s slot e n, (seamOf s.dev slot).2.2 = some e → n ∈ e.queues → arrivedQueue s.dev e n = false →
    exec (.partitionEpisodeComplete slot) s = .next s)

/-- PARTITION_CLEAR_DONE (R440) and FITTING_EDGE (R553, R557): a clear ends only once no request of its cores is outstanding, each core
returning to its state after reset and the packet completing; a fitting whose record is written completes DONE, one whose write faults PERM_FAULT; nothing happens
where none is armed. -/
def Obligations.ClearsAndFittings : Prop :=
  (∀ s pl pt c, s.dev.mc.clears.find? (fun c => c.1 == 16 * pl + pt) = some c → s.dev.mc.clears = [c] →
    (∀ st, st < s.params.sites → (s.dev.core (siteKey pl st)).clearing = true → siteRequests s.dev (siteKey pl st) = false) →
    exec (.partitionClearDone pl pt) s = .next (completePkt
      (((((List.range s.params.sites).map (siteKey pl)).filter (fun k => (s.dev.core k).clearing)).foldl endClear s).upd (fun d =>
        { d with mc := { d.mc with clears := d.mc.clears.filter (fun x => x != c) } })) (.ctl 0) c.2)) ∧
  (∀ s pl pt, (∀ c ∈ s.dev.mc.clears, c.1 ≠ 16 * pl + pt) → exec (.partitionClearDone pl pt) s = .next s) ∧
  (∀ s k, (endClear s k).dev.core k = { Core.zero with nextReq := (s.dev.core k).nextReq }) ∧
  (∀ s pl pt c st, s.dev.mc.clears = [c] → c.1 = 16 * pl + pt → st < s.params.sites → (s.dev.core (siteKey pl st)).clearing = true →
    siteRequests s.dev (siteKey pl st) = true → exec (.partitionClearDone pl pt) s = .next s) ∧
  (∀ s i k, s.dev.siteOf i = some k → (s.dev.core k).fitting = none → exec (.fittingEdge i) s = .next s) ∧
  (∀ s i k f bs s1, s.dev.siteOf i = some k → s.dev.inService = true → (s.dev.core k).fitting = some f → bs = fitRecord s k f →
    fitWrite k f (s.upd (fun d => { d.modCore k (fun c => { c with fitting := none }) with freeCtr := d.freeCtr + 632 })) bs
      (pieces f.va bs.length (bs.length / 64 + 2)) = (s1, none) →
    exec (.fittingEdge i) s = .next (reportCore s1 f.q f.uid ((siteIndex s.dev k).getD 0) .done 0)) ∧
  (∀ s i k f bs s1 x, s.dev.siteOf i = some k → s.dev.inService = true → (s.dev.core k).fitting = some f → bs = fitRecord s k f →
    fitWrite k f (s.upd (fun d => { d.modCore k (fun c => { c with fitting := none }) with freeCtr := d.freeCtr + 632 })) bs
      (pieces f.va bs.length (bs.length / 64 + 2)) = (s1, some x) →
    exec (.fittingEdge i) s = .next (reportCore (s1.upd (fun d => d.fault f.func { x.info with
      ctx := f.ctx, queue := qnum f.q, core := (siteIndex s.dev k).getD 0, seq := f.seq.toNat, subidx := f.subidx, tag := f.tag, access := 2 }))
      f.q f.uid ((siteIndex s.dev k).getD 0) .permFault 0))

/-! ## Panel links -/

/-- FLIT_RECEIVE, LANE_REPAIR and LANE_REPAIR_DONE (R502, R527, R530, R532): a flit for a link out of service, in reset, or on a module not in use
changes nothing; a good DATA flit that is next in its module's order is taken; one that fails its checks is counted as a mismatch
and not delivered, and loses the link when the failures exceed 16; a worn lane's
replacement begins; it is done only once every flit is settled. -/
def Obligations.LinkFlitsAndRepairs : Prop :=
  (∀ s l up m b, ((s.dev.link l).formed = false ∨ (s.dev.link l).lost = true ∨ s.dev.boot.inReset = true ∨ m ∉ ((s.dev.link l).dir up).inUse) →
    exec (.flitReceive l up m b) s = .next s) ∧
  (∀ s l up m b ws d1 d2, (s.dev.link l).formed = true → (s.dev.link l).lost = false → s.dev.boot.inReset = false → m ∈ ((s.dev.link l).dir up).inUse →
    ws = ((s.dev.link l).dir up).flitWords m b → flitGood ws = false → d1 = modDir s.dev l up (fun y => countLanes y m (parityErrs ws)) →
    d2 = modDir d1 l up (fun y => mismatch y m true) →
    exec (.flitReceive l up m b) s = .next (s.withDev (if 16 < Tbl.get 0 m ((d2.link l).dir up).fails then loseLink d2 l else d2))) ∧
  (∀ s l up m b ws d1, (s.dev.link l).formed = true → (s.dev.link l).lost = false → s.dev.boot.inReset = false → m ∈ ((s.dev.link l).dir up).inUse →
    ws = ((s.dev.link l).dir up).flitWords m b → flitGood ws = true → d1 = modDir s.dev l up (fun y => countLanes y m (parityErrs ws)) →
    fType ws = 1 → fMseq ws = Tbl.get 0 m ((s.dev.link l).dir up).rxMseq →
    exec (.flitReceive l up m b) s = .next (s.withDev (takeData s.params d1 l up m ws)) ∧
    Tbl.get 0 m (((takeData s.params d1 l up m ws).link l).dir up).rxMseq = (fMseq ws + 1) % 1024) ∧
  (∀ s l up m j, (s.dev.link l).formed = true → (s.dev.link l).lost = false → s.dev.boot.inReset = false → ((s.dev.link l).dir up).repairing = none →
    m ∈ ((s.dev.link l).dir up).inUse → wornLane ((s.dev.link l).dir up) m = some j → (((s.dev.link l).dir up).bad m).length < 4 →
    exec (.laneRepair l up m false) s = .next (s.upd (fun d => modDir d l up (fun x => { x with repairing := some ⟨m, some j, none⟩ })))) ∧
  (∀ s l up, ((s.dev.link l).dir up).repairing = none → exec (.laneRepairDone l up) s = .next s) ∧
  (∀ s l up r, ((s.dev.link l).dir up).repairing = some r → ((s.dev.link l).dir up).settled = false → exec (.laneRepairDone l up) s = .next s) ∧
  (∀ s l up m j, ((s.dev.link l).dir up).repairing = some ⟨m, some j, none⟩ → ((s.dev.link l).dir up).settled = true →
    exec (.laneRepairDone l up) s = .next (s.upd (fun d =>
      cacheLink (linkRecord (modDir d l up (fun x => applyRepair x ⟨m, some j, none⟩)) 0 (idLane l up m j)) l)))

/-! ## Bring-up and firmware -/

/-- Phases 0 to 5 of bring-up (R458, R461 to R468, R472, R498, R548): in its phase, each event has its effect, and none has any in reset or once READY.
The options read, or the safe configuration when the option port never became ready, are taken in phase 0, which ends at phase 1 or 2; logic BIST ends
phase 1, SRAM BIST that finds no failed shared array phase 2, the wipe phase 4 with no byte of a live panel's stacks left, trained links phase 5; a
training timeout stops with ERROR 1, links that do not form with ERROR 2. -/
def Obligations.BringUpPhases : Prop :=
  (∀ s a b, inPhase s.dev 0 = true →
    exec (.optionLoad a b) s = .next (s.upd (fun d => takeOptions s.params d (choose s.params d.aon.lastLc (optBytes a) (optBytes b))))) ∧
  (∀ s, inPhase s.dev 0 = true → ∃ t, exec .optRdyTimeout s = .next t ∧ t.dev.opts = optSafe s.dev.aon.lastLc ∧ t.dev.aon.source = 3 ∧
    t.dev.boot.noStore = true ∧ (t.dev.boot.phase = 1 ∨ t.dev.boot.phase = 2) ∧ t.mem = s.mem) ∧
  (∀ s, inPhase s.dev 1 = true → exec .logicBist s = .next (s.upd (fun d => { d with boot := { d.boot with phase := 2 } }))) ∧
  (∀ s fails, inPhase s.dev 2 = true → ∃ t, exec (.sramBist fails []) s = .next t ∧ t.dev.boot.phase = phaseAfter s.params s.dev 2 ∧
    t.dev.boot.stuck = false ∧ t.mem = s.mem) ∧
  (∀ s, inPhase s.dev 3 = true → exec .stackTrainingTimeout s = .next (s.upd (fun d => { d with boot := { d.boot with error := 1 } }))) ∧
  (∀ s, inPhase s.dev 4 = true → ∃ t, exec .stackWipe s = .next t ∧ t.dev.boot.phase = phaseAfter s.params s.dev 4 ∧
    (∀ c ∈ t.mem.stack, livePanels s.params s.dev ≤ c.1 / 2 ^ 40 / 16) ∧ t.mem.host = s.mem.host) ∧
  (∀ s rs d ok, inPhase s.dev 5 = true → (List.range s.params.links).foldl (trainLink rs) (rs.foldl setPhy s.dev, true) = (d, ok) →
    exec (.linkTraining rs) s = .next (s.withDev
      (if ok then { d with boot := { d.boot with phase := 6 } } else { d with boot := { d.boot with error := 2 } }))) ∧
  (∀ s, (s.dev.boot.ready = true ∨ s.dev.boot.inReset = true) → ∀ a b fails shared rs, exec (.optionLoad a b) s = .next s ∧
    exec .optRdyTimeout s = .next s ∧ exec .logicBist s = .next s ∧ exec (.sramBist fails shared) s = .next s ∧
    exec .stackTrainingTimeout s = .next s ∧ exec .stackWipe s = .next s ∧ exec (.linkTraining rs) s = .next s)

/-- Phases 6 and 7 and images in service (R472, R475, R476, R478): phase 6 reads the service record, the identity and the
images, and goes on to phase 7 when both images verify; without the option store, or with an image that does not verify, it stops with ERROR 3, and
outside it the boot image is not looked at; a page that is not the one a site expects changes nothing, and in phase 7 the one expected is taken or counted as a mismatch by its CRC;
a quiesce is finished only once no accepted packet of a work queue is in flight, and a timeout before that gives it up with STORE_BUSY. -/
def Obligations.FirmwareEvents : Prop :=
  (∀ s mc uc a b cert, inPhase s.dev 6 = true → s.dev.boot.noStore = true →
    exec (.bootImageVerify mc uc a b cert) s = .next (s.upd (fun d => { d with boot := { d.boot with error := 3 } }))) ∧
  (∀ s mc uc a b cert area d1, inPhase s.dev 6 = true → s.dev.boot.noStore = false → area = optBytes (mc ++ uc) →
    d1 = readImages (readIdentity (readSvc s.params s.dev (optBytes a) (optBytes b)) (optBytes cert)) area (area.drop (ucPlace area)) →
    (d1.mc.fwOk = true → d1.mc.ucOk = true → exec (.bootImageVerify mc uc a b cert) s = .next (s.withDev (beginPhase7 s.params d1))) ∧
    ((d1.mc.fwOk = false ∨ d1.mc.ucOk = false) →
      exec (.bootImageVerify mc uc a b cert) s = .next (s.withDev { d1 with boot := { d1.boot with error := 3 } }))) ∧
  (∀ s mc uc a b cert, inPhase s.dev 6 = false → exec (.bootImageVerify mc uc a b cert) s = .next s) ∧
  (∀ s pl st pg got, (s.dev.site (siteKey pl st)).pages ≠ pg → exec (.microcodePageFetch pl st pg got) s = .next s) ∧
  (∀ s pl st got, s.dev.mc.single = none → s.dev.boot.inReset = false → s.dev.boot.phase = 7 → s.dev.boot.error = 0 →
    siteKey pl st ∈ liveSites s.params s.dev → fetchPending s.dev (siteKey pl st) = true →
    exec (.microcodePageFetch pl st (s.dev.site (siteKey pl st)).pages got) s = .next (s.upd (fun d => endPhase7 s.params
      (countFailed (d.modSite (siteKey pl st) (takePage d.mc.npages (pageOk got))) (siteKey pl st))))) ∧
  (∀ s uid img, s.dev.mc.quiesce = some (uid, img) → quiesced s.dev = true →
    exec (.quiesceRefetch []) s = .next ((mcEnd (s.upd (fun d =>
      newImage { d with mc := { d.mc with quiesce := none } } ⟨uid, true, FwImage.version img, FwImage.body img⟩)) 0 uid .done 0).upd pump)) ∧
  (∀ s uid img failed, s.dev.mc.quiesce = some (uid, img) → quiesced s.dev = false → exec (.quiesceRefetch failed) s = .next s) ∧
  (∀ s uid img, s.dev.mc.quiesce = some (uid, img) → quiesced s.dev = false →
    exec .fwQuiesceTimeout s = .next ((mcEnd (s.upd (fun d => { d with mc := { d.mc with quiesce := none } })) 0 uid .storeBusy 0).upd pump)) ∧
  (∀ s, s.dev.mc.quiesce = none → exec .fwQuiesceTimeout s = .next s ∧ ∀ failed, exec (.quiesceRefetch failed) s = .next s)

/-! ## Test ports -/

/-- The test port (R543 to R545): capture, shift and update act on the selected register while the test logic is not held in reset; a shift
brings k3_tst_si in at the far end and the first bit out; reset clears the logic. No byte of memory changes. -/
def Obligations.TestPortRegisters : Prop :=
  (∀ s pl pins, pl < s.params.panels → testHeld s.dev pl = false →
    exec (.testCapture pl 1 pins) s = .next (s.upd (fun d => (d.setTest pl { d.testPort pl with
      segment := (boundaryCapture s.params d pl pins).reverse }).draw))) ∧
  (∀ s pl si x, pl < s.params.panels → testHeld s.dev pl = false →
    x = stageOf (boundaryCells s.params pl) (s.dev.testPort pl).segment →
    exec (.testShift pl 1 si) s = .next (s.upd (fun d => d.setTest pl { d.testPort pl with segment := x.drop 1 ++ [si], so := x.headD false }))) ∧
  (∀ s pl si x, pl < s.params.panels → testHeld s.dev pl = false → x = stageOf 7680 (s.dev.testPort pl).status →
    exec (.testShift pl 3 si) s = .next (s.upd (fun d => d.setTest pl { d.testPort pl with status := x.drop 1 ++ [si], so := x.headD false }))) ∧
  (∀ s pl cells, pl < s.params.panels → testHeld s.dev pl = false →
    cells = (stageOf (boundaryCells s.params pl) (s.dev.testPort pl).segment).reverse →
    exec (.testUpdate pl 1) s = .next (s.upd (fun d => d.setTest pl { d.testPort pl with
      latches := (List.range (boundaryCells s.params pl)).map (fun i => outputCell pl i && cells.getD i false) }))) ∧
  (∀ s pl, pl < s.params.panels → exec (.testReset pl true) s = .next (s.upd (fun d =>
    d.setTest pl { (d.testPort pl).cleared with trst := true }))) ∧
  (∀ s pl, pl < s.params.panels → exec (.testReset pl false) s = .next (s.upd (fun d => d.setTest pl { d.testPort pl with trst := false }))) ∧
  (∀ s pl, pl < s.params.panels → testHeld s.dev pl = false →
    exec (.testModeChange pl false) s = .next (s.upd (fun d => d.setTest pl { d.testPort pl with mode := false }))) ∧
  (∀ s pl, pl < s.params.panels → testHeld s.dev pl = false → s.dev.boot.inReset = true →
    exec (.testModeChange pl true) s = .next (s.upd (fun d => d.setTest pl { d.testPort pl with mode := true }))) ∧
  (∀ s pl pins, pl < s.params.panels → testHeld s.dev pl = false →
    exec (.testCapture pl 3 pins) s = .next (s.upd (fun d => d.setTest pl { d.testPort pl with status := bistBits (d.testPort pl) }))) ∧
  (∀ s pl sel pins si, testHeld s.dev pl = true → exec (.testCapture pl sel pins) s = .next s ∧
    exec (.testShift pl sel si) s = .next s ∧ exec (.testUpdate pl sel) s = .next s ∧ exec (.testModeChange pl si) s = .next s)

/-! ## The whole block -/

/-- A step carries out the command at the front of the queue on the state with the queue's rest; with no command waiting it is one CCLK cycle. -/
def Obligations.StepRunsTheFrontCommand : Prop :=
  (∀ (c : Instr) (rest : List Instr) (s : State), step { s with pending := c :: rest } = exec c { s with pending := rest }) ∧
  (∀ s : State, s.pending = [] → step s = .next (s.upd (cycle s.params)))

/-- R451: with no command waiting, the device time counter advances by one at each cycle out of reset and stands in reset, where a cycle only ends the
period in which a source may lower the cause (log entry 84); a cycle changes no byte of memory and none of the control registers of functions. The idle
step is the model's choice (log entry 2). -/
def Obligations.IdleCycleAdvancesTime : Prop :=
  (∀ (p : Params) (d : Dev), d.boot.inReset = false → (cycle p d).time = d.time + 1 ∧ (cycle p d).funcs = d.funcs ∧ (cycle p d).boot.phase = d.boot.phase ∧
    (cycle p d).queues = d.queues) ∧
  (∀ (p : Params) (d : Dev), d.boot.inReset = true → cycle p d = { d with aon := { d.aon with fresh := false } }) ∧
  (∀ s t : State, s.pending = [] → step s = .next t → t.mem = s.mem ∧ t.pending = [])

/-- Every command ends in a next state, with the build parameters and the waiting commands as they were. -/
def Obligations.CommandsKeepParametersAndQueue : Prop :=
  ∀ (c : Instr) (s : State), ∃ t, exec c s = .next t ∧ t.params = s.params ∧ t.pending = s.pending

/-- Commands that write no memory (Safety.lean lists them): every byte of stack and host memory, and every poison mark, is as before. -/
def Obligations.FrameOfMemory : Prop :=
  ∀ (c : Instr) (s t : State), keepsMemory c = true → exec c s = .next t → t.mem = s.mem

/-- The memory of the block stays in its canonical form at every step: addresses rise and no listed byte is the one an unlisted address reads as.
-/
def Obligations.MemoryStaysCanonical : Prop :=
  ∀ (s t : State), MemoryCanonical s → step s = .next t → MemoryCanonical t

/-- The state after reset (R422, R449, R451, R452): memory canonical and empty, bring-up at phase 0, not READY, time 0, partition 0 of each panel
enabled over all rows for function 0, no queue, context, gang or command. -/
def Obligations.ResetState : Prop :=
  MemoryCanonical State.reset ∧ State.reset.pending = [] ∧ State.reset.dev.boot.inReset = false ∧ State.reset.dev.boot.ready = false ∧
  State.reset.dev.boot.phase = 0 ∧ State.reset.dev.boot.error = 0 ∧ State.reset.dev.time = 0 ∧ State.reset.dev.boot.keyArmed = false ∧
  (∀ pl, pl < 2 → State.reset.dev.part pl 0 = 0x800000000000000C#64) ∧
  (∀ n, (State.reset.dev.queue (.work n)).live = false) ∧ (∀ c, (State.reset.dev.ctx c).live = false) ∧
  (∀ a, Memory.get a State.reset.mem.host = 0)

/-- R396, R426 and R427: the walk of a context whose owner is not function 0 answers device physical addresses inside that function's grants
only, whatever table pointers the walk finds cached; so does dispatch where it holds no leaf. -/
def Obligations.TranslationsStayInGrants : Prop :=
  (∀ (s : State) (wc : List TlbEntry) (ctx root va pa : Nat) (acc : Acc3), (s.dev.ctx ctx).owner ≠ 0 →
    translate s wc ctx root va acc = .ok (.phys pa) → granted s.dev (s.dev.ctx ctx).owner pa = true) ∧
  (∀ (s : State) (panel ctx va pa : Nat) (acc : Acc3), (s.dev.ctx ctx).owner ≠ 0 →
    leafFind (s.dev.panel panel).tlb ctx (s.dev.ctx ctx).root va = none → dXlate s panel ctx va acc = .ok (.phys pa) →
    granted s.dev (s.dev.ctx ctx).owner pa = true)
end

