-- ==== Sys2Proof/Laws/Accept.lean ====
section
/-! SUPPORT. What a packet row does with a packet that stands at step 10 of R254, one lemma per ending of step 10, and the search for the
lowest free number. -/

namespace Sys2Proof.Machine

theorem lowest_some {n : Nat} {f : Nat → Bool} {k : Nat} (h : IsLowest n f k) : lowest n f = some k := by
  obtain ⟨h1, h2, h3⟩ := h
  unfold lowest
  rw [List.find?_range_eq_some]
  exact ⟨h2, by simpa using h1, fun j hj => by simpa using h3 j hj⟩

theorem lowest_none {n : Nat} {f : Nat → Bool} (h : NoneBelow n f) : lowest n f = none := by
  unfold lowest
  rw [List.find?_eq_none]
  intro x hx
  simp [h x (by simpa using hx)]

variable {sem : OpSem} {q : QRef} {s s1 s2 : State} {p : Pkt}

theorem acceptRow_of_done {f : Pkt → Pkt} (h : reach sem q s = .ten s1 p) (h2 : sem.exec s1 p = .done s2 f) :
    acceptRow sem q s = finished s2 q p f := by
  unfold acceptRow acceptStep; rw [h]; unfold runTen; dsimp only; rw [h2]; rfl

theorem acceptRow_of_fail {st : Status} (h : reach sem q s = .ten s1 p) (h2 : sem.exec s1 p = .fail s2 st) :
    acceptRow sem q s = failed10 s2 q p st := by
  unfold acceptRow acceptStep; rw [h]; unfold runTen; dsimp only; rw [h2]; rfl

theorem acceptRow_of_wait (h : reach sem q s = .ten s1 p) (h2 : sem.exec s1 p = .wait s2) : acceptRow sem q s = waits10 s2 q p := by
  unfold acceptRow acceptStep; rw [h]; unfold runTen; dsimp only; rw [h2]; rfl

theorem acceptRow_of_mcast (h : reach sem q s = .ten s1 p) (h2 : sem.exec s1 p = .mcast s2) : acceptRow sem q s = toMulticast s2 q p := by
  unfold acceptRow acceptStep; rw [h]; unfold runTen; dsimp only; rw [h2]; rfl

theorem acceptRow_of_later (h : reach sem q s = .ten s1 p) (h2 : sem.exec s1 p = .later s2) : acceptRow sem q s = acceptedMc s2 q p := by
  unfold acceptRow acceptStep; rw [h]; unfold runTen; dsimp only; rw [h2]; rfl

theorem acceptRow_of_refuse {st : Status} {det : Word} (h : reach sem q s = .ten s1 p) (h2 : sem.exec s1 p = .refuse s2 st det) :
    acceptRow sem q s = refused10 s2 q p st det := by
  unfold acceptRow acceptStep; rw [h]; unfold runTen; dsimp only; rw [h2]; rfl

/-- A row whose queue gives it no packet at step 10 leaves the packet where steps 1 to 9 took it. -/
theorem acceptRow_of_out (h : reach sem q s = .out s1) : acceptRow sem q s = dropDone s1 q := by
  unfold acceptRow acceptStep; rw [h]

end Sys2Proof.Machine
end

