-- ==== Sys2Proof/Laws/State.lean ====
section
/-! SUPPORT. Lookup laws of the sparse tables, one lemma per field of `Dev` per writer of `Access.lean`, one per reader per writer, and the
fields of `State` under a rewrite of its device: what later proofs use in place of unfolding a record update. -/

namespace Sys2Proof.Machine

/-! ## Sparse tables -/

@[simp] theorem Tbl.get_nil {α : Type} (d : α) (k : Nat) : Tbl.get d k [] = d := rfl

@[simp] theorem Tbl.get_set_self {α : Type} (d v : α) (k : Nat) (t : List (Nat × α)) : Tbl.get d k (Tbl.set k v t) = v := by
  induction t with
  | nil => simp [Tbl.set, Tbl.get]
  | cons e t ih =>
    obtain ⟨k', v'⟩ := e
    unfold Tbl.set
    split
    · simp [Tbl.get]
    · split
      · simp [Tbl.get]
      · simp only [Tbl.get]; rw [if_neg (by omega), ih]

theorem Tbl.get_set_ne {α : Type} (d v : α) {j k : Nat} (h : j ≠ k) (t : List (Nat × α)) :
    Tbl.get d j (Tbl.set k v t) = Tbl.get d j t := by
  induction t with
  | nil => simp [Tbl.set, Tbl.get, Ne.symm h]
  | cons e t ih =>
    obtain ⟨k', v'⟩ := e
    unfold Tbl.set
    split
    · rename_i hk; subst hk; simp [Tbl.get, Ne.symm h]
    · split
      · simp [Tbl.get, Ne.symm h]
      · simp [Tbl.get, ih]

theorem Tbl.get_set {α : Type} (d v : α) (j k : Nat) (t : List (Nat × α)) :
    Tbl.get d j (Tbl.set k v t) = if j = k then v else Tbl.get d j t := by
  split
  · rename_i h; subst h; exact Tbl.get_set_self d v j t
  · rename_i h; exact Tbl.get_set_ne d v h t

theorem Tbl.get_mapv {α : Type} (f : α → α) (d : α) (k : Nat) (t : List (Nat × α)) (h : f d = d) :
    Tbl.get d k (Tbl.mapv f t) = f (Tbl.get d k t) := by
  induction t with
  | nil => simp [Tbl.mapv, Tbl.get, h]
  | cons e t ih =>
    simp only [Tbl.mapv, List.map_cons, Tbl.get] at ih ⊢
    split
    · rfl
    · exact ih

@[simp] theorem Tbl.get_del_self {α : Type} (d : α) (k : Nat) (t : List (Nat × α)) : Tbl.get d k (Tbl.del k t) = d := by
  induction t with
  | nil => rfl
  | cons e t ih =>
    unfold Tbl.del at ih ⊢
    simp only [List.filter_cons]
    split
    · rename_i h; simp only [Tbl.get]; rw [if_neg (by simpa using h), ih]
    · exact ih

theorem Tbl.get_del_ne {α : Type} (d : α) {j k : Nat} (h : j ≠ k) (t : List (Nat × α)) : Tbl.get d j (Tbl.del k t) = Tbl.get d j t := by
  induction t with
  | nil => rfl
  | cons e t ih =>
    unfold Tbl.del at ih ⊢
    simp only [List.filter_cons]
    split
    · simp only [Tbl.get, ih]
    · rename_i hk
      have hk : e.1 = k := by simpa using hk
      simp only [Tbl.get]
      rw [if_neg (by omega), ih]

/-- A second write of a key replaces the first. -/
@[simp] theorem Tbl.set_set {α : Type} (k : Nat) (v w : α) (t : List (Nat × α)) : Tbl.set k w (Tbl.set k v t) = Tbl.set k w t := by
  induction t with
  | nil => simp [Tbl.set]
  | cons e t ih =>
    obtain ⟨k', v'⟩ := e
    by_cases h : k = k'
    · simp [Tbl.set, h]
    · by_cases h2 : k < k'
      · simp [Tbl.set, h, h2]
      · simp [Tbl.set, h, h2, ih]

/-! ## `State` under a rewrite of its device -/

@[simp] theorem State.upd_dev (s : State) (g : Dev → Dev) : (s.upd g).dev = g s.dev := rfl
@[simp] theorem State.upd_mem (s : State) (g : Dev → Dev) : (s.upd g).mem = s.mem := rfl
@[simp] theorem State.upd_params (s : State) (g : Dev → Dev) : (s.upd g).params = s.params := rfl
@[simp] theorem State.upd_pending (s : State) (g : Dev → Dev) : (s.upd g).pending = s.pending := rfl
@[simp] theorem State.withDev_dev (s : State) (d : Dev) : (s.withDev d).dev = d := rfl
@[simp] theorem State.withDev_mem (s : State) (d : Dev) : (s.withDev d).mem = s.mem := rfl
@[simp] theorem State.withDev_params (s : State) (d : Dev) : (s.withDev d).params = s.params := rfl
@[simp] theorem State.withDev_pending (s : State) (d : Dev) : (s.withDev d).pending = s.pending := rfl
@[simp] theorem State.upd_id (s : State) : s.upd (fun d => d) = s := rfl

/-! ## Fields of `Dev` under its writers -/

section setFn
variable (d : Dev) (f : Nat) (x : FuncSt)
@[simp] theorem Dev.setFn_aon : (d.setFn f x).aon = d.aon := rfl
@[simp] theorem Dev.setFn_pins : (d.setFn f x).pins = d.pins := rfl
@[simp] theorem Dev.setFn_opts : (d.setFn f x).opts = d.opts := rfl
@[simp] theorem Dev.setFn_boot : (d.setFn f x).boot = d.boot := rfl
@[simp] theorem Dev.setFn_mc : (d.setFn f x).mc = d.mc := rfl
@[simp] theorem Dev.setFn_time : (d.setFn f x).time = d.time := rfl
@[simp] theorem Dev.setFn_ctls : (d.setFn f x).ctls = d.ctls := rfl
@[simp] theorem Dev.setFn_queues : (d.setFn f x).queues = d.queues := rfl
@[simp] theorem Dev.setFn_ctxs : (d.setFn f x).ctxs = d.ctxs := rfl
@[simp] theorem Dev.setFn_gangs : (d.setFn f x).gangs = d.gangs := rfl
@[simp] theorem Dev.setFn_objs : (d.setFn f x).objs = d.objs := rfl
@[simp] theorem Dev.setFn_parts : (d.setFn f x).parts = d.parts := rfl
@[simp] theorem Dev.setFn_partStatus : (d.setFn f x).partStatus = d.partStatus := rfl
@[simp] theorem Dev.setFn_grants : (d.setFn f x).grants = d.grants := rfl
@[simp] theorem Dev.setFn_logical : (d.setFn f x).logical = d.logical := rfl
@[simp] theorem Dev.setFn_lastSite : (d.setFn f x).lastSite = d.lastSite := rfl
@[simp] theorem Dev.setFn_sites : (d.setFn f x).sites = d.sites := rfl
@[simp] theorem Dev.setFn_cores : (d.setFn f x).cores = d.cores := rfl
@[simp] theorem Dev.setFn_panels : (d.setFn f x).panels = d.panels := rfl
@[simp] theorem Dev.setFn_ports : (d.setFn f x).ports = d.ports := rfl
@[simp] theorem Dev.setFn_links : (d.setFn f x).links = d.links := rfl
@[simp] theorem Dev.setFn_host : (d.setFn f x).host = d.host := rfl
@[simp] theorem Dev.setFn_test : (d.setFn f x).test = d.test := rfl
@[simp] theorem Dev.setFn_resets : (d.setFn f x).resets = d.resets := rfl
@[simp] theorem Dev.setFn_nextUid : (d.setFn f x).nextUid = d.nextUid := rfl
@[simp] theorem Dev.setFn_freeCtr : (d.setFn f x).freeCtr = d.freeCtr := rfl
end setFn

section setQueue
variable (d : Dev) (q : QRef) (x : Queue)
@[simp] theorem Dev.setQueue_aon : (d.setQueue q x).aon = d.aon := by cases q <;> rfl
@[simp] theorem Dev.setQueue_pins : (d.setQueue q x).pins = d.pins := by cases q <;> rfl
@[simp] theorem Dev.setQueue_opts : (d.setQueue q x).opts = d.opts := by cases q <;> rfl
@[simp] theorem Dev.setQueue_boot : (d.setQueue q x).boot = d.boot := by cases q <;> rfl
@[simp] theorem Dev.setQueue_mc : (d.setQueue q x).mc = d.mc := by cases q <;> rfl
@[simp] theorem Dev.setQueue_time : (d.setQueue q x).time = d.time := by cases q <;> rfl
@[simp] theorem Dev.setQueue_funcs : (d.setQueue q x).funcs = d.funcs := by cases q <;> rfl
@[simp] theorem Dev.setQueue_ctxs : (d.setQueue q x).ctxs = d.ctxs := by cases q <;> rfl
@[simp] theorem Dev.setQueue_gangs : (d.setQueue q x).gangs = d.gangs := by cases q <;> rfl
@[simp] theorem Dev.setQueue_objs : (d.setQueue q x).objs = d.objs := by cases q <;> rfl
@[simp] theorem Dev.setQueue_parts : (d.setQueue q x).parts = d.parts := by cases q <;> rfl
@[simp] theorem Dev.setQueue_partStatus : (d.setQueue q x).partStatus = d.partStatus := by cases q <;> rfl
@[simp] theorem Dev.setQueue_grants : (d.setQueue q x).grants = d.grants := by cases q <;> rfl
@[simp] theorem Dev.setQueue_logical : (d.setQueue q x).logical = d.logical := by cases q <;> rfl
@[simp] theorem Dev.setQueue_lastSite : (d.setQueue q x).lastSite = d.lastSite := by cases q <;> rfl
@[simp] theorem Dev.setQueue_sites : (d.setQueue q x).sites = d.sites := by cases q <;> rfl
@[simp] theorem Dev.setQueue_cores : (d.setQueue q x).cores = d.cores := by cases q <;> rfl
@[simp] theorem Dev.setQueue_panels : (d.setQueue q x).panels = d.panels := by cases q <;> rfl
@[simp] theorem Dev.setQueue_ports : (d.setQueue q x).ports = d.ports := by cases q <;> rfl
@[simp] theorem Dev.setQueue_links : (d.setQueue q x).links = d.links := by cases q <;> rfl
@[simp] theorem Dev.setQueue_host : (d.setQueue q x).host = d.host := by cases q <;> rfl
@[simp] theorem Dev.setQueue_test : (d.setQueue q x).test = d.test := by cases q <;> rfl
@[simp] theorem Dev.setQueue_resets : (d.setQueue q x).resets = d.resets := by cases q <;> rfl
@[simp] theorem Dev.setQueue_nextUid : (d.setQueue q x).nextUid = d.nextUid := by cases q <;> rfl
@[simp] theorem Dev.setQueue_freeCtr : (d.setQueue q x).freeCtr = d.freeCtr := by cases q <;> rfl
end setQueue

section setCtx
variable (d : Dev) (c : Nat) (x : Ctx)
@[simp] theorem Dev.setCtx_aon : (d.setCtx c x).aon = d.aon := rfl
@[simp] theorem Dev.setCtx_pins : (d.setCtx c x).pins = d.pins := rfl
@[simp] theorem Dev.setCtx_opts : (d.setCtx c x).opts = d.opts := rfl
@[simp] theorem Dev.setCtx_boot : (d.setCtx c x).boot = d.boot := rfl
@[simp] theorem Dev.setCtx_mc : (d.setCtx c x).mc = d.mc := rfl
@[simp] theorem Dev.setCtx_time : (d.setCtx c x).time = d.time := rfl
@[simp] theorem Dev.setCtx_funcs : (d.setCtx c x).funcs = d.funcs := rfl
@[simp] theorem Dev.setCtx_ctls : (d.setCtx c x).ctls = d.ctls := rfl
@[simp] theorem Dev.setCtx_queues : (d.setCtx c x).queues = d.queues := rfl
@[simp] theorem Dev.setCtx_gangs : (d.setCtx c x).gangs = d.gangs := rfl
@[simp] theorem Dev.setCtx_objs : (d.setCtx c x).objs = d.objs := rfl
@[simp] theorem Dev.setCtx_parts : (d.setCtx c x).parts = d.parts := rfl
@[simp] theorem Dev.setCtx_partStatus : (d.setCtx c x).partStatus = d.partStatus := rfl
@[simp] theorem Dev.setCtx_grants : (d.setCtx c x).grants = d.grants := rfl
@[simp] theorem Dev.setCtx_logical : (d.setCtx c x).logical = d.logical := rfl
@[simp] theorem Dev.setCtx_lastSite : (d.setCtx c x).lastSite = d.lastSite := rfl
@[simp] theorem Dev.setCtx_sites : (d.setCtx c x).sites = d.sites := rfl
@[simp] theorem Dev.setCtx_cores : (d.setCtx c x).cores = d.cores := rfl
@[simp] theorem Dev.setCtx_panels : (d.setCtx c x).panels = d.panels := rfl
@[simp] theorem Dev.setCtx_ports : (d.setCtx c x).ports = d.ports := rfl
@[simp] theorem Dev.setCtx_links : (d.setCtx c x).links = d.links := rfl
@[simp] theorem Dev.setCtx_host : (d.setCtx c x).host = d.host := rfl
@[simp] theorem Dev.setCtx_test : (d.setCtx c x).test = d.test := rfl
@[simp] theorem Dev.setCtx_resets : (d.setCtx c x).resets = d.resets := rfl
@[simp] theorem Dev.setCtx_nextUid : (d.setCtx c x).nextUid = d.nextUid := rfl
@[simp] theorem Dev.setCtx_freeCtr : (d.setCtx c x).freeCtr = d.freeCtr := rfl
end setCtx

section setGang
variable (d : Dev) (h g : Nat) (x : Gang)
@[simp] theorem Dev.setGang_aon : (d.setGang h g x).aon = d.aon := rfl
@[simp] theorem Dev.setGang_pins : (d.setGang h g x).pins = d.pins := rfl
@[simp] theorem Dev.setGang_opts : (d.setGang h g x).opts = d.opts := rfl
@[simp] theorem Dev.setGang_boot : (d.setGang h g x).boot = d.boot := rfl
@[simp] theorem Dev.setGang_mc : (d.setGang h g x).mc = d.mc := rfl
@[simp] theorem Dev.setGang_time : (d.setGang h g x).time = d.time := rfl
@[simp] theorem Dev.setGang_funcs : (d.setGang h g x).funcs = d.funcs := rfl
@[simp] theorem Dev.setGang_ctls : (d.setGang h g x).ctls = d.ctls := rfl
@[simp] theorem Dev.setGang_queues : (d.setGang h g x).queues = d.queues := rfl
@[simp] theorem Dev.setGang_ctxs : (d.setGang h g x).ctxs = d.ctxs := rfl
@[simp] theorem Dev.setGang_objs : (d.setGang h g x).objs = d.objs := rfl
@[simp] theorem Dev.setGang_parts : (d.setGang h g x).parts = d.parts := rfl
@[simp] theorem Dev.setGang_partStatus : (d.setGang h g x).partStatus = d.partStatus := rfl
@[simp] theorem Dev.setGang_grants : (d.setGang h g x).grants = d.grants := rfl
@[simp] theorem Dev.setGang_logical : (d.setGang h g x).logical = d.logical := rfl
@[simp] theorem Dev.setGang_lastSite : (d.setGang h g x).lastSite = d.lastSite := rfl
@[simp] theorem Dev.setGang_sites : (d.setGang h g x).sites = d.sites := rfl
@[simp] theorem Dev.setGang_cores : (d.setGang h g x).cores = d.cores := rfl
@[simp] theorem Dev.setGang_panels : (d.setGang h g x).panels = d.panels := rfl
@[simp] theorem Dev.setGang_ports : (d.setGang h g x).ports = d.ports := rfl
@[simp] theorem Dev.setGang_links : (d.setGang h g x).links = d.links := rfl
@[simp] theorem Dev.setGang_host : (d.setGang h g x).host = d.host := rfl
@[simp] theorem Dev.setGang_test : (d.setGang h g x).test = d.test := rfl
@[simp] theorem Dev.setGang_resets : (d.setGang h g x).resets = d.resets := rfl
@[simp] theorem Dev.setGang_nextUid : (d.setGang h g x).nextUid = d.nextUid := rfl
@[simp] theorem Dev.setGang_freeCtr : (d.setGang h g x).freeCtr = d.freeCtr := rfl
end setGang

section setGrant
variable (d : Dev) (g : Nat) (x : Grant)
@[simp] theorem Dev.setGrant_aon : (d.setGrant g x).aon = d.aon := rfl
@[simp] theorem Dev.setGrant_pins : (d.setGrant g x).pins = d.pins := rfl
@[simp] theorem Dev.setGrant_opts : (d.setGrant g x).opts = d.opts := rfl
@[simp] theorem Dev.setGrant_boot : (d.setGrant g x).boot = d.boot := rfl
@[simp] theorem Dev.setGrant_mc : (d.setGrant g x).mc = d.mc := rfl
@[simp] theorem Dev.setGrant_time : (d.setGrant g x).time = d.time := rfl
@[simp] theorem Dev.setGrant_funcs : (d.setGrant g x).funcs = d.funcs := rfl
@[simp] theorem Dev.setGrant_ctls : (d.setGrant g x).ctls = d.ctls := rfl
@[simp] theorem Dev.setGrant_queues : (d.setGrant g x).queues = d.queues := rfl
@[simp] theorem Dev.setGrant_ctxs : (d.setGrant g x).ctxs = d.ctxs := rfl
@[simp] theorem Dev.setGrant_gangs : (d.setGrant g x).gangs = d.gangs := rfl
@[simp] theorem Dev.setGrant_objs : (d.setGrant g x).objs = d.objs := rfl
@[simp] theorem Dev.setGrant_parts : (d.setGrant g x).parts = d.parts := rfl
@[simp] theorem Dev.setGrant_partStatus : (d.setGrant g x).partStatus = d.partStatus := rfl
@[simp] theorem Dev.setGrant_logical : (d.setGrant g x).logical = d.logical := rfl
@[simp] theorem Dev.setGrant_lastSite : (d.setGrant g x).lastSite = d.lastSite := rfl
@[simp] theorem Dev.setGrant_sites : (d.setGrant g x).sites = d.sites := rfl
@[simp] theorem Dev.setGrant_cores : (d.setGrant g x).cores = d.cores := rfl
@[simp] theorem Dev.setGrant_panels : (d.setGrant g x).panels = d.panels := rfl
@[simp] theorem Dev.setGrant_ports : (d.setGrant g x).ports = d.ports := rfl
@[simp] theorem Dev.setGrant_links : (d.setGrant g x).links = d.links := rfl
@[simp] theorem Dev.setGrant_host : (d.setGrant g x).host = d.host := rfl
@[simp] theorem Dev.setGrant_test : (d.setGrant g x).test = d.test := rfl
@[simp] theorem Dev.setGrant_resets : (d.setGrant g x).resets = d.resets := rfl
@[simp] theorem Dev.setGrant_nextUid : (d.setGrant g x).nextUid = d.nextUid := rfl
@[simp] theorem Dev.setGrant_freeCtr : (d.setGrant g x).freeCtr = d.freeCtr := rfl
end setGrant

section setSite
variable (d : Dev) (k : Nat) (x : Site)
@[simp] theorem Dev.setSite_aon : (d.setSite k x).aon = d.aon := rfl
@[simp] theorem Dev.setSite_pins : (d.setSite k x).pins = d.pins := rfl
@[simp] theorem Dev.setSite_opts : (d.setSite k x).opts = d.opts := rfl
@[simp] theorem Dev.setSite_boot : (d.setSite k x).boot = d.boot := rfl
@[simp] theorem Dev.setSite_mc : (d.setSite k x).mc = d.mc := rfl
@[simp] theorem Dev.setSite_time : (d.setSite k x).time = d.time := rfl
@[simp] theorem Dev.setSite_funcs : (d.setSite k x).funcs = d.funcs := rfl
@[simp] theorem Dev.setSite_ctls : (d.setSite k x).ctls = d.ctls := rfl
@[simp] theorem Dev.setSite_queues : (d.setSite k x).queues = d.queues := rfl
@[simp] theorem Dev.setSite_ctxs : (d.setSite k x).ctxs = d.ctxs := rfl
@[simp] theorem Dev.setSite_gangs : (d.setSite k x).gangs = d.gangs := rfl
@[simp] theorem Dev.setSite_objs : (d.setSite k x).objs = d.objs := rfl
@[simp] theorem Dev.setSite_parts : (d.setSite k x).parts = d.parts := rfl
@[simp] theorem Dev.setSite_partStatus : (d.setSite k x).partStatus = d.partStatus := rfl
@[simp] theorem Dev.setSite_grants : (d.setSite k x).grants = d.grants := rfl
@[simp] theorem Dev.setSite_logical : (d.setSite k x).logical = d.logical := rfl
@[simp] theorem Dev.setSite_lastSite : (d.setSite k x).lastSite = d.lastSite := rfl
@[simp] theorem Dev.setSite_cores : (d.setSite k x).cores = d.cores := rfl
@[simp] theorem Dev.setSite_panels : (d.setSite k x).panels = d.panels := rfl
@[simp] theorem Dev.setSite_ports : (d.setSite k x).ports = d.ports := rfl
@[simp] theorem Dev.setSite_links : (d.setSite k x).links = d.links := rfl
@[simp] theorem Dev.setSite_host : (d.setSite k x).host = d.host := rfl
@[simp] theorem Dev.setSite_test : (d.setSite k x).test = d.test := rfl
@[simp] theorem Dev.setSite_resets : (d.setSite k x).resets = d.resets := rfl
@[simp] theorem Dev.setSite_nextUid : (d.setSite k x).nextUid = d.nextUid := rfl
@[simp] theorem Dev.setSite_freeCtr : (d.setSite k x).freeCtr = d.freeCtr := rfl
end setSite

section setCore
variable (d : Dev) (k : Nat) (x : Core)
@[simp] theorem Dev.setCore_aon : (d.setCore k x).aon = d.aon := rfl
@[simp] theorem Dev.setCore_pins : (d.setCore k x).pins = d.pins := rfl
@[simp] theorem Dev.setCore_opts : (d.setCore k x).opts = d.opts := rfl
@[simp] theorem Dev.setCore_boot : (d.setCore k x).boot = d.boot := rfl
@[simp] theorem Dev.setCore_mc : (d.setCore k x).mc = d.mc := rfl
@[simp] theorem Dev.setCore_time : (d.setCore k x).time = d.time := rfl
@[simp] theorem Dev.setCore_funcs : (d.setCore k x).funcs = d.funcs := rfl
@[simp] theorem Dev.setCore_ctls : (d.setCore k x).ctls = d.ctls := rfl
@[simp] theorem Dev.setCore_queues : (d.setCore k x).queues = d.queues := rfl
@[simp] theorem Dev.setCore_ctxs : (d.setCore k x).ctxs = d.ctxs := rfl
@[simp] theorem Dev.setCore_gangs : (d.setCore k x).gangs = d.gangs := rfl
@[simp] theorem Dev.setCore_objs : (d.setCore k x).objs = d.objs := rfl
@[simp] theorem Dev.setCore_parts : (d.setCore k x).parts = d.parts := rfl
@[simp] theorem Dev.setCore_partStatus : (d.setCore k x).partStatus = d.partStatus := rfl
@[simp] theorem Dev.setCore_grants : (d.setCore k x).grants = d.grants := rfl
@[simp] theorem Dev.setCore_logical : (d.setCore k x).logical = d.logical := rfl
@[simp] theorem Dev.setCore_lastSite : (d.setCore k x).lastSite = d.lastSite := rfl
@[simp] theorem Dev.setCore_sites : (d.setCore k x).sites = d.sites := rfl
@[simp] theorem Dev.setCore_panels : (d.setCore k x).panels = d.panels := rfl
@[simp] theorem Dev.setCore_ports : (d.setCore k x).ports = d.ports := rfl
@[simp] theorem Dev.setCore_links : (d.setCore k x).links = d.links := rfl
@[simp] theorem Dev.setCore_host : (d.setCore k x).host = d.host := rfl
@[simp] theorem Dev.setCore_test : (d.setCore k x).test = d.test := rfl
@[simp] theorem Dev.setCore_resets : (d.setCore k x).resets = d.resets := rfl
@[simp] theorem Dev.setCore_nextUid : (d.setCore k x).nextUid = d.nextUid := rfl
@[simp] theorem Dev.setCore_freeCtr : (d.setCore k x).freeCtr = d.freeCtr := rfl
end setCore

section setPanel
variable (d : Dev) (p : Nat) (x : Panel)
@[simp] theorem Dev.setPanel_aon : (d.setPanel p x).aon = d.aon := rfl
@[simp] theorem Dev.setPanel_pins : (d.setPanel p x).pins = d.pins := rfl
@[simp] theorem Dev.setPanel_opts : (d.setPanel p x).opts = d.opts := rfl
@[simp] theorem Dev.setPanel_boot : (d.setPanel p x).boot = d.boot := rfl
@[simp] theorem Dev.setPanel_mc : (d.setPanel p x).mc = d.mc := rfl
@[simp] theorem Dev.setPanel_time : (d.setPanel p x).time = d.time := rfl
@[simp] theorem Dev.setPanel_funcs : (d.setPanel p x).funcs = d.funcs := rfl
@[simp] theorem Dev.setPanel_ctls : (d.setPanel p x).ctls = d.ctls := rfl
@[simp] theorem Dev.setPanel_queues : (d.setPanel p x).queues = d.queues := rfl
@[simp] theorem Dev.setPanel_ctxs : (d.setPanel p x).ctxs = d.ctxs := rfl
@[simp] theorem Dev.setPanel_gangs : (d.setPanel p x).gangs = d.gangs := rfl
@[simp] theorem Dev.setPanel_objs : (d.setPanel p x).objs = d.objs := rfl
@[simp] theorem Dev.setPanel_parts : (d.setPanel p x).parts = d.parts := rfl
@[simp] theorem Dev.setPanel_partStatus : (d.setPanel p x).partStatus = d.partStatus := rfl
@[simp] theorem Dev.setPanel_grants : (d.setPanel p x).grants = d.grants := rfl
@[simp] theorem Dev.setPanel_logical : (d.setPanel p x).logical = d.logical := rfl
@[simp] theorem Dev.setPanel_lastSite : (d.setPanel p x).lastSite = d.lastSite := rfl
@[simp] theorem Dev.setPanel_sites : (d.setPanel p x).sites = d.sites := rfl
@[simp] theorem Dev.setPanel_cores : (d.setPanel p x).cores = d.cores := rfl
@[simp] theorem Dev.setPanel_ports : (d.setPanel p x).ports = d.ports := rfl
@[simp] theorem Dev.setPanel_links : (d.setPanel p x).links = d.links := rfl
@[simp] theorem Dev.setPanel_host : (d.setPanel p x).host = d.host := rfl
@[simp] theorem Dev.setPanel_test : (d.setPanel p x).test = d.test := rfl
@[simp] theorem Dev.setPanel_resets : (d.setPanel p x).resets = d.resets := rfl
@[simp] theorem Dev.setPanel_nextUid : (d.setPanel p x).nextUid = d.nextUid := rfl
@[simp] theorem Dev.setPanel_freeCtr : (d.setPanel p x).freeCtr = d.freeCtr := rfl
end setPanel

section setPort
variable (d : Dev) (k : Nat) (x : StackPort)
@[simp] theorem Dev.setPort_aon : (d.setPort k x).aon = d.aon := rfl
@[simp] theorem Dev.setPort_pins : (d.setPort k x).pins = d.pins := rfl
@[simp] theorem Dev.setPort_opts : (d.setPort k x).opts = d.opts := rfl
@[simp] theorem Dev.setPort_boot : (d.setPort k x).boot = d.boot := rfl
@[simp] theorem Dev.setPort_mc : (d.setPort k x).mc = d.mc := rfl
@[simp] theorem Dev.setPort_time : (d.setPort k x).time = d.time := rfl
@[simp] theorem Dev.setPort_funcs : (d.setPort k x).funcs = d.funcs := rfl
@[simp] theorem Dev.setPort_ctls : (d.setPort k x).ctls = d.ctls := rfl
@[simp] theorem Dev.setPort_queues : (d.setPort k x).queues = d.queues := rfl
@[simp] theorem Dev.setPort_ctxs : (d.setPort k x).ctxs = d.ctxs := rfl
@[simp] theorem Dev.setPort_gangs : (d.setPort k x).gangs = d.gangs := rfl
@[simp] theorem Dev.setPort_objs : (d.setPort k x).objs = d.objs := rfl
@[simp] theorem Dev.setPort_parts : (d.setPort k x).parts = d.parts := rfl
@[simp] theorem Dev.setPort_partStatus : (d.setPort k x).partStatus = d.partStatus := rfl
@[simp] theorem Dev.setPort_grants : (d.setPort k x).grants = d.grants := rfl
@[simp] theorem Dev.setPort_logical : (d.setPort k x).logical = d.logical := rfl
@[simp] theorem Dev.setPort_lastSite : (d.setPort k x).lastSite = d.lastSite := rfl
@[simp] theorem Dev.setPort_sites : (d.setPort k x).sites = d.sites := rfl
@[simp] theorem Dev.setPort_cores : (d.setPort k x).cores = d.cores := rfl
@[simp] theorem Dev.setPort_panels : (d.setPort k x).panels = d.panels := rfl
@[simp] theorem Dev.setPort_links : (d.setPort k x).links = d.links := rfl
@[simp] theorem Dev.setPort_host : (d.setPort k x).host = d.host := rfl
@[simp] theorem Dev.setPort_test : (d.setPort k x).test = d.test := rfl
@[simp] theorem Dev.setPort_resets : (d.setPort k x).resets = d.resets := rfl
@[simp] theorem Dev.setPort_nextUid : (d.setPort k x).nextUid = d.nextUid := rfl
@[simp] theorem Dev.setPort_freeCtr : (d.setPort k x).freeCtr = d.freeCtr := rfl
end setPort

section setLink
variable (d : Dev) (l : Nat) (x : Link)
@[simp] theorem Dev.setLink_aon : (d.setLink l x).aon = d.aon := rfl
@[simp] theorem Dev.setLink_pins : (d.setLink l x).pins = d.pins := rfl
@[simp] theorem Dev.setLink_opts : (d.setLink l x).opts = d.opts := rfl
@[simp] theorem Dev.setLink_boot : (d.setLink l x).boot = d.boot := rfl
@[simp] theorem Dev.setLink_mc : (d.setLink l x).mc = d.mc := rfl
@[simp] theorem Dev.setLink_time : (d.setLink l x).time = d.time := rfl
@[simp] theorem Dev.setLink_funcs : (d.setLink l x).funcs = d.funcs := rfl
@[simp] theorem Dev.setLink_ctls : (d.setLink l x).ctls = d.ctls := rfl
@[simp] theorem Dev.setLink_queues : (d.setLink l x).queues = d.queues := rfl
@[simp] theorem Dev.setLink_ctxs : (d.setLink l x).ctxs = d.ctxs := rfl
@[simp] theorem Dev.setLink_gangs : (d.setLink l x).gangs = d.gangs := rfl
@[simp] theorem Dev.setLink_objs : (d.setLink l x).objs = d.objs := rfl
@[simp] theorem Dev.setLink_parts : (d.setLink l x).parts = d.parts := rfl
@[simp] theorem Dev.setLink_partStatus : (d.setLink l x).partStatus = d.partStatus := rfl
@[simp] theorem Dev.setLink_grants : (d.setLink l x).grants = d.grants := rfl
@[simp] theorem Dev.setLink_logical : (d.setLink l x).logical = d.logical := rfl
@[simp] theorem Dev.setLink_lastSite : (d.setLink l x).lastSite = d.lastSite := rfl
@[simp] theorem Dev.setLink_sites : (d.setLink l x).sites = d.sites := rfl
@[simp] theorem Dev.setLink_cores : (d.setLink l x).cores = d.cores := rfl
@[simp] theorem Dev.setLink_panels : (d.setLink l x).panels = d.panels := rfl
@[simp] theorem Dev.setLink_ports : (d.setLink l x).ports = d.ports := rfl
@[simp] theorem Dev.setLink_host : (d.setLink l x).host = d.host := rfl
@[simp] theorem Dev.setLink_test : (d.setLink l x).test = d.test := rfl
@[simp] theorem Dev.setLink_resets : (d.setLink l x).resets = d.resets := rfl
@[simp] theorem Dev.setLink_nextUid : (d.setLink l x).nextUid = d.nextUid := rfl
@[simp] theorem Dev.setLink_freeCtr : (d.setLink l x).freeCtr = d.freeCtr := rfl
end setLink

section setTest
variable (d : Dev) (p : Nat) (x : TestPort)
@[simp] theorem Dev.setTest_aon : (d.setTest p x).aon = d.aon := rfl
@[simp] theorem Dev.setTest_pins : (d.setTest p x).pins = d.pins := rfl
@[simp] theorem Dev.setTest_opts : (d.setTest p x).opts = d.opts := rfl
@[simp] theorem Dev.setTest_boot : (d.setTest p x).boot = d.boot := rfl
@[simp] theorem Dev.setTest_mc : (d.setTest p x).mc = d.mc := rfl
@[simp] theorem Dev.setTest_time : (d.setTest p x).time = d.time := rfl
@[simp] theorem Dev.setTest_funcs : (d.setTest p x).funcs = d.funcs := rfl
@[simp] theorem Dev.setTest_ctls : (d.setTest p x).ctls = d.ctls := rfl
@[simp] theorem Dev.setTest_queues : (d.setTest p x).queues = d.queues := rfl
@[simp] theorem Dev.setTest_ctxs : (d.setTest p x).ctxs = d.ctxs := rfl
@[simp] theorem Dev.setTest_gangs : (d.setTest p x).gangs = d.gangs := rfl
@[simp] theorem Dev.setTest_objs : (d.setTest p x).objs = d.objs := rfl
@[simp] theorem Dev.setTest_parts : (d.setTest p x).parts = d.parts := rfl
@[simp] theorem Dev.setTest_partStatus : (d.setTest p x).partStatus = d.partStatus := rfl
@[simp] theorem Dev.setTest_grants : (d.setTest p x).grants = d.grants := rfl
@[simp] theorem Dev.setTest_logical : (d.setTest p x).logical = d.logical := rfl
@[simp] theorem Dev.setTest_lastSite : (d.setTest p x).lastSite = d.lastSite := rfl
@[simp] theorem Dev.setTest_sites : (d.setTest p x).sites = d.sites := rfl
@[simp] theorem Dev.setTest_cores : (d.setTest p x).cores = d.cores := rfl
@[simp] theorem Dev.setTest_panels : (d.setTest p x).panels = d.panels := rfl
@[simp] theorem Dev.setTest_ports : (d.setTest p x).ports = d.ports := rfl
@[simp] theorem Dev.setTest_links : (d.setTest p x).links = d.links := rfl
@[simp] theorem Dev.setTest_host : (d.setTest p x).host = d.host := rfl
@[simp] theorem Dev.setTest_resets : (d.setTest p x).resets = d.resets := rfl
@[simp] theorem Dev.setTest_nextUid : (d.setTest p x).nextUid = d.nextUid := rfl
@[simp] theorem Dev.setTest_freeCtr : (d.setTest p x).freeCtr = d.freeCtr := rfl
end setTest

section draw
variable (d : Dev)
@[simp] theorem Dev.draw_aon : d.draw.aon = d.aon := rfl
@[simp] theorem Dev.draw_pins : d.draw.pins = d.pins := rfl
@[simp] theorem Dev.draw_opts : d.draw.opts = d.opts := rfl
@[simp] theorem Dev.draw_boot : d.draw.boot = d.boot := rfl
@[simp] theorem Dev.draw_mc : d.draw.mc = d.mc := rfl
@[simp] theorem Dev.draw_time : d.draw.time = d.time := rfl
@[simp] theorem Dev.draw_funcs : d.draw.funcs = d.funcs := rfl
@[simp] theorem Dev.draw_ctls : d.draw.ctls = d.ctls := rfl
@[simp] theorem Dev.draw_queues : d.draw.queues = d.queues := rfl
@[simp] theorem Dev.draw_ctxs : d.draw.ctxs = d.ctxs := rfl
@[simp] theorem Dev.draw_gangs : d.draw.gangs = d.gangs := rfl
@[simp] theorem Dev.draw_objs : d.draw.objs = d.objs := rfl
@[simp] theorem Dev.draw_parts : d.draw.parts = d.parts := rfl
@[simp] theorem Dev.draw_partStatus : d.draw.partStatus = d.partStatus := rfl
@[simp] theorem Dev.draw_grants : d.draw.grants = d.grants := rfl
@[simp] theorem Dev.draw_logical : d.draw.logical = d.logical := rfl
@[simp] theorem Dev.draw_lastSite : d.draw.lastSite = d.lastSite := rfl
@[simp] theorem Dev.draw_sites : d.draw.sites = d.sites := rfl
@[simp] theorem Dev.draw_cores : d.draw.cores = d.cores := rfl
@[simp] theorem Dev.draw_panels : d.draw.panels = d.panels := rfl
@[simp] theorem Dev.draw_ports : d.draw.ports = d.ports := rfl
@[simp] theorem Dev.draw_links : d.draw.links = d.links := rfl
@[simp] theorem Dev.draw_host : d.draw.host = d.host := rfl
@[simp] theorem Dev.draw_test : d.draw.test = d.test := rfl
@[simp] theorem Dev.draw_resets : d.draw.resets = d.resets := rfl
@[simp] theorem Dev.draw_nextUid : d.draw.nextUid = d.nextUid := rfl
@[simp] theorem Dev.draw_freeCtr : d.draw.freeCtr = d.freeCtr + 1 := rfl
end draw

section issueFor
variable (d : Dev) (func ctx op addr : Nat) (data : List Byte) (be : List Bool) (use : HostUse)
@[simp] theorem Dev.issueFor_aon : (d.issueFor func ctx op addr data be use).aon = d.aon := rfl
@[simp] theorem Dev.issueFor_pins : (d.issueFor func ctx op addr data be use).pins = d.pins := rfl
@[simp] theorem Dev.issueFor_opts : (d.issueFor func ctx op addr data be use).opts = d.opts := rfl
@[simp] theorem Dev.issueFor_boot : (d.issueFor func ctx op addr data be use).boot = d.boot := rfl
@[simp] theorem Dev.issueFor_mc : (d.issueFor func ctx op addr data be use).mc = d.mc := rfl
@[simp] theorem Dev.issueFor_time : (d.issueFor func ctx op addr data be use).time = d.time := rfl
@[simp] theorem Dev.issueFor_funcs : (d.issueFor func ctx op addr data be use).funcs = d.funcs := rfl
@[simp] theorem Dev.issueFor_ctls : (d.issueFor func ctx op addr data be use).ctls = d.ctls := rfl
@[simp] theorem Dev.issueFor_queues : (d.issueFor func ctx op addr data be use).queues = d.queues := rfl
@[simp] theorem Dev.issueFor_ctxs : (d.issueFor func ctx op addr data be use).ctxs = d.ctxs := rfl
@[simp] theorem Dev.issueFor_gangs : (d.issueFor func ctx op addr data be use).gangs = d.gangs := rfl
@[simp] theorem Dev.issueFor_objs : (d.issueFor func ctx op addr data be use).objs = d.objs := rfl
@[simp] theorem Dev.issueFor_parts : (d.issueFor func ctx op addr data be use).parts = d.parts := rfl
@[simp] theorem Dev.issueFor_partStatus : (d.issueFor func ctx op addr data be use).partStatus = d.partStatus := rfl
@[simp] theorem Dev.issueFor_grants : (d.issueFor func ctx op addr data be use).grants = d.grants := rfl
@[simp] theorem Dev.issueFor_logical : (d.issueFor func ctx op addr data be use).logical = d.logical := rfl
@[simp] theorem Dev.issueFor_lastSite : (d.issueFor func ctx op addr data be use).lastSite = d.lastSite := rfl
@[simp] theorem Dev.issueFor_sites : (d.issueFor func ctx op addr data be use).sites = d.sites := rfl
@[simp] theorem Dev.issueFor_cores : (d.issueFor func ctx op addr data be use).cores = d.cores := rfl
@[simp] theorem Dev.issueFor_panels : (d.issueFor func ctx op addr data be use).panels = d.panels := rfl
@[simp] theorem Dev.issueFor_ports : (d.issueFor func ctx op addr data be use).ports = d.ports := rfl
@[simp] theorem Dev.issueFor_links : (d.issueFor func ctx op addr data be use).links = d.links := rfl
@[simp] theorem Dev.issueFor_test : (d.issueFor func ctx op addr data be use).test = d.test := rfl
@[simp] theorem Dev.issueFor_resets : (d.issueFor func ctx op addr data be use).resets = d.resets := rfl
@[simp] theorem Dev.issueFor_nextUid : (d.issueFor func ctx op addr data be use).nextUid = d.nextUid := rfl
@[simp] theorem Dev.issueFor_freeCtr : (d.issueFor func ctx op addr data be use).freeCtr = d.freeCtr := rfl
@[simp] theorem Dev.issueFor_fn (f' : Nat) : (d.issueFor func ctx op addr data be use).fn f' = d.fn f' := rfl
@[simp] theorem Dev.issueFor_queue (q' : QRef) : (d.issueFor func ctx op addr data be use).queue q' = d.queue q' := by cases q' <;> rfl
@[simp] theorem Dev.issueFor_core (k' : Nat) : (d.issueFor func ctx op addr data be use).core k' = d.core k' := rfl
@[simp] theorem Dev.issueFor_panel (k' : Nat) : (d.issueFor func ctx op addr data be use).panel k' = d.panel k' := rfl
@[simp] theorem Dev.issueFor_port (k' : Nat) : (d.issueFor func ctx op addr data be use).port k' = d.port k' := rfl
@[simp] theorem Dev.issueFor_site (k' : Nat) : (d.issueFor func ctx op addr data be use).site k' = d.site k' := rfl
@[simp] theorem Dev.issueFor_link (k' : Nat) : (d.issueFor func ctx op addr data be use).link k' = d.link k' := rfl
@[simp] theorem Dev.issue_eq : d.issue func op addr data be use = d.issueFor func 0x3FF op addr data be use := rfl
end issueFor

/-! ## Readers of `Dev` under its writers -/

section setFn
variable (d : Dev) (f : Nat) (x : FuncSt)
@[simp] theorem Dev.setFn_fn_self : (d.setFn f x).fn f = x := Tbl.get_set_self _ _ _ _
theorem Dev.setFn_fn_ne {j : Nat} (h : j ≠ f) : (d.setFn f x).fn j = d.fn j := Tbl.get_set_ne _ _ h _
@[simp] theorem Dev.setFn_queue (q' : QRef) : (d.setFn f x).queue q' = d.queue q' := by cases q' <;> rfl
@[simp] theorem Dev.setFn_ctx (c' : Nat) : (d.setFn f x).ctx c' = d.ctx c' := rfl
@[simp] theorem Dev.setFn_gang (h' g' : Nat) : (d.setFn f x).gang h' g' = d.gang h' g' := rfl
@[simp] theorem Dev.setFn_part (p' i' : Nat) : (d.setFn f x).part p' i' = d.part p' i' := rfl
@[simp] theorem Dev.setFn_grant (g' : Nat) : (d.setFn f x).grant g' = d.grant g' := rfl
@[simp] theorem Dev.setFn_site (k' : Nat) : (d.setFn f x).site k' = d.site k' := rfl
@[simp] theorem Dev.setFn_core (k' : Nat) : (d.setFn f x).core k' = d.core k' := rfl
@[simp] theorem Dev.setFn_siteOf (i' : Nat) : (d.setFn f x).siteOf i' = d.siteOf i' := rfl
@[simp] theorem Dev.setFn_panel (p' : Nat) : (d.setFn f x).panel p' = d.panel p' := rfl
@[simp] theorem Dev.setFn_port (k' : Nat) : (d.setFn f x).port k' = d.port k' := rfl
@[simp] theorem Dev.setFn_link (l' : Nat) : (d.setFn f x).link l' = d.link l' := rfl
@[simp] theorem Dev.setFn_testPort (p' : Nat) : (d.setFn f x).testPort p' = d.testPort p' := rfl
@[simp] theorem Dev.setFn_inService : (d.setFn f x).inService = d.inService := rfl
end setFn

section setQueue
variable (d : Dev) (q : QRef) (x : Queue)
@[simp] theorem Dev.setQueue_queue_self : (d.setQueue q x).queue q = x := by
  cases q <;> exact Tbl.get_set_self _ _ _ _
theorem Dev.setQueue_queue_ne {q' : QRef} (h : q' ≠ q) : (d.setQueue q x).queue q' = d.queue q' := by
  cases q <;> cases q' <;> first | rfl | exact Tbl.get_set_ne _ _ (fun e => h (by rw [e])) _
@[simp] theorem Dev.setQueue_fn (f' : Nat) : (d.setQueue q x).fn f' = d.fn f' := by cases q <;> rfl
@[simp] theorem Dev.setQueue_ctx (c' : Nat) : (d.setQueue q x).ctx c' = d.ctx c' := by cases q <;> rfl
@[simp] theorem Dev.setQueue_gang (h' g' : Nat) : (d.setQueue q x).gang h' g' = d.gang h' g' := by cases q <;> rfl
@[simp] theorem Dev.setQueue_part (p' i' : Nat) : (d.setQueue q x).part p' i' = d.part p' i' := by cases q <;> rfl
@[simp] theorem Dev.setQueue_grant (g' : Nat) : (d.setQueue q x).grant g' = d.grant g' := by cases q <;> rfl
@[simp] theorem Dev.setQueue_site (k' : Nat) : (d.setQueue q x).site k' = d.site k' := by cases q <;> rfl
@[simp] theorem Dev.setQueue_core (k' : Nat) : (d.setQueue q x).core k' = d.core k' := by cases q <;> rfl
@[simp] theorem Dev.setQueue_siteOf (i' : Nat) : (d.setQueue q x).siteOf i' = d.siteOf i' := by cases q <;> rfl
@[simp] theorem Dev.setQueue_panel (p' : Nat) : (d.setQueue q x).panel p' = d.panel p' := by cases q <;> rfl
@[simp] theorem Dev.setQueue_port (k' : Nat) : (d.setQueue q x).port k' = d.port k' := by cases q <;> rfl
@[simp] theorem Dev.setQueue_link (l' : Nat) : (d.setQueue q x).link l' = d.link l' := by cases q <;> rfl
@[simp] theorem Dev.setQueue_testPort (p' : Nat) : (d.setQueue q x).testPort p' = d.testPort p' := by cases q <;> rfl
@[simp] theorem Dev.setQueue_inService : (d.setQueue q x).inService = d.inService := by cases q <;> rfl
end setQueue

section setCtx
variable (d : Dev) (c : Nat) (x : Ctx)
@[simp] theorem Dev.setCtx_ctx_self : (d.setCtx c x).ctx c = x := Tbl.get_set_self _ _ _ _
theorem Dev.setCtx_ctx_ne {j : Nat} (h : j ≠ c) : (d.setCtx c x).ctx j = d.ctx j := Tbl.get_set_ne _ _ h _
@[simp] theorem Dev.setCtx_fn (f' : Nat) : (d.setCtx c x).fn f' = d.fn f' := rfl
@[simp] theorem Dev.setCtx_queue (q' : QRef) : (d.setCtx c x).queue q' = d.queue q' := by cases q' <;> rfl
@[simp] theorem Dev.setCtx_gang (h' g' : Nat) : (d.setCtx c x).gang h' g' = d.gang h' g' := rfl
@[simp] theorem Dev.setCtx_part (p' i' : Nat) : (d.setCtx c x).part p' i' = d.part p' i' := rfl
@[simp] theorem Dev.setCtx_grant (g' : Nat) : (d.setCtx c x).grant g' = d.grant g' := rfl
@[simp] theorem Dev.setCtx_site (k' : Nat) : (d.setCtx c x).site k' = d.site k' := rfl
@[simp] theorem Dev.setCtx_core (k' : Nat) : (d.setCtx c x).core k' = d.core k' := rfl
@[simp] theorem Dev.setCtx_siteOf (i' : Nat) : (d.setCtx c x).siteOf i' = d.siteOf i' := rfl
@[simp] theorem Dev.setCtx_panel (p' : Nat) : (d.setCtx c x).panel p' = d.panel p' := rfl
@[simp] theorem Dev.setCtx_port (k' : Nat) : (d.setCtx c x).port k' = d.port k' := rfl
@[simp] theorem Dev.setCtx_link (l' : Nat) : (d.setCtx c x).link l' = d.link l' := rfl
@[simp] theorem Dev.setCtx_testPort (p' : Nat) : (d.setCtx c x).testPort p' = d.testPort p' := rfl
@[simp] theorem Dev.setCtx_inService : (d.setCtx c x).inService = d.inService := rfl
end setCtx

section setGang
variable (d : Dev) (h g : Nat) (x : Gang)
@[simp] theorem Dev.setGang_gang_self : (d.setGang h g x).gang h g = x := Tbl.get_set_self _ _ _ _
theorem Dev.setGang_gang_ne {h' g' : Nat} (e : 64 * h' + g' ≠ 64 * h + g) : (d.setGang h g x).gang h' g' = d.gang h' g' :=
  Tbl.get_set_ne _ _ e _
@[simp] theorem Dev.setGang_fn (f' : Nat) : (d.setGang h g x).fn f' = d.fn f' := rfl
@[simp] theorem Dev.setGang_queue (q' : QRef) : (d.setGang h g x).queue q' = d.queue q' := by cases q' <;> rfl
@[simp] theorem Dev.setGang_ctx (c' : Nat) : (d.setGang h g x).ctx c' = d.ctx c' := rfl
@[simp] theorem Dev.setGang_part (p' i' : Nat) : (d.setGang h g x).part p' i' = d.part p' i' := rfl
@[simp] theorem Dev.setGang_grant (g' : Nat) : (d.setGang h g x).grant g' = d.grant g' := rfl
@[simp] theorem Dev.setGang_site (k' : Nat) : (d.setGang h g x).site k' = d.site k' := rfl
@[simp] theorem Dev.setGang_core (k' : Nat) : (d.setGang h g x).core k' = d.core k' := rfl
@[simp] theorem Dev.setGang_siteOf (i' : Nat) : (d.setGang h g x).siteOf i' = d.siteOf i' := rfl
@[simp] theorem Dev.setGang_panel (p' : Nat) : (d.setGang h g x).panel p' = d.panel p' := rfl
@[simp] theorem Dev.setGang_port (k' : Nat) : (d.setGang h g x).port k' = d.port k' := rfl
@[simp] theorem Dev.setGang_link (l' : Nat) : (d.setGang h g x).link l' = d.link l' := rfl
@[simp] theorem Dev.setGang_testPort (p' : Nat) : (d.setGang h g x).testPort p' = d.testPort p' := rfl
@[simp] theorem Dev.setGang_inService : (d.setGang h g x).inService = d.inService := rfl
end setGang

section setGrant
variable (d : Dev) (g : Nat) (x : Grant)
@[simp] theorem Dev.setGrant_grant_self : (d.setGrant g x).grant g = x := Tbl.get_set_self _ _ _ _
theorem Dev.setGrant_grant_ne {j : Nat} (h : j ≠ g) : (d.setGrant g x).grant j = d.grant j := Tbl.get_set_ne _ _ h _
@[simp] theorem Dev.setGrant_fn (f' : Nat) : (d.setGrant g x).fn f' = d.fn f' := rfl
@[simp] theorem Dev.setGrant_queue (q' : QRef) : (d.setGrant g x).queue q' = d.queue q' := by cases q' <;> rfl
@[simp] theorem Dev.setGrant_ctx (c' : Nat) : (d.setGrant g x).ctx c' = d.ctx c' := rfl
@[simp] theorem Dev.setGrant_gang (h' g' : Nat) : (d.setGrant g x).gang h' g' = d.gang h' g' := rfl
@[simp] theorem Dev.setGrant_part (p' i' : Nat) : (d.setGrant g x).part p' i' = d.part p' i' := rfl
@[simp] theorem Dev.setGrant_site (k' : Nat) : (d.setGrant g x).site k' = d.site k' := rfl
@[simp] theorem Dev.setGrant_core (k' : Nat) : (d.setGrant g x).core k' = d.core k' := rfl
@[simp] theorem Dev.setGrant_siteOf (i' : Nat) : (d.setGrant g x).siteOf i' = d.siteOf i' := rfl
@[simp] theorem Dev.setGrant_panel (p' : Nat) : (d.setGrant g x).panel p' = d.panel p' := rfl
@[simp] theorem Dev.setGrant_port (k' : Nat) : (d.setGrant g x).port k' = d.port k' := rfl
@[simp] theorem Dev.setGrant_link (l' : Nat) : (d.setGrant g x).link l' = d.link l' := rfl
@[simp] theorem Dev.setGrant_testPort (p' : Nat) : (d.setGrant g x).testPort p' = d.testPort p' := rfl
@[simp] theorem Dev.setGrant_inService : (d.setGrant g x).inService = d.inService := rfl
end setGrant

section setSite
variable (d : Dev) (k : Nat) (x : Site)
@[simp] theorem Dev.setSite_site_self : (d.setSite k x).site k = x := Tbl.get_set_self _ _ _ _
theorem Dev.setSite_site_ne {j : Nat} (h : j ≠ k) : (d.setSite k x).site j = d.site j := Tbl.get_set_ne _ _ h _
@[simp] theorem Dev.setSite_fn (f' : Nat) : (d.setSite k x).fn f' = d.fn f' := rfl
@[simp] theorem Dev.setSite_queue (q' : QRef) : (d.setSite k x).queue q' = d.queue q' := by cases q' <;> rfl
@[simp] theorem Dev.setSite_ctx (c' : Nat) : (d.setSite k x).ctx c' = d.ctx c' := rfl
@[simp] theorem Dev.setSite_gang (h' g' : Nat) : (d.setSite k x).gang h' g' = d.gang h' g' := rfl
@[simp] theorem Dev.setSite_part (p' i' : Nat) : (d.setSite k x).part p' i' = d.part p' i' := rfl
@[simp] theorem Dev.setSite_grant (g' : Nat) : (d.setSite k x).grant g' = d.grant g' := rfl
@[simp] theorem Dev.setSite_core (k' : Nat) : (d.setSite k x).core k' = d.core k' := rfl
@[simp] theorem Dev.setSite_siteOf (i' : Nat) : (d.setSite k x).siteOf i' = d.siteOf i' := rfl
@[simp] theorem Dev.setSite_panel (p' : Nat) : (d.setSite k x).panel p' = d.panel p' := rfl
@[simp] theorem Dev.setSite_port (k' : Nat) : (d.setSite k x).port k' = d.port k' := rfl
@[simp] theorem Dev.setSite_link (l' : Nat) : (d.setSite k x).link l' = d.link l' := rfl
@[simp] theorem Dev.setSite_testPort (p' : Nat) : (d.setSite k x).testPort p' = d.testPort p' := rfl
@[simp] theorem Dev.setSite_inService : (d.setSite k x).inService = d.inService := rfl
end setSite

section setCore
variable (d : Dev) (k : Nat) (x : Core)
@[simp] theorem Dev.setCore_core_self : (d.setCore k x).core k = x := Tbl.get_set_self _ _ _ _
theorem Dev.setCore_core_ne {j : Nat} (h : j ≠ k) : (d.setCore k x).core j = d.core j := Tbl.get_set_ne _ _ h _
@[simp] theorem Dev.setCore_fn (f' : Nat) : (d.setCore k x).fn f' = d.fn f' := rfl
@[simp] theorem Dev.setCore_queue (q' : QRef) : (d.setCore k x).queue q' = d.queue q' := by cases q' <;> rfl
@[simp] theorem Dev.setCore_ctx (c' : Nat) : (d.setCore k x).ctx c' = d.ctx c' := rfl
@[simp] theorem Dev.setCore_gang (h' g' : Nat) : (d.setCore k x).gang h' g' = d.gang h' g' := rfl
@[simp] theorem Dev.setCore_part (p' i' : Nat) : (d.setCore k x).part p' i' = d.part p' i' := rfl
@[simp] theorem Dev.setCore_grant (g' : Nat) : (d.setCore k x).grant g' = d.grant g' := rfl
@[simp] theorem Dev.setCore_site (k' : Nat) : (d.setCore k x).site k' = d.site k' := rfl
@[simp] theorem Dev.setCore_siteOf (i' : Nat) : (d.setCore k x).siteOf i' = d.siteOf i' := rfl
@[simp] theorem Dev.setCore_panel (p' : Nat) : (d.setCore k x).panel p' = d.panel p' := rfl
@[simp] theorem Dev.setCore_port (k' : Nat) : (d.setCore k x).port k' = d.port k' := rfl
@[simp] theorem Dev.setCore_link (l' : Nat) : (d.setCore k x).link l' = d.link l' := rfl
@[simp] theorem Dev.setCore_testPort (p' : Nat) : (d.setCore k x).testPort p' = d.testPort p' := rfl
@[simp] theorem Dev.setCore_inService : (d.setCore k x).inService = d.inService := rfl
end setCore

section setPanel
variable (d : Dev) (p : Nat) (x : Panel)
@[simp] theorem Dev.setPanel_panel_self : (d.setPanel p x).panel p = x := Tbl.get_set_self _ _ _ _
theorem Dev.setPanel_panel_ne {j : Nat} (h : j ≠ p) : (d.setPanel p x).panel j = d.panel j := Tbl.get_set_ne _ _ h _
@[simp] theorem Dev.setPanel_fn (f' : Nat) : (d.setPanel p x).fn f' = d.fn f' := rfl
@[simp] theorem Dev.setPanel_queue (q' : QRef) : (d.setPanel p x).queue q' = d.queue q' := by cases q' <;> rfl
@[simp] theorem Dev.setPanel_ctx (c' : Nat) : (d.setPanel p x).ctx c' = d.ctx c' := rfl
@[simp] theorem Dev.setPanel_gang (h' g' : Nat) : (d.setPanel p x).gang h' g' = d.gang h' g' := rfl
@[simp] theorem Dev.setPanel_part (p' i' : Nat) : (d.setPanel p x).part p' i' = d.part p' i' := rfl
@[simp] theorem Dev.setPanel_grant (g' : Nat) : (d.setPanel p x).grant g' = d.grant g' := rfl
@[simp] theorem Dev.setPanel_site (k' : Nat) : (d.setPanel p x).site k' = d.site k' := rfl
@[simp] theorem Dev.setPanel_core (k' : Nat) : (d.setPanel p x).core k' = d.core k' := rfl
@[simp] theorem Dev.setPanel_siteOf (i' : Nat) : (d.setPanel p x).siteOf i' = d.siteOf i' := rfl
@[simp] theorem Dev.setPanel_port (k' : Nat) : (d.setPanel p x).port k' = d.port k' := rfl
@[simp] theorem Dev.setPanel_link (l' : Nat) : (d.setPanel p x).link l' = d.link l' := rfl
@[simp] theorem Dev.setPanel_testPort (p' : Nat) : (d.setPanel p x).testPort p' = d.testPort p' := rfl
@[simp] theorem Dev.setPanel_inService : (d.setPanel p x).inService = d.inService := rfl
end setPanel

section setPort
variable (d : Dev) (k : Nat) (x : StackPort)
@[simp] theorem Dev.setPort_port_self : (d.setPort k x).port k = x := Tbl.get_set_self _ _ _ _
theorem Dev.setPort_port_ne {j : Nat} (h : j ≠ k) : (d.setPort k x).port j = d.port j := Tbl.get_set_ne _ _ h _
@[simp] theorem Dev.setPort_fn (f' : Nat) : (d.setPort k x).fn f' = d.fn f' := rfl
@[simp] theorem Dev.setPort_queue (q' : QRef) : (d.setPort k x).queue q' = d.queue q' := by cases q' <;> rfl
@[simp] theorem Dev.setPort_ctx (c' : Nat) : (d.setPort k x).ctx c' = d.ctx c' := rfl
@[simp] theorem Dev.setPort_gang (h' g' : Nat) : (d.setPort k x).gang h' g' = d.gang h' g' := rfl
@[simp] theorem Dev.setPort_part (p' i' : Nat) : (d.setPort k x).part p' i' = d.part p' i' := rfl
@[simp] theorem Dev.setPort_grant (g' : Nat) : (d.setPort k x).grant g' = d.grant g' := rfl
@[simp] theorem Dev.setPort_site (k' : Nat) : (d.setPort k x).site k' = d.site k' := rfl
@[simp] theorem Dev.setPort_core (k' : Nat) : (d.setPort k x).core k' = d.core k' := rfl
@[simp] theorem Dev.setPort_siteOf (i' : Nat) : (d.setPort k x).siteOf i' = d.siteOf i' := rfl
@[simp] theorem Dev.setPort_panel (p' : Nat) : (d.setPort k x).panel p' = d.panel p' := rfl
@[simp] theorem Dev.setPort_link (l' : Nat) : (d.setPort k x).link l' = d.link l' := rfl
@[simp] theorem Dev.setPort_testPort (p' : Nat) : (d.setPort k x).testPort p' = d.testPort p' := rfl
@[simp] theorem Dev.setPort_inService : (d.setPort k x).inService = d.inService := rfl
end setPort

section setLink
variable (d : Dev) (l : Nat) (x : Link)
@[simp] theorem Dev.setLink_link_self : (d.setLink l x).link l = x := Tbl.get_set_self _ _ _ _
theorem Dev.setLink_link_ne {j : Nat} (h : j ≠ l) : (d.setLink l x).link j = d.link j := Tbl.get_set_ne _ _ h _
@[simp] theorem Dev.setLink_fn (f' : Nat) : (d.setLink l x).fn f' = d.fn f' := rfl
@[simp] theorem Dev.setLink_queue (q' : QRef) : (d.setLink l x).queue q' = d.queue q' := by cases q' <;> rfl
@[simp] theorem Dev.setLink_ctx (c' : Nat) : (d.setLink l x).ctx c' = d.ctx c' := rfl
@[simp] theorem Dev.setLink_gang (h' g' : Nat) : (d.setLink l x).gang h' g' = d.gang h' g' := rfl
@[simp] theorem Dev.setLink_part (p' i' : Nat) : (d.setLink l x).part p' i' = d.part p' i' := rfl
@[simp] theorem Dev.setLink_grant (g' : Nat) : (d.setLink l x).grant g' = d.grant g' := rfl
@[simp] theorem Dev.setLink_site (k' : Nat) : (d.setLink l x).site k' = d.site k' := rfl
@[simp] theorem Dev.setLink_core (k' : Nat) : (d.setLink l x).core k' = d.core k' := rfl
@[simp] theorem Dev.setLink_siteOf (i' : Nat) : (d.setLink l x).siteOf i' = d.siteOf i' := rfl
@[simp] theorem Dev.setLink_panel (p' : Nat) : (d.setLink l x).panel p' = d.panel p' := rfl
@[simp] theorem Dev.setLink_port (k' : Nat) : (d.setLink l x).port k' = d.port k' := rfl
@[simp] theorem Dev.setLink_testPort (p' : Nat) : (d.setLink l x).testPort p' = d.testPort p' := rfl
@[simp] theorem Dev.setLink_inService : (d.setLink l x).inService = d.inService := rfl
end setLink

section setTest
variable (d : Dev) (p : Nat) (x : TestPort)
@[simp] theorem Dev.setTest_testPort_self : (d.setTest p x).testPort p = x := Tbl.get_set_self _ _ _ _
theorem Dev.setTest_testPort_ne {j : Nat} (h : j ≠ p) : (d.setTest p x).testPort j = d.testPort j := Tbl.get_set_ne _ _ h _
@[simp] theorem Dev.setTest_fn (f' : Nat) : (d.setTest p x).fn f' = d.fn f' := rfl
@[simp] theorem Dev.setTest_queue (q' : QRef) : (d.setTest p x).queue q' = d.queue q' := by cases q' <;> rfl
@[simp] theorem Dev.setTest_ctx (c' : Nat) : (d.setTest p x).ctx c' = d.ctx c' := rfl
@[simp] theorem Dev.setTest_gang (h' g' : Nat) : (d.setTest p x).gang h' g' = d.gang h' g' := rfl
@[simp] theorem Dev.setTest_part (p' i' : Nat) : (d.setTest p x).part p' i' = d.part p' i' := rfl
@[simp] theorem Dev.setTest_grant (g' : Nat) : (d.setTest p x).grant g' = d.grant g' := rfl
@[simp] theorem Dev.setTest_site (k' : Nat) : (d.setTest p x).site k' = d.site k' := rfl
@[simp] theorem Dev.setTest_core (k' : Nat) : (d.setTest p x).core k' = d.core k' := rfl
@[simp] theorem Dev.setTest_siteOf (i' : Nat) : (d.setTest p x).siteOf i' = d.siteOf i' := rfl
@[simp] theorem Dev.setTest_panel (p' : Nat) : (d.setTest p x).panel p' = d.panel p' := rfl
@[simp] theorem Dev.setTest_port (k' : Nat) : (d.setTest p x).port k' = d.port k' := rfl
@[simp] theorem Dev.setTest_link (l' : Nat) : (d.setTest p x).link l' = d.link l' := rfl
@[simp] theorem Dev.setTest_inService : (d.setTest p x).inService = d.inService := rfl
end setTest

/-! ## Fields of a core, a link and the memories under their writers -/

section modCmd
variable (c : Core) (uid : Nat) (f : Cmd → Cmd)
@[simp] theorem Core.modCmd_arrived : (c.modCmd uid f).arrived = c.arrived := rfl
@[simp] theorem Core.modCmd_banks : (c.modCmd uid f).banks = c.banks := rfl
@[simp] theorem Core.modCmd_aspects : (c.modCmd uid f).aspects = c.aspects := rfl
@[simp] theorem Core.modCmd_rings : (c.modCmd uid f).rings = c.rings := rfl
@[simp] theorem Core.modCmd_lastAdm : (c.modCmd uid f).lastAdm = c.lastAdm := rfl
@[simp] theorem Core.modCmd_tmem : (c.modCmd uid f).tmem = c.tmem := rfl
@[simp] theorem Core.modCmd_opu : (c.modCmd uid f).opu = c.opu := rfl
@[simp] theorem Core.modCmd_fab : (c.modCmd uid f).fab = c.fab := rfl
@[simp] theorem Core.modCmd_stores : (c.modCmd uid f).stores = c.stores := rfl
@[simp] theorem Core.modCmd_tlb : (c.modCmd uid f).tlb = c.tlb := rfl
@[simp] theorem Core.modCmd_halt : (c.modCmd uid f).halt = c.halt := rfl
@[simp] theorem Core.modCmd_reqs : (c.modCmd uid f).reqs = c.reqs := rfl
@[simp] theorem Core.modCmd_nextReq : (c.modCmd uid f).nextReq = c.nextReq := rfl
@[simp] theorem Core.modCmd_fitting : (c.modCmd uid f).fitting = c.fitting := rfl
@[simp] theorem Core.modCmd_wdCount : (c.modCmd uid f).wdCount = c.wdCount := rfl
@[simp] theorem Core.modCmd_moved : (c.modCmd uid f).moved = c.moved := rfl
@[simp] theorem Core.modCmd_clearing : (c.modCmd uid f).clearing = c.clearing := rfl
end modCmd

section setDir
variable (x : Link) (up : Bool) (y : LinkDir)
@[simp] theorem Link.setDir_dir_self : (x.setDir up y).dir up = y := by cases up <;> rfl
@[simp] theorem Link.setDir_dir_other : (x.setDir up y).dir (!up) = x.dir (!up) := by cases up <;> rfl
@[simp] theorem Link.setDir_formed : (x.setDir up y).formed = x.formed := by cases up <;> rfl
@[simp] theorem Link.setDir_lost : (x.setDir up y).lost = x.lost := by cases up <;> rfl
@[simp] theorem Link.setDir_replayWin : (x.setDir up y).replayWin = x.replayWin := by cases up <;> rfl
@[simp] theorem Link.setDir_replayTotal : (x.setDir up y).replayTotal = x.replayTotal := by cases up <;> rfl
@[simp] theorem Link.setDir_phy : (x.setDir up y).phy = x.phy := by cases up <;> rfl
@[simp] theorem modDir_eq (d : Dev) (l : Nat) (up : Bool) (f : LinkDir → LinkDir) :
    modDir d l up f = d.setLink l ((d.link l).setDir up (f ((d.link l).dir up))) := rfl
end setDir

@[simp] theorem MemSys.clean_stack (m : MemSys) (g : Nat) : (m.clean g).stack = m.stack := rfl
@[simp] theorem MemSys.clean_host (m : MemSys) (g : Nat) : (m.clean g).host = m.host := rfl
@[simp] theorem MemSys.clean_hostBad (m : MemSys) (g : Nat) : (m.clean g).hostBad = m.hostBad := rfl

/-! ## Modifiers as a read and a write -/

@[simp] theorem Dev.modFn_eq (d : Dev) (f : Nat) (u : FuncSt → FuncSt) : d.modFn f u = d.setFn f (u (d.fn f)) := rfl
@[simp] theorem Dev.modQueue_eq (d : Dev) (q : QRef) (u : Queue → Queue) : d.modQueue q u = d.setQueue q (u (d.queue q)) := rfl
@[simp] theorem Dev.modCtx_eq (d : Dev) (c : Nat) (u : Ctx → Ctx) : d.modCtx c u = d.setCtx c (u (d.ctx c)) := rfl
@[simp] theorem Dev.modSite_eq (d : Dev) (k : Nat) (u : Site → Site) : d.modSite k u = d.setSite k (u (d.site k)) := rfl
@[simp] theorem Dev.modCore_eq (d : Dev) (k : Nat) (u : Core → Core) : d.modCore k u = d.setCore k (u (d.core k)) := rfl
@[simp] theorem Dev.modPanel_eq (d : Dev) (p : Nat) (u : Panel → Panel) : d.modPanel p u = d.setPanel p (u (d.panel p)) := rfl
@[simp] theorem Dev.modPort_eq (d : Dev) (k : Nat) (u : StackPort → StackPort) : d.modPort k u = d.setPort k (u (d.port k)) := rfl

end Sys2Proof.Machine
end

