-- ==== Sys2Proof/Laws/Memory.lean ====
section
/-! SUPPORT. Memory: the canonical form and what one byte reads as after a write; then, for every operation that writes memory, the one lemma
that says what it can change: memory, which stays canonical, the buffers of the stack ports and the host port. -/

namespace Sys2Proof.Machine

namespace Memory

theorem wfFrom_mono {lo lo' : Nat} (h : lo' ≤ lo) : ∀ {m : List Host.Cell}, wfFrom lo m = true → wfFrom lo' m = true
  | [], _ => rfl
  | (b, v) :: t, hm => by
    simp only [wfFrom, Bool.and_eq_true, decide_eq_true_eq] at hm ⊢
    exact ⟨⟨Nat.le_trans h hm.1.1, hm.1.2⟩, hm.2⟩

theorem wfFrom_set {a : Nat} (v : Byte) : ∀ {lo : Nat} {m : List Host.Cell}, lo ≤ a → wfFrom lo m = true → wfFrom lo (set a v m) = true
  | lo, [], h, _ => by
    unfold set
    split
    · rfl
    · rename_i hv
      simp only [wfFrom, Bool.and_eq_true, decide_eq_true_eq, bne_iff_ne]
      exact ⟨⟨h, hv⟩, trivial⟩
  | lo, (b, w) :: t, h, hm => by
    simp only [wfFrom, Bool.and_eq_true, decide_eq_true_eq, bne_iff_ne] at hm
    unfold set
    split
    · rename_i hb
      simp only [wfFrom, Bool.and_eq_true, decide_eq_true_eq, bne_iff_ne]
      exact ⟨hm.1, wfFrom_set v hb hm.2⟩
    · split
      · rename_i hb hab
        subst hab
        split
        · exact wfFrom_mono (Nat.le_succ_of_le hm.1.1) hm.2
        · rename_i hv
          simp only [wfFrom, Bool.and_eq_true, decide_eq_true_eq, bne_iff_ne]
          exact ⟨⟨h, hv⟩, hm.2⟩
      · rename_i hb hab
        split
        · simp only [wfFrom, Bool.and_eq_true, decide_eq_true_eq, bne_iff_ne]
          exact hm
        · rename_i hv
          simp only [wfFrom, Bool.and_eq_true, decide_eq_true_eq, bne_iff_ne]
          exact ⟨⟨h, hv⟩, ⟨by omega, hm.1.2⟩, hm.2⟩

theorem wf_set {a : Nat} (v : Byte) {m : List Host.Cell} (h : wf m = true) : wf (set a v m) = true := wfFrom_set v (Nat.zero_le a) h

theorem wf_write : ∀ (vs : List Byte) (a : Nat) {m : List Host.Cell}, wf m = true → wf (write a vs m) = true
  | [], _, _, h => h
  | v :: vs, a, _, h => wf_write vs (a + 1) (wf_set v h)

theorem wf_writeEn : ∀ (vs : List Byte) (es : List Bool) (a : Nat) {m : List Host.Cell}, wf m = true → wf (writeEn a vs es m) = true
  | [], _, _, _, h => h
  | _ :: _, [], _, _, h => h
  | v :: vs, e :: es, a, _, h => by
    unfold writeEn
    refine wf_writeEn vs es (a + 1) ?_
    split
    · exact wf_set v h
    · exact h

theorem wfFrom_filter (f : Host.Cell → Bool) : ∀ {lo : Nat} {m : List Host.Cell}, wfFrom lo m = true → wfFrom lo (m.filter f) = true
  | _, [], _ => rfl
  | lo, (b, v) :: t, h => by
    simp only [wfFrom, Bool.and_eq_true, decide_eq_true_eq, bne_iff_ne] at h
    rw [List.filter_cons]
    split
    · simp only [wfFrom, Bool.and_eq_true, decide_eq_true_eq, bne_iff_ne]
      exact ⟨h.1, wfFrom_filter f h.2⟩
    · exact wfFrom_mono (by omega) (wfFrom_filter f h.2)

theorem wf_filter (f : Host.Cell → Bool) {m : List Host.Cell} (h : wf m = true) : wf (m.filter f) = true := wfFrom_filter f h

/-- Nothing below the bound of a canonical list is listed. -/
theorem get_below : ∀ {lo : Nat} {m : List Host.Cell} {a : Nat}, wfFrom lo m = true → a < lo → get a m = unlisted
  | _, [], _, _, _ => rfl
  | lo, (b, v) :: t, a, h, ha => by
    simp only [wfFrom, Bool.and_eq_true, decide_eq_true_eq] at h
    unfold get
    rw [if_neg (by omega), if_neg (by omega)]

theorem get_set_self_from {a : Nat} (v : Byte) : ∀ {lo : Nat} {m : List Host.Cell}, wfFrom lo m = true → get a (set a v m) = v
  | _, [], _ => by
    unfold set
    split
    · rename_i hv; rw [hv]; rfl
    · simp [get]
  | lo, (b, w) :: t, h => by
    have h' := h
    simp only [wfFrom, Bool.and_eq_true, decide_eq_true_eq] at h
    unfold set
    split
    · rename_i hb
      simp only [get]
      rw [if_neg (by omega), if_pos hb]
      exact get_set_self_from v h.2
    · split
      · rename_i hb hab
        subst hab
        split
        · rename_i hv; rw [hv]; exact get_below h.2 (Nat.lt_succ_self _)
        · simp [get]
      · rename_i hb hab
        split
        · rename_i hv
          simp only [get]
          rw [if_neg hab, if_neg hb, hv]
        · simp [get]

theorem get_set_ne_from {a c : Nat} (hc : c ≠ a) (v : Byte) :
    ∀ {lo : Nat} {m : List Host.Cell}, wfFrom lo m = true → get c (set a v m) = get c m
  | _, [], _ => by
    unfold set
    split
    · rfl
    · simp only [get]; rw [if_neg (Ne.symm hc)]; split <;> rfl
  | lo, (b, w) :: t, h => by
    simp only [wfFrom, Bool.and_eq_true, decide_eq_true_eq] at h
    unfold set
    split
    · simp only [get, get_set_ne_from hc v h.2]
    · split
      · rename_i hb hab
        subst hab
        split
        · simp only [get]
          rw [if_neg (Ne.symm hc)]
          split
          · rfl
          · exact get_below h.2 (by omega)
        · simp only [get]; rw [if_neg (Ne.symm hc), if_neg (Ne.symm hc)]
      · rename_i hb hab
        split
        · rfl
        · simp only [get]
          rw [if_neg (Ne.symm hc)]
          split
          · rfl
          · rw [if_neg (by omega), if_neg (by omega)]

/-- A byte written reads back. -/
theorem get_set_self {a : Nat} (v : Byte) {m : List Host.Cell} (h : wf m = true) : get a (set a v m) = v := get_set_self_from v h

/-- Every other byte is as it was. -/
theorem get_set_ne {a c : Nat} (hc : c ≠ a) (v : Byte) {m : List Host.Cell} (h : wf m = true) : get c (set a v m) = get c m :=
  get_set_ne_from hc v h

/-- Bytes written from `a` upward leave every byte outside as it was. -/
theorem get_write_out : ∀ (vs : List Byte) {a c : Nat} {m : List Host.Cell}, wf m = true → (c < a ∨ a + vs.length ≤ c) →
    get c (write a vs m) = get c m
  | [], _, _, _, _, _ => rfl
  | v :: vs, a, c, m, h, hc => by
    simp only [List.length_cons] at hc
    unfold write
    rw [get_write_out vs (wf_set v h) (by omega), get_set_ne (by omega) v h]

/-- A byte of a canonical list after a filter on addresses. -/
theorem get_filter_from (f : Nat → Bool) : ∀ {lo : Nat} {m : List Host.Cell} {a : Nat}, wfFrom lo m = true →
    get a (m.filter (fun c => f c.1)) = if f a then get a m else unlisted
  | _, [], a, _ => by cases f a <;> rfl
  | lo, (b, v) :: t, a, h => by
    simp only [wfFrom, Bool.and_eq_true, decide_eq_true_eq] at h
    have ih := get_filter_from f (a := a) h.2
    rw [List.filter_cons]
    by_cases hf : f b = true
    · rw [if_pos hf]
      simp only [get, ih]
      by_cases hb : b = a
      · subst hb; simp [hf]
      · rw [if_neg hb, if_neg hb]
        by_cases hl : b < a
        · rw [if_pos hl, if_pos hl]
        · rw [if_neg hl, if_neg hl]; cases f a <;> rfl
    · rw [if_neg hf, ih]
      by_cases hb : b = a
      · subst hb; simp [hf]
      · simp only [get]
        rw [if_neg hb]
        by_cases hl : b < a
        · rw [if_pos hl]
        · rw [if_neg hl]; split
          · exact get_below h.2 (by omega)
          · rfl

end Memory

/-! ## What an operation on memory can change -/

/-- `t` is `s` with memory, the buffers of stack ports and the host port rewritten, memory canonical where it was. -/
structure MemStep (s t : State) : Prop where
  params : t.params = s.params
  pending : t.pending = s.pending
  dev : t.dev = { s.dev with ports := t.dev.ports, host := t.dev.host }
  canon : MemoryCanonical s → MemoryCanonical t

theorem MemStep.refl (s : State) : MemStep s s := ⟨rfl, rfl, rfl, id⟩

theorem MemStep.trans {s t u : State} (h : MemStep s t) (k : MemStep t u) : MemStep s u where
  params := k.params.trans h.params
  pending := k.pending.trans h.pending
  dev := by rw [k.dev]; conv => { lhs; rw [h.dev] }
  canon := fun c => k.canon (h.canon c)

theorem MemStep.fold {α : Type} (f : State → α → State) (h : ∀ s a, MemStep s (f s a)) : ∀ (l : List α) (s : State), MemStep s (l.foldl f s)
  | [], s => .refl s
  | a :: l, s => (h s a).trans (MemStep.fold f h l (f s a))

/-- The bytes go to the granule the host port holds, or out on the initiator channel: host memory itself is not touched (R412, R514). -/
theorem hostPiece_step (s : State) (func ctx a : Nat) (coh : Bool) (bs : List Byte) (be : List Bool) :
    MemStep s (hostPiece s func ctx a coh bs be) := by
  unfold hostPiece
  split <;> exact ⟨rfl, rfl, rfl, id⟩

theorem putGran_step (s : State) (key addr : Nat) (data : List Byte) (en : Nat) : MemStep s (putGran s key addr data en) := by
  unfold putGran
  dsimp only
  split
  · exact .refl s
  · split
    · refine ⟨rfl, rfl, rfl, fun c => ?_⟩
      split <;> exact c
    · refine ⟨rfl, rfl, rfl, fun c => ?_⟩
      split <;> exact ⟨Memory.wf_writeEn _ _ _ c.1, c.2⟩

theorem physPiece_step (s : State) (func ctx pa : Nat) (bs : List Byte) (be : List Bool) : MemStep s (physPiece s func ctx pa bs be) := by
  unfold physPiece
  split
  · exact putGran_step _ _ _ _ _
  · exact hostPiece_step _ _ _ _ _ _ _

theorem writePiece_step (s : State) (func ctx : Nat) (t : Target) (bs : List Byte) (be : List Bool) :
    MemStep s (writePiece s func ctx t bs be) := by
  cases t
  · exact physPiece_step _ _ _ _ _ _
  · exact hostPiece_step _ _ _ _ _ _ _

theorem dPut_step (panel ctx : Nat) : ∀ (l : List (Nat × Nat)) (s : State) (bs : List Byte), MemStep s (dPut s panel ctx bs l)
  | [], s, _ => .refl s
  | (va, k) :: rest, s, bs => by
    unfold dPut
    refine MemStep.trans ?_ (dPut_step panel ctx rest _ _)
    split
    · exact writePiece_step _ _ _ _ _ _
    · exact .refl s

/-- R402: a write of a dispatch unit that is carried out changes memory alone. -/
theorem dWrite_step {s t : State} {panel ctx va : Nat} {bs : List Byte} (h : dWrite s panel ctx va bs = .ok t) : MemStep s t := by
  unfold dWrite at h
  cases hc : dCheck s panel ctx va bs.length with
  | error x => rw [hc] at h; cases h
  | ok u => rw [hc] at h; cases h; exact dPut_step _ _ _ _ _

/-- R429: the wipe of a range changes memory alone. -/
theorem zeroRange_step (s : State) (base n : Nat) : MemStep s (zeroRange s base n) := by
  unfold zeroRange
  split
  · exact ⟨rfl, rfl, rfl, fun c => ⟨c.1, Memory.wf_filter _ c.2⟩⟩
  · exact ⟨rfl, rfl, rfl, fun c => ⟨Memory.wf_filter _ c.1, c.2⟩⟩

end Sys2Proof.Machine
end

