-- ==== Sys2Proof/Laws/Objects.lean ====
section
/-! SUPPORT. Entries of the object tables: what a rewrite of one entry reads back as, and the values of tacks after their actions. -/

namespace Sys2Proof.Machine

theorem Table.empty_get (n i : Nat) : (Table.empty n).get i = Entry.zero := rfl

theorem updAt_getD_self {α : Type} (f : α → α) (e : α) : ∀ (i : Nat) (l : List α), i < l.length → (updAt f i l).getD i e = f (l.getD i e)
  | _, [], h => absurd h (Nat.not_lt_zero _)
  | 0, _ :: _, _ => rfl
  | i + 1, _ :: l, h => by
    simp only [updAt, List.getD_cons_succ]
    exact updAt_getD_self f e i l (Nat.lt_of_succ_lt_succ h)

theorem updAt_getD_ne {α : Type} (f : α → α) (e : α) : ∀ (i j : Nat) (l : List α), j ≠ i → (updAt f i l).getD j e = l.getD j e
  | i, _, [], _ => by cases i <;> rfl
  | 0, 0, _ :: _, h => absurd rfl h
  | 0, _ + 1, _ :: _, _ => rfl
  | _ + 1, 0, _ :: _, _ => rfl
  | i + 1, j + 1, _ :: l, h => by
    simp only [updAt, List.getD_cons_succ]
    exact updAt_getD_ne f e i j l (fun e => h (by rw [e]))

@[simp] theorem Table.put_get_self (t : Table) (i : Nat) (e : Entry) : (t.put i e).get i = e := Tbl.get_set_self _ _ _ _

theorem Table.put_get_ne (t : Table) {i j : Nat} (e : Entry) (h : j ≠ i) : (t.put i e).get j = t.get j := Tbl.get_set_ne _ _ h _

/-- An entry that is not free reads back as it was written. -/
theorem Dev.modEntry_entry_self (d : Dev) (r : ObjRef) (f : Entry → Entry) (h : d.entry r ≠ Entry.zero) :
    (d.modEntry r f).entry r = f (d.entry r) := by
  unfold Dev.entry Dev.modEntry at *
  dsimp only at *
  obtain ⟨typ, slot⟩ := r
  by_cases h0 : typ = 0
  · subst h0; exact absurd (Table.empty_get 0 0) h
  by_cases h2 : typ = 2
  · subst h2
    have hl : slot / 8192 < d.objs.tacks.length := by
      refine Nat.lt_of_not_le fun hle => h ?_
      simp only [Objects.table, List.getD_eq_getElem?_getD, List.getElem?_eq_none hle, Option.getD_none]
      rfl
    simp only [Objects.table, Objects.setTable, updAt_getD_self _ _ _ _ hl, Table.put_get_self]
  · by_cases h3 : typ = 3
    · subst h3
      have hl : slot / 1024 < d.objs.bobbins.length := by
        refine Nat.lt_of_not_le fun hle => h ?_
        simp only [Objects.table, List.getD_eq_getElem?_getD, List.getElem?_eq_none hle, Option.getD_none]
        rfl
      simp only [Objects.table, Objects.setTable, updAt_getD_self _ _ _ _ hl, Table.put_get_self]
    · by_cases h4 : typ = 4
      · subst h4; simp [Objects.table, Objects.setTable]
      · by_cases h5 : typ = 5
        · subst h5; simp [Objects.table, Objects.setTable]
        · by_cases h6 : typ = 6
          · subst h6; simp [Objects.table, Objects.setTable]
          · simp only [Objects.table, Objects.setTable, Table.put_get_self]

theorem Entry.zero_payload : Entry.zero.payload = .none := rfl

/-- A tack whose entry holds it directly reads its own value. -/
theorem tackVal_of_payload {d : Dev} {r : ObjRef} {v : Word} {g : List Nat} {b : Bool} (h : (d.entry r).payload = .tack v g b) :
    tackVal d r = (v, b) := by
  have hr : tackOf d r = r := by unfold tackOf; rw [h]
  unfold tackVal; rw [hr, h]

/-- The end of waits changes no object. -/
@[simp] theorem tackVal_endWaits (d : Dev) (slot : Nat) (c : Word) (r : ObjRef) : tackVal (endWaits d slot c) r = tackVal d r := rfl

/-- A tack's value after it is set. -/
theorem tackVal_setTack {d : Dev} {r : ObjRef} {v : Word} {g : List Nat} {b : Bool} (h : (d.entry r).payload = .tack v g b) (w : Word) :
    tackVal (setTack d r w) r = (w, b) := by
  have hr : tackOf d r = r := by unfold tackOf; rw [h]
  have hz : d.entry r ≠ Entry.zero := by
    intro e; rw [e, Entry.zero_payload] at h; cases h
  refine tackVal_of_payload (g := g) ?_
  unfold setTack
  rw [hr, Dev.modEntry_entry_self d r _ hz, h]

end Sys2Proof.Machine
end

