-- ==== Sys2Proof/Laws/Refs.lean ====
section
/-! SUPPORT. What dropping references, releasing objects and the allocator can change: the object tables and, through heap metadata, memory. -/

namespace Sys2Proof.Machine

/-- `t` is `s` with the object tables, memory, the buffers of stack ports and the host port rewritten, memory canonical where it was. -/
structure RefStep (s t : State) : Prop where
  params : t.params = s.params
  pending : t.pending = s.pending
  dev : t.dev = { s.dev with objs := t.dev.objs, ports := t.dev.ports, host := t.dev.host }
  canon : MemoryCanonical s → MemoryCanonical t

theorem RefStep.refl (s : State) : RefStep s s := ⟨rfl, rfl, rfl, id⟩

theorem RefStep.trans {s t u : State} (h : RefStep s t) (k : RefStep t u) : RefStep s u where
  params := k.params.trans h.params
  pending := k.pending.trans h.pending
  dev := by rw [k.dev]; conv => { lhs; rw [h.dev] }
  canon := fun c => k.canon (h.canon c)

theorem RefStep.fold {α : Type} (f : State → α → State) (h : ∀ s a, RefStep s (f s a)) : ∀ (l : List α) (s : State), RefStep s (l.foldl f s)
  | [], s => .refl s
  | a :: l, s => (h s a).trans (RefStep.fold f h l (f s a))

theorem MemStep.ref {s t : State} (h : MemStep s t) : RefStep s t :=
  ⟨h.params, h.pending, by rw [h.dev], h.canon⟩

/-- A rewrite of the object tables alone. -/
theorem RefStep.ofObjs (s : State) (g : Dev → Dev) (h : g s.dev = { s.dev with objs := (g s.dev).objs }) : RefStep s (s.upd g) where
  params := rfl
  pending := rfl
  dev := by
    have e : ∀ d, d = ({ s.dev with objs := d.objs } : Dev) → d = { s.dev with objs := d.objs, ports := d.ports, host := d.host } := by
      intro d hd; rw [hd]
    exact e _ h
  canon := id

theorem modEntry_objs (d : Dev) (r : ObjRef) (f : Entry → Entry) : d.modEntry r f = { d with objs := (d.modEntry r f).objs } := rfl
theorem freeEntry_objs (d : Dev) (r : ObjRef) : freeEntry d r = { d with objs := (freeEntry d r).objs } := rfl
theorem dropLeaf_objs (d : Dev) (r : ObjRef) : dropLeaf d r = { d with objs := (dropLeaf d r).objs } := by
  unfold dropLeaf
  dsimp only
  split <;> rfl

theorem putCode_step {s t : State} {ctx base i c : Nat} (h : putCode s ctx base i c = .ok t) : MemStep s t := by
  unfold putCode at h
  dsimp only at h
  cases hr : dRead s heapPanel ctx (base + 64 + i / 4) 1 with
  | error x => rw [hr] at h; cases h
  | ok bs => rw [hr] at h; exact dWrite_step h

theorem putCodes_step {ctx base : Nat} : ∀ (cs : List Nat) {s t : State} {i : Nat}, putCodes s ctx base i cs = .ok t → MemStep s t
  | [], s, t, _, h => by cases h; exact .refl s
  | c :: cs, s, t, i, h => by
    unfold putCodes at h
    cases hp : putCode s ctx base i c with
    | error x => rw [hp] at h; cases h
    | ok u => rw [hp] at h; exact (putCode_step hp).trans (putCodes_step cs h)

/-- R386: a FREE that succeeds changes memory alone. -/
theorem heapFree_step {s t : State} {ctx base l n a : Nat} (h : heapFree s ctx base l n a = .ok t) : MemStep s t := by
  unfold heapFree at h
  split at h
  · cases h
  · cases h
  · split at h
    · cases h
    · split at h
      · cases h
      · cases h
      · dsimp only at h
        split at h
        · cases h
        · split at h
          · cases h
          · rename_i hc
            split at h
            · cases h
            · rename_i hf
              cases h
              exact (putCodes_step _ hc).trans (dWrite_step hf)

/-- R385: an ALLOC that succeeds changes memory alone. -/
theorem heapAlloc_step {s t : State} {ctx base l n k a : Nat} (h : heapAlloc s ctx base l n k = .ok (t, a)) : MemStep s t := by
  unfold heapAlloc at h
  split at h
  · cases h
  · cases h
  · split at h
    · cases h
    · cases h
    · split at h
      · cases h
      · split at h
        · cases h
        · rename_i hc
          split at h
          · cases h
          · rename_i hf
            cases h
            exact (putCodes_step _ hc).trans (dWrite_step hf)

/-- Freeing an idle entry (R365, R381, R389). -/
theorem settle_step (s : State) (r : ObjRef) : RefStep s (settle s r) := by
  unfold settle
  split
  · dsimp only
    have h1 : RefStep s (s.upd (fun d => freeEntry d r)) := .ofObjs s _ (freeEntry_objs _ _)
    split
    · exact h1.trans (.ofObjs _ _ (dropLeaf_objs _ _))
    · refine h1.trans (RefStep.trans ?_ (.ofObjs _ _ (dropLeaf_objs _ _)))
      split
      · split
        · rename_i hf; exact (heapFree_step hf).ref
        · exact .refl _
      · exact .refl _
    · exact h1
  · exact .refl s

theorem dropRef_step (s : State) (r : ObjRef) : RefStep s (dropRef s r) :=
  (RefStep.ofObjs s (fun d => subRef d r) (modEntry_objs _ _ _)).trans (settle_step _ r)

theorem dropRefs_step (s : State) (rs : List ObjRef) : RefStep s (dropRefs s rs) := RefStep.fold dropRef dropRef_step rs s

theorem releaseObj_step (s : State) (r : ObjRef) : RefStep s (releaseObj s r) :=
  (RefStep.ofObjs s _ (modEntry_objs _ _ _)).trans (settle_step _ r)

/-- Queues are as they were. -/
theorem RefStep.queue {s t : State} (h : RefStep s t) (q : QRef) : t.dev.queue q = s.dev.queue q := by
  rw [h.dev]; cases q <;> rfl

theorem MemStep.queue {s t : State} (h : MemStep s t) (q : QRef) : t.dev.queue q = s.dev.queue q := h.ref.queue q

end Sys2Proof.Machine
end

