-- ==== Sys2Proof/WellFormed.lean ====
section
/-! DEFINITION. Operands in range: each operand of a command is checked against the width the manual gives the port or field it
comes in on, for an instance with given parameters. -/

namespace Sys2Proof

namespace QRef
/-- Functions are 8 bits wide; instance queue numbers run from 0 to 4,095 (R240, R243). -/
def wf : QRef → Bool
  | .ctl f => decide (f < 256)
  | .work n => decide (n < 4096)
end QRef

namespace RingRef
/-- Context slots run from 0 to 1,023 (R355). -/
def wf : RingRef → Bool
  | .context c => decide (c < 1024)
  | _ => true
end RingRef

namespace Ecc
/-- A logical row and column of the array (R95). -/
def wf (p : Params) : Ecc → Bool
  | .accFixed r c => decide (r < p.opuDim) && decide (c < p.opuDim)
  | _ => true
end Ecc

/-- A panel and a core site of the instance (R5). -/
def siteWf (p : Params) (panel site : Nat) : Bool := decide (panel < p.panels) && decide (site < p.sites)

/-- A panel and a stack port of it (R392). -/
def portWf (p : Params) (panel port : Nat) : Bool := decide (panel < p.panels) && decide (port < p.stackPorts)

/-- An accumulate unit: of a stack port, or the host port's, named as port 15 of panel 0 (R412). -/
def unitWf (p : Params) (panel port : Nat) : Bool := portWf p panel port || (p.hostCoupled && panel == 0 && port == 15)

/-- A link, a direction and a module of it (R14, R498). -/
def modWf (p : Params) (link module : Nat) : Bool := decide (link < p.links) && decide (module < 26)

/-- A site key: 144 × panel + site. -/
def keyWf (p : Params) (key : Nat) : Bool := siteWf p (key / 144) (key % 144)

/-- A logical core index (R12). -/
def coreWf (core : Nat) : Bool := decide (core < 512)

namespace Instr

/-- Every operand lies within the width of its port or field. -/
def wf (p : Params) : Instr → Bool
  | ctxCreate q | ctxConfig q | ctxDestroy q | queueCreate q | queueDestroy q | gangCreate q | gangDestroy q | resume q
  | fwLoad q | resetDevice q | funcReset q | partClear q | retire q | insert q | health q | spdm q
  | copy q | fill q | accClear q | stats q | descWrite q | matmul q | fabLoad q | fabRun q | chain q
  | bar q | seam q | tackWait q | tackSignal q | tackAdd q | bobbinSet q
  | objCreate q | objRelease q | tackCreate q | tackExport q | tackImport q | bobbinCreate q | seamCreate q | heapSetup q
  | alloc q | free q | xlateInval q | query q
  | patternDefine q | replay q | patch q | loop q | endloop q | predCmp q | predClip q | mark q | fitting q
  | packetRetire q => q.wf
  | multicast q parity => q.wf && (match parity with | some c => decide (c < 512) | none => true)
  | submitGranule f win off data =>
    decide (f < 256) && (decide (win < 224) || win == 0xFFFF) && decide (off < 256) && decide (off + data.length ≤ 256)
  | restart f win _ | restartFlush f win _ => decide (f < 256) && (decide (win < 224) || win == 0xFFFF)
  | waitTackResume slot => decide (slot < 8192 * p.panels)
  | coreCompletion c _ => coreWf c
  | ringCfgWrite f r _ | ringHeadWrite f r _ => decide (f < 256) && r.wf
  | heldFaultRecordWrite f | faultRecordRetry f | flrRequest f => decide (f < 256)
  | interruptSend f v => decide (f < 256) && decide (v < 64)
  | intCtlWrite f _ | intMaskWrite f _ | intPendClear f _ => decide (f < 256)
  | registerWrite f off _ => decide (f < 256) && decide (off < 1048576)
  | partitionEntryWrite panel i _ => decide (panel < 4) && decide (i < 16)
  | grantW1Write g _ | grantStore g _ | grantIssue g _ | grantKeepUpdate g _ | grantRevoke g _ | grantFenceWipe g _
  | grantPurgeDone g | grantWipeDone g => decide (g < 512)
  | functionEntryWrite f _ | qosEntryWrite f _ => decide (f < 256)
  | stackPortGrant panel port | stackReadyFall panel port | remapGranuleCopy panel port => portWf p panel port
  | accumulateOp panel port => unitWf p panel port
  | apertureRead f a nw => decide (f < 256) && decide (a < 2 ^ 53) && decide (nw < 64)
  | apertureWrite f a data be => decide (f < 256) && decide (a < 2 ^ 53) && data.length == be.length && decide (a % 256 + data.length ≤ 256)
  | hostResponse t _ data => decide (t < 1024) && decide (data.length ≤ 256)
  | hostRequestAbandon t => decide (t ≤ 1024)
  | snoopRequest g _ => decide (g < 2 ^ 64) && g % 64 == 0
  | holdInChange panel code => decide (panel < p.panels) && decide (code < 8)
  | pkgpwrSample w => decide (w < 65536)
  | stackReadResponse panel port sub tag st =>
    portWf p panel port && decide (sub < 8) && decide (tag < 256) && decide (st < 16)
  | stackWriteAck panel port sub tag st => portWf p panel port && decide (sub < 8) && decide (tag < 256) && decide (st < 4)
  | stackReadyRise panel port cap _ => portWf p panel port && decide (cap < 2 ^ 34)
  | accWriteback panel port g => unitWf p panel port && decide (g < 2 ^ 64)
  | pageWalkComplete panel _ => decide (panel < p.panels)
  | admission c | commandBlockRead c | bundleCopy c | bobbinTake c | stallWatchdog c | kernelRunStart c | kernelRunEnd c
  | fabLoadComplete c | seamStart c | fittingEdge c => coreWf c
  | swatchCopy c store => coreWf c && decide (store < 4)
  | granuleIssue c run _ => coreWf c && decide (run < 18)
  | writeUnitSend c run e => coreWf c && decide (run < 18) && e.wf p
  | readDataArrival c _ => coreWf c
  | mcastFreeReport m run i => coreWf m && coreWf i && decide (run < 16)
  | watchdogAbort c src => coreWf c && coreWf src
  | sidePortRead c _ e => coreWf c && e.wf p
  | beatIssue c e | drainRowRead c e | accLoad c e => coreWf c && e.wf p
  | fabricTick c rets e => coreWf c && e.wf p && rets.all (fun r => decide (r.port < 8) && decide (r.tag < 4))
  | seamRelease slot | partitionEpisodeComplete slot => decide (slot < 4096)
  | flitReceive l _ m _ => modWf p l m
  | laneRepair l _ m _ => modWf p l m
  | laneRepairDone l _ => decide (l < p.links)
  | optionLoad a b => a.length == 8192 && b.length == 8192
  | sramBist fails shared =>
    fails.all (fun f => siteWf p f.panel f.site && decide (f.bank ≤ 64)) &&
    shared.all (fun i => decide (i / 16 < p.panels) && decide (i % 16 < 8))
  | linkTraining rs => rs.all (fun r => modWf p r.link r.module && decide (r.state < 4) && r.steps.length == 68 && r.errs.length == 68)
  | microcodePageFetch panel site page got => siteWf p panel site && decide (page < 64) && got.length == 4096
  | testCapture panel sel _ => decide (panel < p.panels) && decide (sel < 4)
  | testShift panel sel _ => decide (panel < p.panels) && decide (sel < 4)
  | testUpdate panel sel => decide (panel < p.panels) && decide (sel < 4)
  | testReset panel _ | testModeChange panel _ => decide (panel < p.panels)
  | partitionClearDone panel part => decide (panel < p.panels) && decide (part < 16)
  | quiesceRefetch failed => failed.all (keyWf p)
  | fatalResetTimer shared => shared.all (fun u => [3, 4, 5, 6, 7, 9].contains u)
  | pwrokChange _ panel | rstNChange _ panel | rootclkWindow _ panel | rootclkMissing panel | pwrAlertAssert panel | pwrAlertDeassert panel =>
    decide (panel < p.panels)
  | bootImageVerify _ _ _ _ _ | resetKeyDisarm _ => true
  | resetKeyArm | resetKeyFire | resetKeyTimeout | qosWindowStart | resetHoldExpire | resetRelease
  | powerWindow | healthWindowEnd | optRdyTimeout | logicBist
  | stackTrainingTimeout | stackWipe | fwQuiesceTimeout | backupSupplyFailure | targetChannelReady => true

end Instr

end Sys2Proof
end

