-- ==== Sys2Proof/Tests/Slice0.lean ====
section
/-! SUPPORT. Tests: ill-formed operands refused, one step on small states, and for every clause of every statement of Obligations.lean a state
and operands that meet its hypotheses (the name of a test says which clauses). Expected values come from the manual. -/

namespace Sys2Proof.Tests.Slice0

set_option Elab.async false
open Sys2Proof Sys2Proof.Machine
set_option maxRecDepth 20000

/-! ## Small states, and packets at step 10 of R254 -/
/-- The block in service. -/
def svc : State := State.reset.upd (fun d => { d with boot := { d.boot with phase := 8, ready := true, targetReady := true } })
/-- Header W0 of a row's packet of `n` granules. -/
def hdr (row : OpRow) (n : Nat) : Word := BitVec.ofNat 64 (row.opc * 2 ^ 56 + row.cls * 2 ^ 52 + (n - 1) * 2 ^ 50)
/-- A packet of a row with the given body words at step 10. -/
def pk (q : QRef) (row : OpRow) (b : List Word) : Pkt :=
  { newPkt q (Queue.control 0) 0 0 0xFFFF (hdr row ((b.length + 9) / 8) :: 0 :: b) none with stage := .atTen }
/-- The state with that packet alone in flight in its queue. -/
def held (q : QRef) (row : OpRow) (b : List Word) (s : State) : State :=
  s.upd (fun d => { d.setQueue q { Queue.control 0 with flight := [pk q row b] } with nextUid := 1 })

theorem reach_ten {sem : OpSem} {q : QRef} {s : State} {p : Pkt} (hf : (s.dev.queue q).flight.find? Pkt.inside = some p)
    (h1 : mayGoOn s.dev q = true) (hp : p.stage = .atTen) (h2 : p.isOp sem.row = true) : reach sem q s = .ten s p := by
  have hn : nextPkt s q = .again p := by
    unfold nextPkt; simp only [hf]; simp [h1, hp]
  unfold Machine.reach; rw [hn]; dsimp only
  have ht : rowTakes sem.row p = true := by unfold rowTakes; rw [h2]; rfl
  rw [if_pos ht]; unfold steps2; rw [hp]; rfl

theorem at10 {sem : OpSem} {H : QRef → State → Pkt → Prop} (q : QRef) (b : List Word) (s : State)
    (h3 : H q (held q sem.row b s) (pk q sem.row b))
    (hf : ((held q sem.row b s).dev.queue q).flight.find? Pkt.inside = some (pk q sem.row b) := by decide +kernel)
    (h1 : mayGoOn (held q sem.row b s).dev q = true := by decide +kernel)
    (h2 : (pk q sem.row b).isOp sem.row = true := by decide +kernel) :
    ∃ q s s1 p, reach sem q s = .ten s1 p ∧ H q s1 p :=
  ⟨q, _, _, _, reach_ten hf h1 rfl h2, h3⟩

theorem zero_lowest {n : Nat} {f : Nat → Bool} (h0 : 0 < n) (h : f 0 = true) : IsLowest n f 0 := ⟨h0, h, fun m hm => by omega⟩

theorem some_of {α : Type} {o : Option α} (h : o.isSome = true) : ∃ a, o = some a := Option.isSome_iff_exists.mp h
theorem some_of2 {α β : Type} {o : Option (α × β)} (h : o.isSome = true) : ∃ a b, o = some (a, b) := by
  obtain ⟨⟨a, b⟩, h⟩ := Option.isSome_iff_exists.mp h; exact ⟨a, b, h⟩
theorem ok_of {ε α : Type} {e : Except ε α} (h : e.toBool = true) : ∃ a, e = .ok a := by
  cases e with | ok a => exact ⟨a, rfl⟩ | error x => cases h
theorem error_of {ε α : Type} {e : Except ε α} (h : e.toBool = false) : ∃ x, e = .error x := by
  cases e with | ok a => cases h | error x => exact ⟨x, rfl⟩
/-- Which constructor an allocator's answer has. -/
def heapTag {α : Type} : HeapRes α → Nat | .fault _ => 0 | .bad => 1 | .none => 2 | .ok _ => 3
theorem heap_ok_of {α β : Type} {r : HeapRes (α × β)} (h : heapTag r = 3) : ∃ a b, r = .ok (a, b) := by
  cases r with | ok a => exact ⟨a.1, a.2, rfl⟩ | _ => cases h
theorem heap_ok_of1 {α : Type} {r : HeapRes α} (h : heapTag r = 3) : ∃ a, r = .ok a := by
  cases r with | ok a => exact ⟨a, rfl⟩ | _ => cases h
theorem heap_none_of {α : Type} {r : HeapRes α} (h : heapTag r = 2) : r = .none := by cases r <;> first | rfl | cases h
theorem heap_bad_of {α : Type} {r : HeapRes α} (h : heapTag r = 1) : r = .bad := by cases r <;> first | rfl | cases h
theorem heap_fault_of {α : Type} {r : HeapRes α} (h : heapTag r = 0) : ∃ x, r = .fault x := by
  cases r with | fault x => exact ⟨x, rfl⟩ | _ => cases h

/-- A reach that comes to step 10, with a test of what it leaves. -/
def tenIs (r : Reach) (P : State → Pkt → Bool) : Bool := match r with | .ten s p => P s p | .out _ => false
theorem ten_of {r : Reach} {P : State → Pkt → Bool} (h : tenIs r P = true) : ∃ s p, r = .ten s p ∧ P s p = true := by
  cases r with | ten s p => exact ⟨s, p, rfl, h⟩ | out s => cases h

theorem get_fill {α : Type} (d v : α) (n k : Nat) (h : k < n) : Tbl.get d k ((List.range n).map (fun i => (i, v))) = v := by
  have aux : ∀ (m a : Nat), a ≤ k → k < a + m → Tbl.get d k ((List.range' a m).map (fun i => (i, v))) = v := by
    intro m
    induction m with
    | zero => intro a h1 h2; omega
    | succ m ih =>
      intro a h1 h2
      rw [List.range'_succ, List.map_cons]
      unfold Tbl.get
      by_cases e : a = k
      · rw [if_pos e]
      · rw [if_neg e]; exact ih (a + 1) (by omega) (by omega)
  rw [List.range_eq_range']; exact aux n 0 (by omega) (by omega)

/-- A leaf for context `c` that maps the first GiB to host memory. -/
def hostLeaf (c : Nat) : TlbEntry := ⟨c, 0, 30, 0, 0x400000000000000F#64⟩
/-- In service, with that leaf for context 0x3FF in the cache of every panel and bytes in host memory. -/
def svcM (m : List Host.Cell) : State :=
  { svc.upd (fun d => { d with panels := [(0, { Panel.zero with tlb := [hostLeaf 0x3FF] })] }) with mem := { svc.mem with host := m } }
/-- The device with an object entry. -/
def withObj (r : ObjRef) (owner : Nat) (p : Payload) (s : State) : State :=
  s.upd (fun d => d.modEntry r (fun _ => ⟨true, 1, true, 0, owner, p⟩))

theorem test_context_packets :
    (∃ q s s1 p, reach semCtxCreate q s = .ten s1 p ∧ ∃ c, IsLowest 1024 (fun k => !(s1.dev.ctx k).live) c) ∧
    (∃ q s s1 p, reach semCtxCreate q s = .ten s1 p ∧ NoneBelow 1024 (fun k => !(s1.dev.ctx k).live)) ∧
    (∃ q s s1 p, reach semCtxConfig q s = .ten s1 p ∧ fld (p.b 0) 9 0 = 1023) ∧ (∃ q s s1 p, reach semCtxDestroy q s = .ten s1 p ∧ True) :=
  ⟨at10 (.ctl 0) [0,0,0,0,0,0] svc ⟨0, zero_lowest (by decide) (by decide)⟩,
   at10 (.ctl 0) [0,0,0,0,0,0] (svc.upd (fun d => { d with ctxs := (List.range 1024).map (fun i => (i, { Ctx.none with live := true })) }))
     (fun m h => by
       show (!(Tbl.get Ctx.none m ((List.range 1024).map (fun i => (i, { Ctx.none with live := true })))).live) = false
       rw [get_fill _ _ _ _ h]; rfl),
   at10 (.ctl 0) [0x103FF,0,0,0,0,0] svc (by decide),
   at10 (.ctl 0) [5,0,0,0,0,0] svc trivial⟩

def full4096 : State := svc.upd (fun d => { d with queues := (List.range 4096).map (fun i => (i, { Queue.none with live := true })) })

theorem test_queue_packets :
    (∃ q s s1 p n, reach semQueueCreate q s = .ten s1 p ∧ refetches s1.dev (s1.dev.gang (fld (p.b 0) 45 44) (fld (p.b 0) 43 38)).mask = false ∧
      IsLowest 4096 (fun k => !(s1.dev.queue (.work k)).live) n) ∧
    (∃ q s s1 p, reach semQueueCreate q s = .ten s1 p ∧ refetches s1.dev (s1.dev.gang (fld (p.b 0) 45 44) (fld (p.b 0) 43 38)).mask = false ∧
      NoneBelow 4096 (fun k => !(s1.dev.queue (.work k)).live)) ∧
    (∃ q s s1 p, reach semQueueCreate q s = .ten s1 p ∧ refetches s1.dev (s1.dev.gang (fld (p.b 0) 45 44) (fld (p.b 0) 43 38)).mask = true) ∧
    (∃ q s s1 p n, reach semQueueDestroy q s = .ten s1 p ∧ Tbl.get 0 (fld (p.b 0) 7 0) (s1.dev.fn p.func).windows = n + 1) := by
  refine ⟨?_, ?_, ?_, ?_⟩
  · obtain ⟨q, s, s1, p, h, h2⟩ := at10 (sem := semQueueCreate) (H := fun _ s1 p => refetches s1.dev (s1.dev.gang (fld (p.b 0) 45 44) (fld (p.b 0) 43 38)).mask = false ∧
      IsLowest 4096 (fun k => !(s1.dev.queue (.work k)).live) 0) (.ctl 0) [0,0,0,0,0,0] svc ⟨by decide, zero_lowest (by decide) (by decide)⟩
    exact ⟨q, s, s1, p, 0, h, h2⟩
  · refine at10 (.ctl 0) [0,0,0,0,0,0] full4096 ⟨by decide +kernel, fun m h => ?_⟩
    show (!(Tbl.get Queue.none m ((List.range 4096).map (fun i => (i, { Queue.none with live := true })))).live) = false
    rw [get_fill _ _ _ _ h]; rfl
  · exact at10 (.ctl 0) [0,0,0,0,0,0] (svc.upd (fun d => { d with gangs := [(0, ⟨true, 0, 0, 1⟩)], sites := [(0, { Site.zero with index := 1 })], mc := { d.mc with single := some (0, 0, []) } })) (by decide +kernel)
  · obtain ⟨q, s, s1, p, h, h2⟩ := at10 (sem := semQueueDestroy) (H := fun _ s1 p => Tbl.get 0 (fld (p.b 0) 7 0) (s1.dev.fn p.func).windows = 6) (.ctl 0) [223,0,0,0,0,0]
      (svc.upd (fun d => d.modFn 0 (fun x => { x with windows := [(223, 6)] }))) (by decide) (by decide) (by decide) (by decide)
    exact ⟨q, s, s1, p, 5, h, h2⟩

/-- A command in a core: a row's packet as a core that is its gang's only member receives it. -/
def cmdOf (row : OpRow) (b : List Word) : Cmd := newCmd svc.dev { pk (.work 0) row b with uid := 7 } 0 1 0
/-- One core in service at site 0 with logical index 0. -/
def oneCore (c : Core) (s : State) : State :=
  s.upd (fun d => { d with logical := [(0, 1)], sites := [(0, { Site.zero with st := .active, index := 1 })], cores := [(0, c)] })

/-! ## Objects, gangs and queries -/

theorem test_gang_packets :
    (∃ q s s1 p g, reach semGangCreate q s = .ten s1 p ∧ refetches s1.dev (gangMask p) = false ∧
      (∀ pl ∈ maskPanels s1.dev (gangMask p), gangsIn s1.dev pl < 64) ∧ IsLowest 64 (fun k => !(s1.dev.gang (fld (p.b 0) 1 0) k).live) g) ∧
    (∃ q s s1 p, reach semGangCreate q s = .ten s1 p ∧ refetches s1.dev (gangMask p) = false ∧
      NoneBelow 64 (fun k => !(s1.dev.gang (fld (p.b 0) 1 0) k).live)) ∧
    (∃ q s s1 p, reach semGangCreate q s = .ten s1 p ∧ refetches s1.dev (gangMask p) = false ∧
      ∃ pl ∈ maskPanels s1.dev (gangMask p), 64 ≤ gangsIn s1.dev pl) ∧
    (∃ q s s1 p, reach semGangDestroy q s = .ten s1 p ∧ True) := by
  refine ⟨?_, ?_, ?_, at10 (.ctl 0) [5,0,0,0,0,0] svc trivial⟩
  · obtain ⟨q, s, s1, p, h, h2⟩ := at10 (sem := semGangCreate) (H := fun _ s1 p => refetches s1.dev (gangMask p) = false ∧
      (∀ pl ∈ maskPanels s1.dev (gangMask p), gangsIn s1.dev pl < 64) ∧ IsLowest 64 (fun k => !(s1.dev.gang (fld (p.b 0) 1 0) k).live) 0)
      (.ctl 0) [1,7,0,0,0,0,0,0,0,0,0,0,0,0] (svc.upd (fun d => { d with logical := [(0, 1)] }))
      ⟨by decide +kernel, by decide +kernel, zero_lowest (by decide) (by decide +kernel)⟩
    exact ⟨q, s, s1, p, 0, h, h2⟩
  · refine at10 (.ctl 0) [0,7,0,0,0,0,0,0,0,0,0,0,0,0] (svc.upd (fun d => { d with gangs := (List.range 64).map (fun i => (i, ⟨true, 0, 0, 0⟩)) }))
      ⟨by decide +kernel, fun m h => ?_⟩
    show (!(Tbl.get Gang.none (0 * 64 + m) ((List.range 64).map (fun i => (i, (⟨true, 0, 0, 0⟩ : Gang))))).live) = false
    rw [Nat.zero_mul, Nat.zero_add, get_fill _ _ _ _ h]; rfl
  · exact at10 (.ctl 0) [1,1,0,0,0,0,0,0,0,0,0,0,0,0]
      (svc.upd (fun d => { d with logical := [(0, 1)], gangs := (List.range 64).map (fun i => (i, ⟨true, 0, 0, 1⟩)) }))
      ⟨by decide +kernel, 0, by decide +kernel, by decide +kernel⟩

/-- Tables with no free number. -/
def noRoom : Objects :=
  ⟨.empty 0, .empty 0, .empty 0, .empty 0, List.replicate 4 (.empty 0), List.replicate 4 (.empty 0)⟩

theorem test_creating_packets :
    (∃ q s s1 p, reach semTackCreate q s = .ten s1 p ∧ ∃ r d, s1.dev.create 2 (fld (p.b 0) 1 0) p.func (.tack (p.b 1) [] false) = some (r, d)) ∧
    (∃ q s s1 p, reach semBobbinCreate q s = .ten s1 p ∧ ∃ r d, s1.dev.create 3 (fld (p.b 0) 1 0) p.func (.bobbin 0 0) = some (r, d)) ∧
    (∃ q s s1 p, reach semSeamCreate q s = .ten s1 p ∧ ∃ r d, s1.dev.create 4 0 p.func (.seam (fld (p.b 0) 1 0) none none) = some (r, d)) ∧
    (∃ q s s1 p, reach semObjCreate q s = .ten s1 p ∧ backingHeap s1 p.ctx (p.b 0).toNat (p.b 1).toNat = none ∧
      ∃ r d, s1.dev.create 1 0 p.ctx (.memObj (p.b 0).toNat (p.b 1).toNat none) = some (r, d)) ∧
    (∃ q s s1 p, reach semObjCreate q s = .ten s1 p ∧ backingHeap s1 p.ctx (p.b 0).toNat (p.b 1).toNat = some 0 ∧
      ∃ r d, s1.dev.create 1 0 p.ctx (.memObj (p.b 0).toNat (p.b 1).toNat (some 0)) = some (r, d)) ∧
    (∃ q s s1 p, reach semTackImport q s = .ten s1 p ∧ ∃ r d, s1.dev.create 7 0 p.func (.imported (fld (p.b 1) 19 0)) = some (r, d)) ∧
    (∃ q s s1 p, reach semTackCreate q s = .ten s1 p ∧ s1.dev.create 2 (fld (p.b 0) 1 0) p.func (.tack (p.b 1) [] false) = none) ∧
    (∃ q s s1 p, reach semBobbinCreate q s = .ten s1 p ∧ s1.dev.create 3 (fld (p.b 0) 1 0) p.func (.bobbin 0 0) = none) ∧
    (∃ q s s1 p, reach semSeamCreate q s = .ten s1 p ∧ s1.dev.create 4 0 p.func (.seam (fld (p.b 0) 1 0) none none) = none) ∧
    (∃ q s s1 p, reach semObjCreate q s = .ten s1 p ∧
      s1.dev.create 1 0 p.ctx (.memObj (p.b 0).toNat (p.b 1).toNat (backingHeap s1 p.ctx (p.b 0).toNat (p.b 1).toNat)) = none) ∧
    (∃ q s s1 p, reach semTackImport q s = .ten s1 p ∧ s1.dev.create 7 0 p.func (.imported (fld (p.b 1) 19 0)) = none) :=
  ⟨at10 (.work 0) [1,7,0,0,0,0] svc (some_of2 (by decide +kernel)),
   at10 (.work 0) [1,0,0,0,0,0] svc (some_of2 (by decide +kernel)),
   at10 (.work 0) [1,0,0,0,0,0] svc (some_of2 (by decide +kernel)),
   at10 (.work 0) [0x1000,4096,0,0,0,0] svc ⟨by decide +kernel, some_of2 (by decide +kernel)⟩,
   at10 (.work 0) [0x11000,4096,0,0,0,0] (withObj ⟨6, 0⟩ 0x3FF (.heap 0x10000 12 8) (svcM [(0x10040, 0x07)]))
     ⟨by decide +kernel, some_of2 (by decide +kernel)⟩,
   at10 (.work 0) [0,0x21000003,0,0,0,0] svc (some_of2 (by decide +kernel)),
   at10 (.work 0) [1,7,0,0,0,0] (svc.upd (fun d => { d with objs := noRoom })) (by decide +kernel),
   at10 (.work 0) [1,0,0,0,0,0] (svc.upd (fun d => { d with objs := noRoom })) (by decide +kernel),
   at10 (.work 0) [1,0,0,0,0,0] (svc.upd (fun d => { d with objs := noRoom })) (by decide +kernel),
   at10 (.work 0) [0x1000,4096,0,0,0,0] (svc.upd (fun d => { d with objs := noRoom })) (by decide +kernel),
   at10 (.work 0) [0,0x21000003,0,0,0,0] (svc.upd (fun d => { d with objs := noRoom })) (by decide +kernel)⟩

theorem test_table_takes_both_ways :
    (∃ (t : Table) (i : Nat) (t' : Table), t.take = some (i, t') ∧ t.fresh < t.size) ∧
    (∃ (t : Table) (i : Nat) (t' : Table), t.take = some (i, t') ∧ t.size ≤ t.fresh) :=
  ⟨⟨.empty 1, 0, ⟨1, [], 1, []⟩, by decide, by decide⟩, ⟨⟨1, [], 1, [0]⟩, 0, ⟨1, [], 1, []⟩, by decide, by decide⟩⟩

theorem test_release_export_query_packets :
    (∃ q s s1 p, reach semObjRelease q s = .ten s1 p ∧ True) ∧
    (∃ q s s1 p, reach semTackExport q s = .ten s1 p ∧ fld (p.b 1) 7 0 ≠ p.func ∧ fld (p.b 1) 7 0 ∈ grantList s1.dev (objB0 p)) ∧
    (∃ q s s1 p, reach semTackExport q s = .ten s1 p ∧ fld (p.b 1) 7 0 ≠ p.func ∧
      ∃ v g b, (s1.dev.entry (objB0 p)).payload = .tack v g b ∧ fld (p.b 1) 7 0 ∉ g ∧ g.length < 4) ∧
    (∃ q s s1 p, reach semTackExport q s = .ten s1 p ∧ fld (p.b 1) 7 0 = p.func) ∧
    (∃ q s s1 p, reach semTackExport q s = .ten s1 p ∧ fld (p.b 1) 7 0 ∉ grantList s1.dev (objB0 p) ∧
      4 ≤ (grantList s1.dev (objB0 p)).length) ∧
    (∃ q s s1 p, reach semXlateInval q s = .ten s1 p ∧ ctxRequests (s1.dev.purge p.ctx (p.b 0).toNat (p.b 1).toNat) p.ctx = false) ∧
    (∃ q s s1 p, reach semXlateInval q s = .ten s1 p ∧ ctxRequests (s1.dev.purge p.ctx (p.b 0).toNat (p.b 1).toNat) p.ctx = true) ∧
    (∃ q s s1 p, reach semQuery q s = .ten s1 p ∧ ∃ s2,
      dWrite (queryTouch s1 p) (s1.dev.queue p.q).home p.ctx (p.b 0).toNat (wordsToBytes (queryRecord s1 p.ctx)) = .ok s2) ∧
    (∃ q s s1 p, reach semQuery q s = .ten s1 p ∧ ∃ x,
      dWrite (queryTouch s1 p) (s1.dev.queue p.q).home p.ctx (p.b 0).toNat (wordsToBytes (queryRecord s1 p.ctx)) = .error x) :=
  ⟨at10 (.work 0) [0x10000000,0,0,0,0,0] svc trivial,
   at10 (.work 0) [0x20000005,3,0,0,0,0] (withObj ⟨2, 5⟩ 0 (.tack 0 [1, 3] false) svc) (by decide +kernel),
   at10 (.work 0) [0x20000005,4,0,0,0,0] (withObj ⟨2, 5⟩ 0 (.tack 0 [1, 2, 3] false) svc) ⟨by decide +kernel, 0, [1, 2, 3], false, by decide +kernel⟩,
   at10 (.work 0) [0x20000005,0,0,0,0,0] svc (by decide +kernel),
   at10 (.work 0) [0x20000005,5,0,0,0,0] (withObj ⟨2, 5⟩ 0 (.tack 0 [1, 2, 3, 4] false) svc) (by decide +kernel),
   at10 (.work 0) [0,0,0,0,0,0] svc (by decide +kernel),
   at10 (.work 0) [0,0,0,0,0,0] (oneCore { Core.zero with cmds := [{ cmdOf rowFill [] with acks := 1 }] } svc) (by decide +kernel),
   at10 (.work 0) [0x400,0,0,0,0,0] (svcM []) (ok_of (by decide +kernel)),
   at10 (.work 0) [0x400,0,0,0,0,0] svc (error_of (by decide +kernel))⟩

/-! ## Tacks, bobbins and heaps -/

/-- A packet of a row at step 10 of work queue 0 whose wait has ended. -/
def endedPkt (row : OpRow) (b : List Word) : Pkt := { pk (.work 0) row b with waitEnded := true }

theorem test_tack_and_bobbin_packets :
    (∃ q s s1 p, reach semTackWait q s = .ten s1 p ∧ p.waitEnded = true) ∧
    (∃ q s s1 p, reach semTackWait q s = .ten s1 p ∧ p.b 0 = 0) ∧
    (∃ q s s1 p, reach semTackWait q s = .ten s1 p ∧ p.waitEnded = false ∧ p.b 0 ≠ 0 ∧
      ∃ c, tackVal s1.dev (objB0 p) = (c, false) ∧ 0 ≤ (c - p.b 1).toInt) ∧
    (∃ q s s1 p, reach semTackWait q s = .ten s1 p ∧ p.waitEnded = false ∧ p.b 0 ≠ 0 ∧
      ∃ c, tackVal s1.dev (objB0 p) = (c, false) ∧ (c - p.b 1).toInt < 0) ∧
    (∃ q s s1 p, reach semTackWait q s = .ten s1 p ∧ p.waitEnded = false ∧ p.b 0 ≠ 0 ∧ ∃ c, tackVal s1.dev (objB0 p) = (c, true)) ∧
    (∃ q s s1 p, reach semTackSignal q s = .ten s1 p ∧ True) ∧ (∃ q s s1 p, reach semTackAdd q s = .ten s1 p ∧ True) ∧
    (∃ q s s1 p, reach semBobbinSet q s = .ten s1 p ∧
      ∀ x ∈ (s1.dev.queue p.q).flight, x.uid = p.uid ∨ x.done = true ∨ objB0 p ∉ x.holds) ∧
    (∃ q s s1 p, reach semBobbinSet q s = .ten s1 p ∧
      ∃ x, x ∈ (s1.dev.queue p.q).flight ∧ x.uid ≠ p.uid ∧ x.done = false ∧ objB0 p ∈ x.holds) :=
  ⟨⟨.work 0, svc.upd (fun d => d.setQueue (.work 0) { Queue.control 0 with flight := [endedPkt rowTackWait [0x20000005,7,0,0,0,0]] }), _,
     endedPkt rowTackWait [0x20000005,7,0,0,0,0],
     reach_ten (by decide +kernel) (by decide +kernel) rfl (by decide +kernel), rfl⟩,
   at10 (.work 0) [0,7,0,0,0,0] svc (by decide +kernel),
   at10 (.work 0) [0x20000005,7,0,0,0,0] (withObj ⟨2, 5⟩ 0 (.tack 7 [] false) svc) ⟨rfl, by decide +kernel, 7, by decide +kernel, by decide +kernel⟩,
   at10 (.work 0) [0x20000005,0x8000000000000000,0,0,0,0] (withObj ⟨2, 5⟩ 0 (.tack 0 [] false) svc)
     ⟨rfl, by decide +kernel, 0, by decide +kernel, by decide +kernel⟩,
   at10 (.work 0) [0x20000005,7,0,0,0,0] (withObj ⟨2, 5⟩ 0 (.tack 7 [] true) svc) ⟨rfl, by decide +kernel, 7, by decide +kernel⟩,
   at10 (.work 0) [0x20000005,7,0,0,0,0] svc trivial, at10 (.work 0) [0x20000005,7,0,0,0,0] svc trivial,
   at10 (.work 0) [0x30000005,1,2,0,0,0] svc (by decide +kernel),
   let b : List Word := [0x30000005,1,2,0,0,0]
   let e : Pkt := { pk (.work 0) rowMatmul [] with uid := 5, stage := .left, fate := .accepted, holds := [⟨3, 5⟩] }
   let s := svc.upd (fun d => d.setQueue (.work 0) { Queue.control 0 with flight := [e, pk (.work 0) rowBobbinSet b] })
   ⟨.work 0, s, s, pk (.work 0) rowBobbinSet b, reach_ten (by decide +kernel) (by decide +kernel) (by decide +kernel) (by decide +kernel), e,
     by decide +kernel, by decide +kernel, by decide +kernel, by decide +kernel⟩⟩

/-- A heap of eight 4 KiB blocks at 64 KiB of context 0x3FF: its header, then the bytes over it. -/
def heapWith (bs : List Host.Cell) : State :=
  withObj ⟨6, 0⟩ 0x3FF (.heap 0x10000 12 8)
    (svcM (bs.foldl (fun m c => Memory.set c.1 c.2 m) (Memory.write 0x10000 (heapMeta 12 8) [])))

theorem test_heap_setup_packets :
    (∃ q s s1 p l n, reach semHeapSetup q s = .ten s1 p ∧ l = Nat.log2 (p.b 2).toNat ∧ n = (p.b 1).toNat / (p.b 2).toNat ∧
      (∃ r d, s1.dev.create 6 0 p.ctx (.heap (p.b 0).toNat l n) = some (r, d)) ∧
      ∃ s2, dWrite (heapStart s1 p (p.b 0).toNat n) heapPanel p.ctx (p.b 0).toNat (heapMeta l n) = .ok s2) ∧
    (∃ q s s1 p l n, reach semHeapSetup q s = .ten s1 p ∧ l = Nat.log2 (p.b 2).toNat ∧ n = (p.b 1).toNat / (p.b 2).toNat ∧
      s1.dev.create 6 0 p.ctx (.heap (p.b 0).toNat l n) = none) ∧
    (∃ q s s1 p l n, reach semHeapSetup q s = .ten s1 p ∧ l = Nat.log2 (p.b 2).toNat ∧ n = (p.b 1).toNat / (p.b 2).toNat ∧
      (∃ r d, s1.dev.create 6 0 p.ctx (.heap (p.b 0).toNat l n) = some (r, d)) ∧
      ∃ x, dWrite (heapStart s1 p (p.b 0).toNat n) heapPanel p.ctx (p.b 0).toNat (heapMeta l n) = .error x) := by
  refine ⟨?_, ?_, ?_⟩
  · obtain ⟨q, s, s1, p, h, h2⟩ := at10 (sem := semHeapSetup) (H := fun _ s1 p =>
      (∃ r d, s1.dev.create 6 0 p.ctx (.heap (p.b 0).toNat (Nat.log2 (p.b 2).toNat) ((p.b 1).toNat / (p.b 2).toNat)) = some (r, d)) ∧
      ∃ s2, dWrite (heapStart s1 p (p.b 0).toNat ((p.b 1).toNat / (p.b 2).toNat)) heapPanel p.ctx (p.b 0).toNat
        (heapMeta (Nat.log2 (p.b 2).toNat) ((p.b 1).toNat / (p.b 2).toNat)) = .ok s2)
      (.work 0) [0x10000,0x8000,0x1000,0,0,0] (svcM []) ⟨some_of2 (by decide +kernel), ok_of (by decide +kernel)⟩
    exact ⟨q, s, s1, p, _, _, h, rfl, rfl, h2⟩
  · obtain ⟨q, s, s1, p, h, h2⟩ := at10 (sem := semHeapSetup) (H := fun _ s1 p =>
      s1.dev.create 6 0 p.ctx (.heap (p.b 0).toNat (Nat.log2 (p.b 2).toNat) ((p.b 1).toNat / (p.b 2).toNat)) = none)
      (.work 0) [0x10000,0x8000,0x1000,0,0,0] (svc.upd (fun d => { d with objs := noRoom })) (by decide +kernel)
    exact ⟨q, s, s1, p, _, _, h, rfl, rfl, h2⟩
  · obtain ⟨q, s, s1, p, h, h2⟩ := at10 (sem := semHeapSetup) (H := fun _ s1 p =>
      (∃ r d, s1.dev.create 6 0 p.ctx (.heap (p.b 0).toNat (Nat.log2 (p.b 2).toNat) ((p.b 1).toNat / (p.b 2).toNat)) = some (r, d)) ∧
      ∃ x, dWrite (heapStart s1 p (p.b 0).toNat ((p.b 1).toNat / (p.b 2).toNat)) heapPanel p.ctx (p.b 0).toNat
        (heapMeta (Nat.log2 (p.b 2).toNat) ((p.b 1).toNat / (p.b 2).toNat)) = .error x)
      (.work 0) [0x10000,0x8000,0x1000,0,0,0] svc ⟨some_of2 (by decide +kernel), error_of (by decide +kernel)⟩
    exact ⟨q, s, s1, p, _, _, h, rfl, rfl, h2⟩

theorem test_alloc_packets :
    (∃ q s s1 p, reach semAlloc q s = .ten s1 p ∧ ∃ b l n, (s1.dev.entry (objB0 p)).payload = .heap b l n ∧
      ∃ s2 a, heapAlloc (heapStart s1 p b n) p.ctx b l n (ceilDiv (p.b 1).toNat (2 ^ l)) = .ok (s2, a)) ∧
    (∃ q s s1 p, reach semAlloc q s = .ten s1 p ∧ ∃ b l n, (s1.dev.entry (objB0 p)).payload = .heap b l n ∧
      heapAlloc (heapStart s1 p b n) p.ctx b l n (ceilDiv (p.b 1).toNat (2 ^ l)) = .none) ∧
    (∃ q s s1 p, reach semAlloc q s = .ten s1 p ∧ ∀ b l n, (s1.dev.entry (objB0 p)).payload ≠ .heap b l n) ∧
    (∃ q s s1 p, reach semAlloc q s = .ten s1 p ∧ ∃ b l n, (s1.dev.entry (objB0 p)).payload = .heap b l n ∧
      heapAlloc (heapStart s1 p b n) p.ctx b l n (ceilDiv (p.b 1).toNat (2 ^ l)) = .bad) ∧
    (∃ q s s1 p, reach semAlloc q s = .ten s1 p ∧ ∃ b l n, (s1.dev.entry (objB0 p)).payload = .heap b l n ∧
      ∃ x, heapAlloc (heapStart s1 p b n) p.ctx b l n (ceilDiv (p.b 1).toNat (2 ^ l)) = .fault x) :=
  ⟨at10 (.work 0) [0x60000000,4097,0,0,0,0] (heapWith []) ⟨0x10000, 12, 8, by decide +kernel, heap_ok_of (by decide +kernel)⟩,
   at10 (.work 0) [0x60000000,0x8001,0,0,0,0] (heapWith []) ⟨0x10000, 12, 8, by decide +kernel, heap_none_of (by decide +kernel)⟩,
   at10 (.work 0) [0,1,0,0,0,0] svc (fun b l n h => by cases h),
   at10 (.work 0) [0x60000000,1,0,0,0,0] (heapWith [(0x10000, 0xFF)]) ⟨0x10000, 12, 8, by decide +kernel, heap_bad_of (by decide +kernel)⟩,
   at10 (.work 0) [0x60000000,1,0,0,0,0] (withObj ⟨6, 0⟩ 0x3FF (.heap 0x10000 12 8) svc)
     ⟨0x10000, 12, 8, by decide +kernel, heap_fault_of (by decide +kernel)⟩⟩

theorem test_free_packets :
    (∃ q s s1 p, reach semFree q s = .ten s1 p ∧ ∃ b l n, (s1.dev.entry (objB0 p)).payload = .heap b l n ∧
      backedAt s1.dev (objB0 p).slot (p.b 1).toNat = false ∧ ∃ s2, heapFree (heapStart s1 p b n) p.ctx b l n (p.b 1).toNat = .ok s2) ∧
    (∃ q s s1 p, reach semFree q s = .ten s1 p ∧ ∃ b l n, (s1.dev.entry (objB0 p)).payload = .heap b l n ∧
      backedAt s1.dev (objB0 p).slot (p.b 1).toNat = false ∧ heapFree (heapStart s1 p b n) p.ctx b l n (p.b 1).toNat = .bad) ∧
    (∃ q s s1 p, reach semFree q s = .ten s1 p ∧ ∃ b l n, (s1.dev.entry (objB0 p)).payload = .heap b l n ∧
      backedAt s1.dev (objB0 p).slot (p.b 1).toNat = false ∧ ∃ x, heapFree (heapStart s1 p b n) p.ctx b l n (p.b 1).toNat = .fault x) ∧
    (∃ q s s1 p, reach semFree q s = .ten s1 p ∧ backedAt s1.dev (objB0 p).slot (p.b 1).toNat = true) :=
  ⟨at10 (.work 0) [0x60000000,0x11000,0,0,0,0] (heapWith [(0x10040, 0x07)])
     ⟨0x10000, 12, 8, by decide +kernel, by decide +kernel, heap_ok_of1 (by decide +kernel)⟩,
   at10 (.work 0) [0x60000000,0x11000,0,0,0,0] (heapWith [])
     ⟨0x10000, 12, 8, by decide +kernel, by decide +kernel, heap_bad_of (by decide +kernel)⟩,
   at10 (.work 0) [0x60000000,0x10000,0,0,0,0] (withObj ⟨6, 0⟩ 0x3FF (.heap 0x10000 12 8) svc)
     ⟨0x10000, 12, 8, by decide +kernel, by decide +kernel, heap_fault_of (by decide +kernel)⟩,
   at10 (.work 0) [0x60000000,0x10000,0,0,0,0] (withObj ⟨1, 0⟩ 0x3FF (.memObj 0x10000 4096 (some 0)) (heapWith [])) (by decide +kernel)⟩

theorem test_first_fit_passes_short_runs : freeRun [0x91, 0x01] 2 0 0 0 8 = some 5 ∧ freeRun [0x91, 0x01] 4 0 0 0 8 = none := by decide

/-! ## Patterns, registers and multicast packets -/

/-- A packet of a row at step 10 of work queue 0 while a replay goes on there. -/
def replayState (row : OpRow) (b : List Word) (r : Replay) (s : State) : State :=
  s.upd (fun d => d.setQueue (.work 0) { Queue.control 0 with flight := [{ pk (.work 0) row b with uid := 3 }], replay := some r })
/-- A packet of pattern bytes: class and opcode in the header, all else 0, at granule `g` of the mapped memory. -/
def patGran (g cls opc : Nat) : List Host.Cell := [(64 * g + 6, BitVec.ofNat 8 (16 * cls)), (64 * g + 7, BitVec.ofNat 8 opc)]

theorem at10r {sem : OpSem} {H : State → Pkt → Prop} (b : List Word) (r : Replay) (s : State)
    (h3 : H (replayState sem.row b r s) { pk (.work 0) sem.row b with uid := 3 })
    (hf : ((replayState sem.row b r s).dev.queue (.work 0)).flight.find? Pkt.inside = some { pk (.work 0) sem.row b with uid := 3 } := by decide +kernel)
    (h1 : mayGoOn (replayState sem.row b r s).dev (.work 0) = true := by decide +kernel)
    (h2 : ({ pk (.work 0) sem.row b with uid := 3 } : Pkt).isOp sem.row = true := by decide +kernel) :
    ∃ q s s1 p, reach sem q s = .ten s1 p ∧ H s1 p :=
  ⟨.work 0, _, _, _, reach_ten hf h1 rfl h2, h3⟩

theorem test_pattern_packets :
    (∃ q s s1 p, reach semPatternDefine q s = .ten s1 p ∧
      patternOk s1 (s1.dev.queue p.q).home p.ctx 0 0 (p.b 0).toNat (p.b 1).toNat = .ok true ∧
      ∃ r d, (patternTouch (s1.dev.queue p.q).home p.ctx (p.b 1).toNat (p.b 0).toNat s1).dev.create 5 0 p.ctx (.pattern (p.b 0).toNat (p.b 1).toNat) = some (r, d)) ∧
    (∃ q s s1 p, reach semPatternDefine q s = .ten s1 p ∧
      patternOk s1 (s1.dev.queue p.q).home p.ctx 0 0 (p.b 0).toNat (p.b 1).toNat = .ok false) ∧
    (∃ q s s1 p, reach semPatternDefine q s = .ten s1 p ∧
      ∃ x, patternOk s1 (s1.dev.queue p.q).home p.ctx 0 0 (p.b 0).toNat (p.b 1).toNat = .error x) ∧
    (∃ q s s1 p, reach semReplay q s = .ten s1 p ∧ (s1.dev.entry (objB0 p)).payload = .pattern 0x40 2) := by
  refine ⟨at10 (.work 0) [0x40,2,0,0,0,0] (svcM (patGran 1 7 4 ++ patGran 2 7 5)) ⟨?_, some_of2 (by decide +kernel)⟩,
    at10 (.work 0) [0x40,1,0,0,0,0] (svcM (patGran 1 7 4)) ?_, at10 (.work 0) [0x40,2,0,0,0,0] svc (error_of (by decide +kernel)), ?_⟩
  · rfl
  · rfl
  · let s := withObj ⟨5, 2⟩ 0x3FF (.pattern 0x40 2) (svc.upd (fun d =>
      { (d.setQueue (.work 0) { Queue.control 0 with flight := [{ pk (.work 0) rowReplay [0x50100002,0,0,0,0,0] with stage := .entered }] }) with
        ctxs := [(0x3FF, { Ctx.none with live := true })] }))
    obtain ⟨s1, p, h1, h2⟩ := ten_of (r := reach semReplay (.work 0) s)
      (P := fun s1 p => decide ((s1.dev.entry (objB0 p)).payload = .pattern 0x40 2)) (by decide +kernel)
    exact ⟨_, _, s1, p, h1, of_decide_eq_true h2⟩

/-- A replay at its second packet, the `LOOP`'s body, with the given open frames. -/
def rep (loops : List LoopFrame) : Replay := ⟨2, 0, 0x40, 3, 2, 0x80, loops⟩

theorem test_loop_packets :
    (∃ q s s1 p, reach semLoop q s = .ten s1 p ∧ ∃ dst r, loopEnd s1 p.q = .ok (some dst) ∧ (s1.dev.queue p.q).replay = some r ∧ 0 < (p.b 0).toNat) ∧
    (∃ q s s1 p, reach semLoop q s = .ten s1 p ∧ ∃ dst r, loopEnd s1 p.q = .ok (some dst) ∧ (s1.dev.queue p.q).replay = some r ∧ (p.b 0).toNat = 0) ∧
    (∃ q s s1 p, reach semLoop q s = .ten s1 p ∧ ∃ x, loopEnd s1 p.q = .error x) ∧
    (∃ q s s1 p, reach semEndloop q s = .ten s1 p ∧ ∃ r f fs, (s1.dev.queue p.q).replay = some r ∧ r.loops = f :: fs ∧ 1 < f.remaining) ∧
    (∃ q s s1 p, reach semEndloop q s = .ten s1 p ∧ ∃ r f fs, (s1.dev.queue p.q).replay = some r ∧ r.loops = f :: fs ∧ f.remaining ≤ 1) :=
  ⟨at10r [1,0,0,0,0,0] (rep []) (svcM (patGran 2 7 5)) ⟨(3, 0xC0), rep [], rfl, by decide +kernel, by decide +kernel⟩,
   at10r [0,0,0,0,0,0] (rep []) (svcM (patGran 2 7 5)) ⟨(3, 0xC0), rep [], rfl, by decide +kernel, by decide +kernel⟩,
   at10r [1,0,0,0,0,0] (rep []) svc (error_of (by decide +kernel)),
   at10r [0,0,0,0,0,0] (rep [⟨1, 0x40, 2, [(9, 1)], [(9, 0)]⟩]) svc
     ⟨rep [⟨1, 0x40, 2, [(9, 1)], [(9, 0)]⟩], ⟨1, 0x40, 2, [(9, 1)], [(9, 0)]⟩, [], by decide +kernel, rfl, by decide⟩,
   at10r [0,0,0,0,0,0] (rep [⟨1, 0x40, 1, [(9, 1)], [(9, 0)]⟩]) svc
     ⟨rep [⟨1, 0x40, 1, [(9, 1)], [(9, 0)]⟩], ⟨1, 0x40, 1, [(9, 1)], [(9, 0)]⟩, [], by decide +kernel, rfl, by decide⟩⟩

/-- A packet at step 10 of work queue 0 behind an earlier one, which a core still holds. -/
def behind (row : OpRow) (b : List Word) (s : State) : State :=
  (oneCore { Core.zero with cmds := [cmdOf rowMatmul []] } s).upd (fun d => d.setQueue (.work 0) { Queue.control 0 with
    flight := [{ pk (.work 0) rowMatmul [] with uid := 7, stage := .left, fate := .accepted }, pk (.work 0) row b] })

theorem desc_fault {r : State × Option XFault} (h : r.2.isSome = true) : ∃ s x, r = (s, some x) := by
  obtain ⟨x, h⟩ := Option.isSome_iff_exists.mp h; exact ⟨r.1, x, Prod.ext rfl h⟩

theorem test_register_packets :
    (∃ q s s1 p, reach semPatch q s = .ten s1 p ∧ fld (p.b 0) 12 8 = 2) ∧
    (∃ q s s1 p, reach semPredCmp q s = .ten s1 p ∧ fld (p.b 0) 10 8 = 5) ∧
    (∃ q s s1 p, reach semPredClip q s = .ten s1 p ∧ alone s1.dev p = true ∧
      ∃ bs, dRead s1 (s1.dev.queue p.q).home p.ctx ((p.b 0).toNat + 192 * (p.b 1).toNat) (192 * (p.b 2).toNat) = .ok bs) ∧
    (∃ q s s1 p, reach semPredClip q s = .ten s1 p ∧ alone s1.dev p = true ∧
      ∃ x, dRead s1 (s1.dev.queue p.q).home p.ctx ((p.b 0).toNat + 192 * (p.b 1).toNat) (192 * (p.b 2).toNat) = .error x) ∧
    (∃ q s s1 p, reach semPredClip q s = .ten s1 p ∧ alone s1.dev p = false) ∧
    (∃ q s s1 p, reach semDescWrite q s = .ten s1 p ∧ copiesDone s1.dev p = true ∧ ∃ s2,
      writeDescs s1 (s1.dev.queue p.q).home p.ctx (p.b 0).toNat
        ((List.range (p.b 1).toNat).map (fun i => (List.range 8).map (fun j => p.b (2 + 8 * i + j)))) = (s2, none)) ∧
    (∃ q s s1 p, reach semDescWrite q s = .ten s1 p ∧ copiesDone s1.dev p = false) ∧
    (∃ q s s1 p, reach semDescWrite q s = .ten s1 p ∧ copiesDone s1.dev p = true ∧ ∃ s2 x,
      writeDescs s1 (s1.dev.queue p.q).home p.ctx (p.b 0).toNat
        ((List.range (p.b 1).toNat).map (fun i => (List.range 8).map (fun j => p.b (2 + 8 * i + j)))) = (s2, some x)) ∧
    (∃ p : Pkt, fld (p.b 0) 10 8 = 6) := by
  refine ⟨at10 (.work 0) [0x2FD,1,2,3,0,0] svc (by decide +kernel), at10 (.work 0) [0x51F,1,2,0,0,0] svc (by decide +kernel),
    at10 (.work 0) [0x400,1,2,0,0,0] (svcM []) ⟨by decide +kernel, ok_of (by decide +kernel)⟩,
    at10 (.work 0) [0x400,1,2,0,0,0] svc ⟨by decide +kernel, error_of (by decide +kernel)⟩,
    ⟨.work 0, behind rowPredClip [0x400,1,2,0,0,0] svc, _, pk (.work 0) rowPredClip [0x400,1,2,0,0,0],
      reach_ten (by decide +kernel) (by decide +kernel) (by decide +kernel) (by decide +kernel), by decide +kernel⟩,
    at10 (.work 0) ([0x400,1] ++ List.replicate 28 0) (svcM []) ⟨by decide +kernel, ?_⟩,
    ⟨.work 0, behind rowDescWrite ([0x400,1] ++ List.replicate 28 0) svc, _, pk (.work 0) rowDescWrite ([0x400,1] ++ List.replicate 28 0),
      reach_ten (by decide +kernel) (by decide +kernel) (by decide +kernel) (by decide +kernel), by decide +kernel⟩,
    at10 (.work 0) ([0x400,1] ++ List.replicate 28 0) svc ⟨by decide +kernel, ?_⟩, ⟨pk (.work 0) rowPredCmp [0x61F], by decide +kernel⟩⟩
  · exact ⟨_, Prod.ext rfl (by decide +kernel)⟩
  · exact desc_fault (by decide +kernel)

theorem test_pred_cmp_orders_signed_and_unsigned :
    predCond 2 0xFFFFFFFFFFFFFFFF 1 = false ∧ predCond 4 0xFFFFFFFFFFFFFFFF 1 = true ∧ predCond 3 1 1 = true ∧ predCond 5 1 1 = true := by decide

/-- An open episode of gang scope. -/
def epi : Episode := ⟨false, [0], [], [], [], [9]⟩

theorem test_multicast_packets :
    (∃ q s s1 p, reach semCopy q s = .ten s1 p ∧ True) ∧ (∃ q s s1 p, reach semFill q s = .ten s1 p ∧ True) ∧
    (∃ q s s1 p, reach semAccClear q s = .ten s1 p ∧ True) ∧ (∃ q s s1 p, reach semStats q s = .ten s1 p ∧ True) ∧
    (∃ q s s1 p, reach semMatmul q s = .ten s1 p ∧ True) ∧ (∃ q s s1 p, reach semFabLoad q s = .ten s1 p ∧ True) ∧
    (∃ q s s1 p, reach semFabRun q s = .ten s1 p ∧ True) ∧ (∃ q s s1 p, reach semChain q s = .ten s1 p ∧ True) ∧
    (∃ q s s1 p, reach semBar q s = .ten s1 p ∧ True) ∧ (∃ q s s1 p, reach semMark q s = .ten s1 p ∧ True) ∧
    (∃ q s s1 p, reach semSeam q s = .ten s1 p ∧ bitOf (p.b 1) 0 = false ∧ ∃ h sc, seamOf s1.dev (seamSlot (p.b 0)) = (h, sc, none)) ∧
    (∃ q s s1 p, reach semSeam q s = .ten s1 p ∧ bitOf (p.b 1) 0 = false ∧ ∃ h sc e, seamOf s1.dev (seamSlot (p.b 0)) = (h, sc, some e)) ∧
    (∃ q s s1 p, reach semSeam q s = .ten s1 p ∧ bitOf (p.b 1) 0 = true ∧ ∃ h sc e, seamOf s1.dev (seamSlot (p.b 0)) = (h, sc, some e)) ∧
    (∃ q s s1 p, reach semSeam q s = .ten s1 p ∧ bitOf (p.b 1) 0 = true ∧ ∃ h sc, seamOf s1.dev (seamSlot (p.b 0)) = (h, sc, none)) ∧
    (∃ q s s1 p, reach semFitting q s = .ten s1 p ∧ ∀ k, s1.dev.siteOf (fld (p.b 0) 9 0) = some k → (s1.dev.core k).fitting = none) ∧
    (∃ q s s1 p, reach semFitting q s = .ten s1 p ∧ ∃ k f, s1.dev.siteOf (fld (p.b 0) 9 0) = some k ∧ (s1.dev.core k).fitting = some f) :=
  ⟨at10 (.work 0) [0,0,0,0,0,0] svc trivial, at10 (.work 0) [0,0,0,0,0,0] svc trivial, at10 (.work 0) [0,0,0,0,0,0] svc trivial,
   at10 (.work 0) [0,0,0,0,0,0] svc trivial, at10 (.work 0) (List.replicate 30 0) svc trivial, at10 (.work 0) [0,0,0,0,0,0] svc trivial,
   at10 (.work 0) (List.replicate 30 0) svc trivial, at10 (.work 0) (List.replicate 30 0) svc trivial,
   at10 (.work 0) [0,0,0,0,0,0] svc trivial, at10 (.work 0) [0,0,0,0,0,0] svc trivial,
   at10 (.work 0) [0x40100003,0,0,0,0,0] (withObj ⟨4, 3⟩ 0 (.seam 0 none none) svc) ⟨by decide +kernel, 0, none, by decide +kernel⟩,
   at10 (.work 0) [0x40100003,0,0,0,0,0] (withObj ⟨4, 3⟩ 0 (.seam 0 (some false) (some epi)) svc)
     ⟨by decide +kernel, 0, some false, epi, by decide +kernel⟩,
   at10 (.work 0) [0x40100003,1,0,0,0,0] (withObj ⟨4, 3⟩ 0 (.seam 0 (some true) (some { epi with partScope := true })) svc)
     ⟨by decide +kernel, 0, some true, { epi with partScope := true }, by decide +kernel⟩,
   at10 (.work 0) [0x40100003,1,0,0,0,0] (withObj ⟨4, 3⟩ 0 (.seam 0 none none) svc) ⟨by decide +kernel, 0, none, by decide +kernel⟩,
   at10 (.work 0) [0,0,0,0,0,0] (oneCore Core.zero svc) (fun k h => by
     have e : k = 0 := by injection (show some 0 = some k from h) with e; exact e.symm
     subst e; rfl),
   at10 (.work 0) [0,0,0,0,0,0] (oneCore { Core.zero with fitting := some ⟨1, .work 0, 0, 0x3FF, 0, 0, 0, 0, 0, 0, false⟩ } svc)
     ⟨0, ⟨1, .work 0, 0, 0x3FF, 0, 0, 0, 0, 0, 0, false⟩, by decide +kernel, by decide +kernel⟩⟩

/-! ## Reset and spare packets, acceptance, refusals -/

/-- The MC restarts from ROM for an image. -/
def restarting : State := svc.upd (fun d => { d with mc := { d.mc with reads := [⟨0, 9, 0, 0, [], some [], none⟩] } })

theorem test_reset_packets :
    (∃ q s s1 p, reach semFwLoad q s = .ten s1 p ∧ mcRestarts s1.dev = false ∧ 512 ≤ (p.b 1).toNat ∧ (p.b 1).toNat ≤ 512 + 261888) ∧
    (∃ q s s1 p, reach semFwLoad q s = .ten s1 p ∧ mcRestarts s1.dev = false ∧ (p.b 1).toNat < 512) ∧
    (∃ q s s1 p, reach semFwLoad q s = .ten s1 p ∧ mcRestarts s1.dev = false ∧ 512 + 261888 < (p.b 1).toNat) ∧
    (∃ q s s1 p, reach semResetDevice q s = .ten s1 p ∧ mcRestarts s1.dev = false ∧
      (acceptedMc (s1.upd (fun d => { d with boot := { d.boot with hold := 3 } })) q p).dev.boot.inReset = false ∧
      (acceptedMc (s1.upd (fun d => { d with boot := { d.boot with hold := 3 } })) q p).dev.boot.hold = 3) ∧
    (∃ q s s1 p, reach semFuncReset q s = .ten s1 p ∧ mcRestarts s1.dev = false) ∧
    (∃ q s s1 p, reach semPartClear q s = .ten s1 p ∧ mcRestarts s1.dev = false ∧
      ∀ c ∈ s1.dev.mc.clears, c.1 ≠ 16 * fld (p.b 0) 1 0 + fld (p.b 0) 7 4) ∧
    (∃ q s s1 p, reach semPartClear q s = .ten s1 p ∧ ∃ c, c ∈ s1.dev.mc.clears ∧ c.1 = 16 * fld (p.b 0) 1 0 + fld (p.b 0) 7 4) ∧
    (∃ q s s1 p, reach semFwLoad q s = .ten s1 p ∧ mcRestarts s1.dev = true) ∧
    (∃ q s s1 p, reach semFuncReset q s = .ten s1 p ∧ mcRestarts s1.dev = true) ∧
    (∃ q s s1 p, reach semPartClear q s = .ten s1 p ∧ mcRestarts s1.dev = true) := by
  refine ⟨at10 (.ctl 0) [0x1000,262400,0,0,0,0] svc (by decide +kernel), at10 (.ctl 0) [0x1000,511,0,0,0,0] svc (by decide +kernel),
    at10 (.ctl 0) [0x1000,262401,0,0,0,0] svc (by decide +kernel), ?_, at10 (.ctl 0) [255,0,0,0,0,0] svc (by decide +kernel),
    at10 (.ctl 0) [0xF1,0,0,0,0,0] (svc.upd (fun d => { d with mc := { d.mc with clears := [(3, 9)] } })) (by decide +kernel),
    at10 (.ctl 0) [0xF1,0,0,0,0,0] (svc.upd (fun d => { d with mc := { d.mc with clears := [(31, 9)] } })) ⟨(31, 9), by decide +kernel, by decide +kernel⟩,
    at10 (.ctl 0) [0x1000,512,0,0,0,0] restarting (by decide +kernel), at10 (.ctl 0) [1,0,0,0,0,0] restarting (by decide +kernel),
    at10 (.ctl 0) [1,0,0,0,0,0] restarting (by decide +kernel)⟩
  exact at10 (H := fun q s1 p => mcRestarts s1.dev = false ∧
      (acceptedMc (s1.upd (fun d => { d with boot := { d.boot with hold := 3 } })) q p).dev.boot.inReset = false ∧
      (acceptedMc (s1.upd (fun d => { d with boot := { d.boot with hold := 3 } })) q p).dev.boot.hold = 3)
    (.ctl 0) [0,0,0,0,0,0] svc (by decide +kernel)

/-- A core with logical index 0, and that change pending. -/
def changing (c : Change) : State := (oneCore Core.zero svc).upd (fun d => { d with mc := { d.mc with changes := [c] } })

theorem test_core_and_line_retirements :
    (∃ q s s1 p, reach semRetire q s = .ten s1 p ∧ mcRestarts s1.dev = false ∧ fld (p.b 0) 3 0 = 1 ∧ p.b 1 &&& ~~~0x3FF#64 = 0 ∧
      (∃ k, s1.dev.siteOf (fld (p.b 1) 9 0) = some k) ∧
      ∀ c ∈ s1.dev.mc.changes, ¬ (c.insert = false ∧ c.kind = 1 ∧ c.index = fld (p.b 1) 9 0)) ∧
    (∃ q s s1 p, reach semRetire q s = .ten s1 p ∧ mcRestarts s1.dev = false ∧ fld (p.b 0) 3 0 = 1 ∧ p.b 1 &&& ~~~0x3FF#64 = 0 ∧
      (∃ k, s1.dev.siteOf (fld (p.b 1) 9 0) = some k) ∧
      ∃ c, c ∈ s1.dev.mc.changes ∧ c.insert = false ∧ c.kind = 1 ∧ c.index = fld (p.b 1) 9 0) ∧
    (∃ q s s1 p, reach semRetire q s = .ten s1 p ∧ mcRestarts s1.dev = false ∧ fld (p.b 0) 3 0 = 2 ∧ p.b 1 &&& ~~~0x7F03FF#64 = 0 ∧
      (∃ k, s1.dev.siteOf (fld (p.b 1) 9 0) = some k) ∧ fld (p.b 1) 22 16 < s1.params.opuDim + 2) ∧
    (∃ q s s1 p, reach semRetire q s = .ten s1 p ∧ mcRestarts s1.dev = false ∧ fld (p.b 0) 3 0 = 3 ∧ p.b 1 &&& ~~~0x7F03FF#64 = 0 ∧
      (∃ k, s1.dev.siteOf (fld (p.b 1) 9 0) = some k) ∧ fld (p.b 1) 22 16 < s1.params.opuDim + 2) ∧
    (∃ q s s1 p, reach semRetire q s = .ten s1 p ∧ mcRestarts s1.dev = false ∧ fld (p.b 0) 3 0 < 1) ∧
    (∃ q s s1 p, reach semRetire q s = .ten s1 p ∧ mcRestarts s1.dev = false ∧ 6 < fld (p.b 0) 3 0) ∧
    (∃ q s s1 p, reach semRetire q s = .ten s1 p ∧ mcRestarts s1.dev = false ∧ p.b 1 &&& ~~~(identMask false (fld (p.b 0) 3 0)) ≠ 0) ∧
    (∃ q s s1 p, reach semRetire q s = .ten s1 p ∧ mcRestarts s1.dev = false ∧ fld (p.b 0) 3 0 = 1 ∧
      s1.dev.siteOf (fld (p.b 1) 9 0) = none) :=
  ⟨at10 (.ctl 0) [1,0,0,0,0,0] (oneCore Core.zero svc) ⟨by decide +kernel, by decide +kernel, by decide +kernel, some_of (by decide +kernel), by decide +kernel⟩,
   at10 (.ctl 0) [1,0,0,0,0,0] (changing ⟨0, false, 1, 0, 0⟩) ⟨by decide +kernel, by decide +kernel, by decide +kernel, some_of (by decide +kernel),
     ⟨0, false, 1, 0, 0⟩, by decide +kernel⟩,
   at10 (.ctl 0) [2,0x410000,0,0,0,0] (oneCore Core.zero svc) ⟨by decide +kernel, by decide +kernel, by decide +kernel, some_of (by decide +kernel), by decide +kernel⟩,
   at10 (.ctl 0) [3,0,0,0,0,0] (oneCore Core.zero svc) ⟨by decide +kernel, by decide +kernel, by decide +kernel, some_of (by decide +kernel), by decide +kernel⟩,
   at10 (.ctl 0) [0,0,0,0,0,0] svc (by decide +kernel), at10 (.ctl 0) [7,0,0,0,0,0] svc (by decide +kernel),
   at10 (.ctl 0) [1,1024,0,0,0,0] svc (by decide +kernel), at10 (.ctl 0) [1,1023,0,0,0,0] svc (by decide +kernel)⟩

/-- Every stack port of panel 0 reports 4 MiB. -/
def stackState : State := svc.upd (fun d => { d with ports := (List.range 20).map (fun i => (portKey 0 i, { StackPort.zero with cap := 2 ^ 24 })) })
/-- In service with link 0 formed. -/
def linkState (x : LinkDir) : State := svc.upd (fun d => { d with links := [(0, { Link.zero with formed := true, up := x })] })

theorem test_range_and_link_retirements :
    (∃ q s s1 p, reach semRetire q s = .ten s1 p ∧ mcRestarts s1.dev = false ∧ fld (p.b 0) 3 0 = 4 ∧ p.b 1 &&& ~~~rangeMask = 0 ∧
      rangeKey (p.b 1) / 16 < livePanels s1.params s1.dev ∧ rangeKey (p.b 1) % 16 < s1.params.stackPorts ∧
      aligned (unitBytes (rangeCoarse (p.b 1))) (rangeAddr (p.b 1)) = true ∧
      rangeAddr (p.b 1) < usable s1.params s1.dev (rangeKey (p.b 1) / 16) ∧
      remapOf (s1.dev.port (rangeKey (p.b 1))) (rangeCoarse (p.b 1)) (rangeAddr (p.b 1)) = none) ∧
    (∃ q s s1 p, reach semRetire q s = .ten s1 p ∧ mcRestarts s1.dev = false ∧ fld (p.b 0) 3 0 = 5 ∧ p.b 1 &&& ~~~0x39F7F#64 = 0 ∧
      fld (p.b 1) 17 16 < s1.params.links ∧ fld (p.b 1) 12 8 < 26 ∧ fld (p.b 1) 6 0 < 68 ∧ (s1.dev.link (fld (p.b 1) 17 16)).formed = true ∧
      fld (p.b 1) 12 8 ∉ ((s1.dev.link (fld (p.b 1) 17 16)).dir (bitOf (p.b 1) 15)).out ∧
      fld (p.b 1) 6 0 ∉ ((s1.dev.link (fld (p.b 1) 17 16)).dir (bitOf (p.b 1) 15)).bad (fld (p.b 1) 12 8) ∧
      ((s1.dev.link (fld (p.b 1) 17 16)).dir (bitOf (p.b 1) 15)).repairing = none) ∧
    (∃ q s s1 p, reach semRetire q s = .ten s1 p ∧ mcRestarts s1.dev = false ∧ fld (p.b 0) 3 0 = 6 ∧ p.b 1 &&& ~~~0x39F00#64 = 0 ∧
      fld (p.b 1) 17 16 < s1.params.links ∧ fld (p.b 1) 12 8 < 26 ∧ (s1.dev.link (fld (p.b 1) 17 16)).formed = true ∧
      fld (p.b 1) 12 8 ∉ ((s1.dev.link (fld (p.b 1) 17 16)).dir (bitOf (p.b 1) 15)).out ∧
      17 ≤ ((s1.dev.link (fld (p.b 1) 17 16)).dir (bitOf (p.b 1) 15)).usable ∧
      ((s1.dev.link (fld (p.b 1) 17 16)).dir (bitOf (p.b 1) 15)).repairing = none) :=
  ⟨at10 (.ctl 0) [4,0x1000,0,0,0,0] stackState (by decide +kernel),
   at10 (.ctl 0) [5,0x9943,0,0,0,0] (linkState .zero) (by decide +kernel),
   at10 (.ctl 0) [6,0x9900,0,0,0,0] (linkState .zero) (by decide +kernel)⟩

/-- Site 5 is a fetched spare of function 0's partition; logical index 9 is vacant and was last at site 0. -/
def spareState : State := svc.upd (fun d => { d with lastSite := [(9, 0)], sites := [(5, { Site.zero with fetched := true })] })

theorem test_spare_packets :
    (∃ q s s1 p c, reach semInsert q s = .ten s1 p ∧ mcRestarts s1.dev = false ∧ c = changeOf s1.dev p true ∧ c.kind = 1 ∧
      p.b 1 &&& ~~~(identMask true 1) = 0 ∧ indexExists s1.dev c.index = true ∧ keyPanel c.spare < s1.params.panels ∧
      fld c.ident 7 0 < s1.params.sites ∧ s1.dev.siteOf c.index = none ∧
      (∀ x ∈ s1.dev.mc.changes, ¬ (x.insert = true ∧ x.index = c.index)) ∧
      (s1.dev.site c.spare).st = .spare ∧ (s1.dev.site c.spare).fetched = true ∧ ownersAgree s1.dev c.index c.spare = true) ∧
    (∃ q s s1 p c, reach semInsert q s = .ten s1 p ∧ mcRestarts s1.dev = false ∧ c = changeOf s1.dev p true ∧ c.kind = 1 ∧
      p.b 1 &&& ~~~(identMask true 1) = 0 ∧ indexExists s1.dev c.index = true ∧ keyPanel c.spare < s1.params.panels ∧
      fld c.ident 7 0 < s1.params.sites ∧ (∃ x ∈ s1.dev.mc.changes, x.insert = false ∧ x.kind = 1 ∧ x.index = c.index) ∧
      (∀ x ∈ s1.dev.mc.changes, ¬ (x.insert = true ∧ x.index = c.index)) ∧
      (s1.dev.site c.spare).st = .spare ∧ (s1.dev.site c.spare).fetched = true ∧ ownersAgree s1.dev c.index c.spare = true) ∧
    (∃ q s s1 p c, reach semInsert q s = .ten s1 p ∧ mcRestarts s1.dev = false ∧ c = changeOf s1.dev p true ∧ c.kind ≠ 1) ∧
    (∃ q s s1 p c, reach semInsert q s = .ten s1 p ∧ mcRestarts s1.dev = false ∧ c = changeOf s1.dev p true ∧
      (s1.dev.site c.spare).st ≠ .spare) ∧
    (∃ q s s1 p, reach semHealth q s = .ten s1 p ∧ mcRestarts s1.dev = false) ∧
    (∃ q s s1 p, reach semSpdm q s = .ten s1 p ∧ mcRestarts s1.dev = false) ∧
    (∃ q s s1 p, reach semResume q s = .ten s1 p ∧ True) ∧
    (∃ q s s1 p, reach semRetire q s = .ten s1 p ∧ mcRestarts s1.dev = true) ∧ (∃ q s s1 p, reach semInsert q s = .ten s1 p ∧ mcRestarts s1.dev = true) ∧
    (∃ q s s1 p, reach semHealth q s = .ten s1 p ∧ mcRestarts s1.dev = true) ∧ (∃ q s s1 p, reach semSpdm q s = .ten s1 p ∧ mcRestarts s1.dev = true) := by
  refine ⟨?_, ?_, ?_, ?_, at10 (.ctl 0) [0x2000,0,0,0,0,0] svc (by decide +kernel), at10 (.ctl 0) [0x2000,64,0x3000,64,0,0] svc (by decide +kernel),
    at10 (.ctl 0) [9,0,0,0,0,0] svc trivial, at10 (.ctl 0) [1,0,0,0,0,0] restarting (by decide +kernel),
    at10 (.ctl 0) [1,0,0,0,0,0] restarting (by decide +kernel), at10 (.ctl 0) [0x2000,0,0,0,0,0] restarting (by decide +kernel),
    at10 (.ctl 0) [0x2000,64,0x3000,64,0,0] restarting (by decide +kernel)⟩
  · obtain ⟨q, s, s1, p, h1, h2⟩ := at10 (sem := semInsert) (H := fun _ s1 p => mcRestarts s1.dev = false ∧ (changeOf s1.dev p true).kind = 1 ∧
      p.b 1 &&& ~~~(identMask true 1) = 0 ∧ indexExists s1.dev (changeOf s1.dev p true).index = true ∧
      keyPanel (changeOf s1.dev p true).spare < s1.params.panels ∧ fld (changeOf s1.dev p true).ident 7 0 < s1.params.sites ∧
      s1.dev.siteOf (changeOf s1.dev p true).index = none ∧ (∀ x ∈ s1.dev.mc.changes, ¬ (x.insert = true ∧ x.index = (changeOf s1.dev p true).index)) ∧
      (s1.dev.site (changeOf s1.dev p true).spare).st = .spare ∧ (s1.dev.site (changeOf s1.dev p true).spare).fetched = true ∧
      ownersAgree s1.dev (changeOf s1.dev p true).index (changeOf s1.dev p true).spare = true)
      (.ctl 0) [1,0x900000005,0,0,0,0] spareState (by decide +kernel)
    exact ⟨q, s, s1, p, _, h1, h2.1, rfl, h2.2⟩
  · obtain ⟨q, s, s1, p, h1, h2⟩ := at10 (sem := semInsert) (H := fun _ s1 p => mcRestarts s1.dev = false ∧ (changeOf s1.dev p true).kind = 1 ∧
      p.b 1 &&& ~~~(identMask true 1) = 0 ∧ indexExists s1.dev (changeOf s1.dev p true).index = true ∧
      keyPanel (changeOf s1.dev p true).spare < s1.params.panels ∧ fld (changeOf s1.dev p true).ident 7 0 < s1.params.sites ∧
      (∃ x ∈ s1.dev.mc.changes, x.insert = false ∧ x.kind = 1 ∧ x.index = (changeOf s1.dev p true).index) ∧
      (∀ x ∈ s1.dev.mc.changes, ¬ (x.insert = true ∧ x.index = (changeOf s1.dev p true).index)) ∧
      (s1.dev.site (changeOf s1.dev p true).spare).st = .spare ∧ (s1.dev.site (changeOf s1.dev p true).spare).fetched = true ∧
      ownersAgree s1.dev (changeOf s1.dev p true).index (changeOf s1.dev p true).spare = true)
      (.ctl 0) [1,0x5,0,0,0,0] ((changing ⟨0, false, 1, 0, 0⟩).upd (fun d => { d with sites := d.sites ++ [(5, { Site.zero with fetched := true })] }))
      (by decide +kernel)
    exact ⟨q, s, s1, p, _, h1, h2.1, rfl, h2.2⟩
  · obtain ⟨q, s, s1, p, h1, h2⟩ := at10 (sem := semInsert) (H := fun _ s1 p => mcRestarts s1.dev = false ∧ (changeOf s1.dev p true).kind ≠ 1)
      (.ctl 0) [2,0,0,0,0,0] svc (by decide +kernel)
    exact ⟨q, s, s1, p, _, h1, h2.1, rfl, h2.2⟩
  · obtain ⟨q, s, s1, p, h1, h2⟩ := at10 (sem := semInsert) (H := fun _ s1 p => mcRestarts s1.dev = false ∧
        (s1.dev.site (changeOf s1.dev p true).spare).st ≠ .spare)
      (.ctl 0) [1,0,0,0,0,0] (oneCore Core.zero svc) (by decide +kernel)
    exact ⟨q, s, s1, p, _, h1, h2.1, rfl, h2.2⟩

/-- A control queue whose ring holds one packet of the row. -/
def ringState (row : OpRow) (b : List Word) (s : State) : State :=
  s.upd (fun d => d.setQueue (.ctl 0) { Queue.control 0 with posted := 1, slots := [(0, hdr row 1 :: 0 :: b)] })

theorem test_control_packet_comes_to_step_ten :
    ∃ (sem : OpSem) (s : State) (f : Nat), CtlReady s f ∧ (ctlPkt s f).isOp sem.row = true ∧ sem.row.cls = 0 ∧ sem.row.handles = [] ∧
      step1For s.dev (.ctl f) (ctlPkt s f) = none ∧ bodyOk sem.row (ctlPkt s f) = true ∧ resultOk sem.row (ctlPkt s f) = true ∧
      sem.check (ctlWith s f (ctlPkt s f)) (ctlPkt s f) = true ∧ (sem.row.f0 = true → (ctlPkt s f).func = 0) ∧
      sem.own (ctlWith s f (ctlPkt s f)) (ctlPkt s f) = none :=
  ⟨semFuncReset, ringState rowFuncReset [9,0,0,0,0,0] svc, 0,
    ⟨by decide +kernel, by decide +kernel, by decide +kernel, by decide +kernel⟩, by decide +kernel, rfl, rfl, by decide +kernel,
    by decide +kernel, by decide +kernel, by decide +kernel, fun _ => by decide +kernel, by decide +kernel⟩

/-- Functions 0 and 1 weighted 3 and 200 at dispatch. -/
def weighted (credits : List (Nat × Nat)) : State :=
  svc.upd (fun d => { d with
    funcs := [(0, { FuncSt.reset 0 with qosNow := 0x8003000000000000 }), (1, { FuncSt.reset 1 with qosNow := 0x80C8000000000000 })]
    panels := [(0, { Panel.zero with dispCredits := credits })] })

theorem test_dispatch_credits :
    dispWeight svc.dev 0 = 0 ∧ dispWeight (weighted []).dev 0 = 3 ∧ dispWeight (weighted []).dev 1 = 200 ∧
    ((dispCharge (weighted [(0, 2)]).dev (.ctl 0)).panel 0).dispCredits = [(0, 1)] ∧
    ((dispCharge (weighted [(1, 7)]).dev (.ctl 0)).panel 0).dispCredits = [(0, 2), (1, 200)] := by decide +kernel

/-- A packet of work queue 0 at step 2 whose predicate 4 must be true. -/
def predPkt : Pkt := { pk (.work 0) rowMark [] with stage := .entered, words := [hdr rowMark 1, 0x2200000000000000] }

theorem test_blocked_and_skipped :
    (∃ (q : QRef) (s : State), (∀ x ∈ (s.dev.queue q).flight, x.inside = false) ∧ (s.dev.queue q).state ≠ .running) ∧
    (∃ (q : QRef) (s : State), (∀ x ∈ (s.dev.queue q).flight, x.inside = false) ∧
      (s.dev.queue q).readAhead ≤ ((s.dev.queue q).flight.filter Pkt.counts).length) ∧
    (∃ (q : QRef) (s : State), (∀ x ∈ (s.dev.queue q).flight, x.inside = false) ∧ (s.dev.queue q).replay = none ∧
      (s.dev.queue q).entered = (s.dev.queue q).posted) ∧
    (∃ (q : QRef) (s : State), (∀ x ∈ (s.dev.queue q).flight, x.inside = false) ∧ (s.dev.queue q).state = .running ∧
      (s.dev.queue q).entered ≠ (s.dev.queue q).posted ∧ dispPick s.dev (s.dev.queue q).home ≠ some q) ∧
    (∃ (s : State) (p : Pkt), p.stage = .entered ∧ p.isCtl = false ∧ step2 s.dev p = true ∧ hWen p.w1 = false ∧ hPen p.w1 = true ∧
      ctxPred s.dev p.ctx (hPsel p.w1) = hPneg p.w1 ∧ p.isOp rowLoop = false ∧ p.isOp rowEndloop = false ∧ p.waitHold = none ∧
      s.dev.pkt (.work 0) p.uid = some p) :=
  ⟨⟨.work 0, svc, by decide +kernel, by decide +kernel⟩,
   ⟨.work 0, svc.upd (fun d => d.setQueue (.work 0) { Queue.control 0 with
      readAhead := 1, posted := 5, flight := [{ pk (.work 0) rowMark [] with stage := .left, fate := .accepted }] }), by decide +kernel, by decide +kernel⟩,
   ⟨.ctl 255, svc, by decide +kernel, by decide +kernel, by decide +kernel⟩,
   ⟨.ctl 3, svc.upd (fun d => (d.setQueue (.ctl 0) { Queue.control 0 with posted := 1 }).setQueue (.ctl 3) { Queue.control 3 with posted := 1 }),
     by decide +kernel⟩,
   ⟨svc.upd (fun d => d.setQueue (.work 0) { Queue.control 0 with flight := [predPkt] }), predPkt, by decide +kernel⟩⟩

theorem test_refusals :
    (∃ (s : State) (q : QRef), (s.dev.queue q).state = .running) ∧ (∃ (s : State) (q : QRef), (s.dev.queue q).state = .stopped) ∧
    (∃ (sem : OpSem) (s : State) (f : Nat) (st : Status), CtlReady s f ∧ rowTakes sem.row (ctlPkt s f) = true ∧
      step1For s.dev (.ctl f) (ctlPkt s f) = some st) :=
  ⟨⟨svc, .ctl 7, by decide +kernel⟩,
   ⟨svc.upd (fun d => d.setQueue (.work 0) { Queue.control 0 with state := .stopped }), .work 0, by decide +kernel⟩,
   ⟨semQuery, ringState rowQuery [0,0,0,0,0,0] svc, 0, .badOpcode,
     ⟨by decide +kernel, by decide +kernel, by decide +kernel, by decide +kernel⟩, by decide +kernel, by decide +kernel⟩⟩

/-! ## Submission, retirement, rings and interrupts -/

/-- A packet that waits at step 3 for tack 5 to reach 7. -/
def waitPkt : Pkt :=
  { pk (.work 0) rowMark [] with stage := .entered, words := [hdr rowMark 1, 0x0109000000000000], waitHold := some ⟨2, 5⟩, waitVal := 7 }

theorem test_waiting_and_retiring :
    (∃ (slot : Nat) (s : State) (q : QRef) (p : Pkt) (sem : OpSem), (s.dev.queue q).flight.find? (waitsOn s.dev slot) = some p ∧ workSems.find? (fun m => p.isOp m.row) = some sem) ∧
    (∃ (slot : Nat) (s : State), ∀ q ∈ s.dev.queueRefs, ∀ p ∈ (s.dev.queue q).flight, waitsOn s.dev slot p = false) ∧
    (∃ (q : QRef) (s : State), retireNext (s.dev.queue q) = none) ∧ (∃ (q : QRef) (s : State) (p : Pkt), retireNext (s.dev.queue q) = some p) ∧
    (∃ p : Pkt, p.fate = .accepted ∧ p.status = .done ∧ p.parent = none ∧ p.sigTack = none ∧ p.ownTack = none ∧ p.pendReg = none ∧
      p.pendPred = none ∧ hRply p.w0 = 0) := by
  refine ⟨?_, ⟨0, svc, by decide +kernel⟩, ⟨.work 0, svc, by decide +kernel⟩, ?_,
    ⟨{ pk (.work 0) rowMark [] with stage := .left, fate := .accepted, done := true }, by decide +kernel⟩⟩
  · obtain ⟨sem, h⟩ := some_of (o := workSems.find? (fun m => waitPkt.isOp m.row)) (by decide +kernel)
    exact ⟨5, withObj ⟨2, 5⟩ 0 (.tack 0 [] false) (svc.upd (fun d => d.setQueue (.work 0) { Queue.control 0 with flight := [waitPkt] })), .work 0, waitPkt, sem,
      by decide +kernel, h⟩
  · obtain ⟨p, h⟩ := some_of (o := retireNext ((svc.upd (fun d => d.setQueue (.work 0) { Queue.control 0 with
      flight := [{ pk (.work 0) rowMark [] with stage := .left, fate := .accepted, done := true }] })).dev.queue (.work 0))) (by decide +kernel)
    exact ⟨_, _, p, h⟩

theorem test_tack_actions :
    (∃ (d : Dev) (r : ObjRef) (v c : Word) (g : List Nat), (d.entry r).payload = .tack c g false ∧ 0 < (v - c).toInt) ∧
    (∃ (d : Dev) (r : ObjRef) (v c : Word) (g : List Nat), (d.entry r).payload = .tack c g false ∧ (v - c).toInt ≤ 0) ∧
    (∃ (d : Dev) (r : ObjRef) (c : Word) (g : List Nat), (d.entry r).payload = .tack c g true) :=
  ⟨⟨(withObj ⟨2, 5⟩ 0 (.tack 0 [] false) svc).dev, ⟨2, 5⟩, 0x7FFFFFFFFFFFFFFF, 0, [], by decide +kernel, by decide⟩,
   ⟨(withObj ⟨2, 5⟩ 0 (.tack 0 [] false) svc).dev, ⟨2, 5⟩, 0x8000000000000000, 0, [], by decide +kernel, by decide⟩,
   ⟨(withObj ⟨2, 5⟩ 0 (.tack 9 [] true) svc).dev, ⟨2, 5⟩, 9, [], by decide +kernel⟩⟩

theorem test_submissions :
    (∃ (s : State) (f : Nat) (data : List Byte), writable s.dev f 0x1000 = true ∧ data.length = 64 ∧ (s.dev.queue (.ctl f)).state ≠ .absent ∧
      (s.dev.queue (.ctl f)).asm = [] ∧ (s.dev.queue (.ctl f)).overrun = false ∧ hGran (wordAt (bytesToWords 8 data) 0) = 1 ∧
      ((s.dev.queue (.ctl f)).posted - (s.dev.queue (.ctl f)).retired).toNat ≠ (s.dev.queue (.ctl f)).depth ∧
      ∀ p ∈ (s.dev.queue (.ctl f)).flight, p.done = true → p.holds = []) ∧
    (∃ (s s1 : State) (n : Nat) (ws : List Word) (x : Queue), x = s.dev.queue (.work n) ∧ x.overrun = false ∧ (x.posted - x.retired).toNat ≠ x.depth ∧
      dWrite (dTouch s x.home x.ctx (x.ringVa + 256 * (x.posted.toNat % x.depth)) (8 * (withSeq ws x.posted).length) .write) x.home x.ctx
        (x.ringVa + 256 * (x.posted.toNat % x.depth)) (wordsToBytes (withSeq ws x.posted)) = .ok s1) ∧
    (∃ (s : State) (n : Nat) (ws : List Word) (x : Queue) (e : XFault), x = s.dev.queue (.work n) ∧ x.overrun = false ∧
      (x.posted - x.retired).toNat ≠ x.depth ∧
      dWrite (dTouch s x.home x.ctx (x.ringVa + 256 * (x.posted.toNat % x.depth)) (8 * (withSeq ws x.posted).length) .write) x.home x.ctx
        (x.ringVa + 256 * (x.posted.toNat % x.depth)) (wordsToBytes (withSeq ws x.posted)) = .error e) ∧
    (∃ (s : State) (f : Nat) (win : Nat), writable s.dev f (windowOff win) = false) ∧
    (∃ (s : State) (q : QRef) (off : Nat), (s.dev.queue q).state = .running ∧ off ≠ 0 ∧ off ≠ 8 * (s.dev.queue q).asm.length) ∧
    (∃ (s : State) (q : QRef), (s.dev.queue q).state = .running ∧ (s.dev.queue q).overrun = false ∧
      ((s.dev.queue q).posted - (s.dev.queue q).retired).toNat = (s.dev.queue q).depth) ∧
    (∃ (s : State) (q : QRef), (s.dev.queue q).overrun = true) :=
  let x : Queue := { Queue.control 0 with ringVa := 0x4000, posted := 0xFFFFFFFF, retired := 0xFFFFFFF0 }
  let ok : State := (svcM []).upd (fun d => d.setQueue (.work 0) x)
  let no : State := svc.upd (fun d => d.setQueue (.work 0) x)
  ⟨⟨svc, 0, List.replicate 64 0, by decide +kernel⟩,
   have ⟨s1, h⟩ := ok_of (e := dWrite (dTouch ok x.home x.ctx (x.ringVa + 256 * (x.posted.toNat % x.depth))
     (8 * (withSeq (List.replicate 8 0) x.posted).length) .write) x.home x.ctx (x.ringVa + 256 * (x.posted.toNat % x.depth))
     (wordsToBytes (withSeq (List.replicate 8 0) x.posted))) (by decide +kernel)
   ⟨ok, s1, 0, List.replicate 8 0, x, by decide +kernel, by decide +kernel, by decide +kernel, h⟩,
   have ⟨e, h⟩ := error_of (e := dWrite (dTouch no x.home x.ctx (x.ringVa + 256 * (x.posted.toNat % x.depth))
     (8 * (withSeq (List.replicate 8 0) x.posted).length) .write) x.home x.ctx (x.ringVa + 256 * (x.posted.toNat % x.depth))
     (wordsToBytes (withSeq (List.replicate 8 0) x.posted))) (by decide +kernel)
   ⟨no, 0, List.replicate 8 0, x, e, by decide +kernel, by decide +kernel, by decide +kernel, h⟩,
   ⟨State.reset, 0, 0xFFFF, by decide +kernel⟩, ⟨svc, .ctl 0, 64, by decide +kernel⟩,
   ⟨svc.upd (fun d => d.setQueue (.ctl 0) { Queue.control 0 with posted := 9, retired := 0xFFFFFFF9 }), .ctl 0, by decide +kernel⟩,
   ⟨svc.upd (fun d => d.setQueue (.ctl 0) { Queue.control 0 with overrun := true }), .ctl 0, by decide +kernel⟩⟩

theorem test_submitted_packet_is_posted :
    (match exec (.submitGranule 0 0xFFFF 0 (List.replicate 64 0)) svc with
      | .next t => decide ((t.dev.queue (.ctl 0)).posted = 1 ∧ t.mem = svc.mem)
      | _ => false) = true := by decide +kernel

/-- Control queue 0 stopped. -/
def stoppedState : State :=
  svc.upd (fun d => d.setQueue (.ctl 0) { Queue.control 0 with state := .stopped, failed := true, stopStatus := 0x22 })

theorem test_restarts :
    (∃ (s : State) (f : Nat) (win : Nat) (v : Word) (q : QRef), writable s.dev f (windowOff win) = true ∧ bitOf v 4 = true ∧ bitOf v 5 = false ∧ windowQ s.dev f win = some q ∧
      (s.dev.queue q).state = .stopped) ∧
    (∃ (s : State) (f : Nat) (win : Nat) (v : Word) (q : QRef), writable s.dev f (windowOff win) = true ∧ bitOf v 4 = true ∧ bitOf v 5 = false ∧ windowQ s.dev f win = some q ∧
      (s.dev.queue q).state ≠ .stopped) ∧
    (∃ (s : State) (f : Nat) (win : Nat) (v : Word) (q : QRef), writable s.dev f (windowOff win) = true ∧ bitOf v 4 = true ∧ bitOf v 5 = true ∧ windowQ s.dev f win = some q ∧
      (s.dev.queue q).state = .stopped) :=
  ⟨⟨stoppedState, 0, 0xFFFF, 0x10, .ctl 0, by decide +kernel⟩, ⟨svc, 0, 0xFFFF, 0x10, .ctl 0, by decide +kernel⟩,
   ⟨stoppedState, 0, 0xFFFF, 0x30, .ctl 0, by decide +kernel⟩⟩

/-- The fault ring of function 0 in use, with room, and one record held. -/
def heldState (cfg : Word) : State := svc.upd (fun d => d.modFn 0 (fun x => { x with faultRing := { Ring.zero with cfg := cfg }, held := [⟨List.replicate 8 0⟩] }))

theorem test_rings :
    (∃ (s : State) (f : Nat), writable s.dev f 0xF0020 = true) ∧ (∃ (s : State) (f : Nat) (v : Word), writable s.dev f 0xF0000 = true ∧ 11 ≤ fld v 11 8) ∧
    (∃ (s : State) (f : Nat) (v : Word), writable s.dev f 0xF0000 = true ∧ fld v 11 8 < 11) ∧ (∃ (s : State) (f : Nat), writable s.dev f 0xF0028 = true) ∧
    (∃ (s : State) (f : Nat), writable s.dev f 0xF0008 = true) ∧
    (∃ (s : State) (f : Nat) (c : Nat), c < 1024 ∧ writable s.dev f (0xF4000 + 32 * c) = true ∧ ownsCtx s.dev f c = true) ∧
    (∃ (s : State) (f : Nat) (c : Nat), c < 1024 ∧ writable s.dev f (0xF4000 + 32 * c + 8) = true ∧ ownsCtx s.dev f c = true) ∧
    (∃ (d : Dev) (f : Nat), (d.fn f).faultRing.open_ = false) ∧
    (∃ (d : Dev) (f : Nat) (r : FaultRec) (rs : List FaultRec), (d.fn f).held = r :: rs ∧ (d.fn f).faultRing.open_ = true) ∧
    (∃ (s : State) (f : Nat), ∃ e, s.dev.host.retry.find? (fun x => x.1 == f) = some e) ∧
    (∃ (s : State) (f : Nat), s.dev.host.retry.find? (fun x => x.1 == f) = none) :=
  let c : State := svc.upd (fun d => { d with ctxs := [(1023, { Ctx.none with live := true })] })
  ⟨⟨svc.upd (fun d => { d with opts := { d.opts with vfEn := true } }), 255, by decide +kernel⟩, ⟨svc, 0, 0xB00, by decide +kernel⟩, ⟨svc, 0, 0xA00, by decide +kernel⟩, ⟨svc, 0, by decide +kernel⟩,
   ⟨svc, 0, by decide +kernel⟩, ⟨c, 0, 1023, by decide +kernel⟩, ⟨c, 0, 1023, by decide +kernel⟩, ⟨svc.dev, 0, by decide +kernel⟩,
   ⟨(heldState 1).dev, 0, ⟨List.replicate 8 0⟩, [], by decide +kernel⟩,
   ⟨svc.upd (fun d => { d with host := { d.host with retry := [(0, 0x1000, List.replicate 8 0)] } }), 0, some_of (by decide +kernel)⟩,
   ⟨svc, 0, by decide +kernel⟩⟩

theorem test_interrupts :
    (∃ (s : State) (f : Nat), writable s.dev f 0xF1000 = true) ∧ (∃ (s : State) (f : Nat), writable s.dev f 0xF1008 = true) ∧ (∃ (s : State) (f : Nat), writable s.dev f 0xF1010 = true) ∧
    (∃ (s : State) (f v : Nat), s.dev.inService = true ∧ (s.dev.fn f).intEn = true ∧ v < 64 ∧ bitOf (s.dev.fn f).intPend v = true ∧
      bitOf (s.dev.fn f).intMask v = false) ∧
    (∃ (s : State) (f : Nat), (s.dev.fn f).intEn = false) ∧ (∃ (s : State) (f v : Nat), bitOf (s.dev.fn f).intPend v = false) ∧
    (∃ (s : State) (f v : Nat), bitOf (s.dev.fn f).intMask v = true) ∧
    (∃ (s : State) (f : Nat) (off : Nat), writable s.dev f off = false) ∧ (∃ (s : State) (f off o : Nat), writable s.dev f off = true ∧ off % 8 = 0 ∧ areaOf off = .ident o) ∧
    (∃ off, areaOf off = .reserved) ∧ (∃ (s : State) (f : Nat), writable s.dev f 0xF1018 = true) ∧ (∃ (s : State) (f : Nat), writable s.dev f 0xF1020 = true) ∧
    (∃ s : State, writable s.dev 0 0x2000 = true ∧ s.dev.boot.keyArmed = true) ∧
    (∃ s : State, writable s.dev 0 0x2000 = true ∧ s.dev.boot.keyArmed = false) :=
  ⟨⟨svc, 0, by decide +kernel⟩, ⟨svc, 0, by decide +kernel⟩, ⟨svc, 0, by decide +kernel⟩,
   ⟨svc.upd (fun d => d.modFn 0 (fun x => { x with intEn := true, intPend := 0x8000000000000000 })), 0, 63, by decide +kernel⟩,
   ⟨svc, 0, by decide +kernel⟩, ⟨svc, 0, 0, by decide +kernel⟩, ⟨svc.upd (fun d => d.modFn 0 (fun x => { x with intMask := 1 })), 0, 0, by decide +kernel⟩,
   ⟨State.reset, 3, 0x1000, by decide +kernel⟩, ⟨svc, 0, 0, 0, by decide +kernel⟩, ⟨0xF2000, by decide +kernel⟩,
   ⟨svc, 0, by decide +kernel⟩, ⟨svc, 0, by decide +kernel⟩,
   ⟨svc.upd (fun d => { d with boot := { d.boot with keyArmed := true } }), by decide +kernel⟩, ⟨svc, by decide +kernel⟩⟩

/-! ## Tables, grants and the host port -/

/-- In service with one grant. -/
def grantState (g : Grant) : State := svc.upd (fun d => { d with grants := [(511, g)] })
/-- A grant word: state, owner 7, base 2 MiB. -/
def gw (st : Nat) : Word := BitVec.ofNat 64 (st * 2 ^ 62 + 7 * 2 ^ 46 + 2 ^ 21)
/-- The host-coupled instance in service. -/
def hostSvc : State := { svc with params := Params.k3_29_H }

theorem test_table_entries :
    (∃ (s : State) (pl : Nat) (i : Nat) (v : Word), pl < s.params.panels ∧ s.params.panels ≤ 4 ∧ i < 16 ∧ writable s.dev 0 (0x4000 + 8 * (16 * pl + i)) = true ∧
      partRefused s.params s.dev pl i v = false) ∧
    (∃ (s : State) (pl : Nat) (i : Nat) (v : Word), pl < s.params.panels ∧ s.params.panels ≤ 4 ∧ i < 16 ∧ writable s.dev 0 (0x4000 + 8 * (16 * pl + i)) = true ∧
      partRefused s.params s.dev pl i v = true) ∧
    (∃ (s : State) (f : Nat) (v : Word), f < 256 ∧ writable s.dev 0 (0x4800 + 8 * f) = true ∧ vecRefused s.dev f v = false) ∧
    (∃ (s : State) (f : Nat) (v : Word), f < 256 ∧ writable s.dev 0 (0x4800 + 8 * f) = true ∧ vecRefused s.dev f v = true) ∧
    (∃ (s : State) (f : Nat), f < 256 ∧ writable s.dev 0 (0x8000 + 16 * f) = true) ∧ (∃ s : State, s.dev.boot.inReset = false) :=
  ⟨⟨svc, 1, 15, 0x0007000000000001, by decide +kernel⟩, ⟨svc, 1, 15, 0x8007000000000001, by decide +kernel⟩,
   ⟨svc, 255, 0xFFE04000, by decide +kernel⟩, ⟨svc, 255, 0xFFFFFFFF, by decide +kernel⟩, ⟨svc, 255, by decide +kernel⟩, ⟨svc, rfl⟩⟩

theorem test_grant_writes :
    (∃ (s : State) (g : Nat), g < 512 ∧ writable s.dev 0 (0x5008 + 16 * g) = true ∧ (s.dev.grant g).state = 0) ∧
    (∃ (s : State) (g : Nat), g < 512 ∧ writable s.dev 0 (0x5008 + 16 * g) = true ∧ (s.dev.grant g).state ≠ 0) ∧
    (∃ (s : State) (g : Nat) (v : Word), g < 512 ∧ writable s.dev 0 (0x5000 + 16 * g) = true ∧ (s.dev.grant g).state = 0 ∧ fld v 63 62 = 0) ∧
    (∃ (s : State) (g : Nat) (v : Word), g < 512 ∧ writable s.dev 0 (0x5000 + 16 * g) = true ∧ (s.dev.grant g).state = 0 ∧ fld v 63 62 = 1 ∧
      mayGrant s.params s.dev g { s.dev.grant g with w0 := grantW0Fields v, wipe := false, purged := false } = true) ∧
    (∃ (s : State) (g : Nat) (v : Word), g < 512 ∧ writable s.dev 0 (0x5000 + 16 * g) = true ∧ (s.dev.grant g).state = 0 ∧ fld v 63 62 = 1 ∧
      mayGrant s.params s.dev g { s.dev.grant g with w0 := grantW0Fields v, wipe := false, purged := false } = false) ∧
    (∃ (s : State) (g : Nat) (v : Word), g < 512 ∧ writable s.dev 0 (0x5000 + 16 * g) = true ∧ (s.dev.grant g).state = 1 ∧ fld v 63 62 = 1) ∧
    (∃ (s : State) (g : Nat), g < 512 ∧ writable s.dev 0 (0x5000 + 16 * g) = true ∧ (s.dev.grant g).state = 2) ∧
    (∃ (s : State) (g : Nat) (v : Word), g < 512 ∧ writable s.dev 0 (0x5000 + 16 * g) = true ∧ (s.dev.grant g).state = 0 ∧ fld v 63 62 = 2) ∧
    (∃ (s : State) (g : Nat) (v : Word), g < 512 ∧ writable s.dev 0 (0x5000 + 16 * g) = true ∧ (s.dev.grant g).state = 1 ∧ fld v 63 62 = 3) ∧
    (∃ (s : State) (g : Nat) (v : Word), g < 512 ∧ writable s.dev 0 (0x5000 + 16 * g) = true ∧ (s.dev.grant g).state = 1 ∧ fld v 63 62 = 0) ∧
    (∃ (s : State) (g : Nat) (v : Word), g < 512 ∧ writable s.dev 0 (0x5000 + 16 * g) = true ∧ (s.dev.grant g).state = 1 ∧ fld v 63 62 = 2) ∧
    (∃ (s : State) (g : Nat), (s.dev.grant g).state = 2 ∧ (s.dev.grant g).purged = false ∧
      requestsIn s.params s.dev (s.dev.grant g).owner (s.dev.grant g).base (s.dev.grant g).bytes = false ∧ (s.dev.grant g).wipe = false) ∧
    (∃ (s : State) (g : Nat), (s.dev.grant g).state = 2 ∧ (s.dev.grant g).purged = false ∧
      requestsIn s.params s.dev (s.dev.grant g).owner (s.dev.grant g).base (s.dev.grant g).bytes = false ∧ (s.dev.grant g).wipe = true) ∧
    (∃ (s : State) (g : Nat), (s.dev.grant g).state = 2 ∧ (s.dev.grant g).purged = false ∧
      requestsIn s.params s.dev (s.dev.grant g).owner (s.dev.grant g).base (s.dev.grant g).bytes = true) ∧
    (∃ (s : State) (g : Nat), (s.dev.grant g).state = 2 ∧ (s.dev.grant g).wipe = true ∧ (s.dev.grant g).purged = true) :=
  ⟨⟨svc, 511, by decide +kernel⟩, ⟨grantState ⟨gw 1, 1, false, false⟩, 511, by decide +kernel⟩, ⟨svc, 511, gw 0, by decide +kernel⟩,
   ⟨{ grantState ⟨gw 0, 1, false, false⟩ with params := Params.k3_29_H }, 511, gw 1, by decide +kernel⟩,
   ⟨svc, 511, gw 1, by decide +kernel⟩, ⟨grantState ⟨gw 1, 1, false, false⟩, 511, gw 1, by decide +kernel⟩,
   ⟨grantState ⟨gw 2, 1, false, false⟩, 511, by decide +kernel⟩, ⟨svc, 511, gw 2, by decide +kernel⟩,
   ⟨grantState ⟨gw 1, 1, false, false⟩, 511, gw 3, by decide +kernel⟩, ⟨grantState ⟨gw 1, 1, false, false⟩, 511, gw 0, by decide +kernel⟩,
   ⟨grantState ⟨gw 1, 1, false, false⟩, 511, gw 2, by decide +kernel⟩, ⟨grantState ⟨gw 2, 1, false, false⟩, 511, by decide +kernel⟩,
   ⟨grantState ⟨gw 2, 1, true, false⟩, 511, by decide +kernel⟩,
   ⟨{ (grantState ⟨gw 2, 1, false, false⟩).upd (fun d => { d with host := { d.host with
      accq := [⟨0, .unit, .accum, 0x200000, false, 7, 0, 0, 1, [], 0, 0, 0⟩] } }) with params := Params.k3_29_H }, 511, by decide +kernel⟩,
   ⟨grantState ⟨gw 2, 1, true, true⟩, 511, by decide +kernel⟩⟩

theorem test_wipe_hypotheses : ∃ s : State, hostBacked s.params = true ∧ Memory.wf s.mem.host = true := ⟨hostSvc, by decide +kernel⟩

/-- The host-coupled instance in service with aperture accesses enabled. -/
def apState : State := hostSvc.upd (fun d => { d with opts := { d.opts with peerEn := true } })
/-- An initiator request of function 3. -/
def reqH (tag : Nat) (use : HostUse) (ab : Bool) : HostReq := ⟨tag, 0, 3, 0x3FF, 0, 0x1000, [], [], use, ab⟩
/-- In service with one initiator request outstanding. -/
def hostState (r : HostReq) : State := svc.upd (fun d => { d with host := { d.host with reqs := [r] } })
/-- Function 3 is being reset. -/
def resetting (s : State) : State := s.upd (fun d => d.modFn 3 (fun x => { x with inReset := true }))

theorem test_aperture :
    (∃ (s : State) (f a nw : Nat) (ts : List (Target × Nat)), apShape s.dev f a (8 * (nw + 1)) = true ∧ a % 8 = 0 ∧ apServed s.dev f = true ∧
      apTargets s f a (8 * (nw + 1)) .read = some ts) ∧
    (∃ (s : State) (t : Target) (n : Nat) (bs : List Byte), readTarget s t n = some bs) ∧
    (∃ (s : State) (f a nw : Nat), apShape s.dev f a (8 * (nw + 1)) = true ∧ a % 8 = 0 ∧ apServed s.dev f = true ∧ apTargets s f a (8 * (nw + 1)) .read = none) ∧
    (∃ (s : State) (f a nw : Nat), apShape s.dev f a (8 * (nw + 1)) = true ∧ a % 8 = 0 ∧ apServed s.dev f = false) ∧
    (∃ (s : State) (f a : Nat) (data : List Byte) (be : List Bool) (ts : List (Target × Nat)), apShape s.dev f a data.length = true ∧
      be.length = data.length ∧ apServed s.dev f = true ∧ apTargets s f a data.length .write = some ts) ∧
    (∃ (s : State) (f a : Nat) (data : List Byte), apTargets s f a data.length .write = none) := by
  obtain ⟨ts, h⟩ := some_of (o := apTargets apState 0 0x100000000000C0 (8 * (7 + 1)) .read) (by decide +kernel)
  obtain ⟨ws, g⟩ := some_of (o := apTargets apState 0 0x100000000000F8 (List.replicate 8 (1 : Byte)).length .write) (by decide +kernel)
  obtain ⟨bs, e⟩ := some_of (o := readTarget apState (.host 0x40 false) 64) (by decide +kernel)
  exact ⟨⟨apState, 0, 0x100000000000C0, 7, ts, by decide +kernel, by decide, by decide +kernel, h⟩, ⟨apState, .host 0x40 false, 64, bs, e⟩,
    ⟨svc, 0, 0xFFFFFFFFF00, 7, by decide +kernel⟩, ⟨apState, 1, 0x100000000000C0, 7, by decide +kernel⟩,
    ⟨apState, 0, 0x100000000000F8, List.replicate 8 1, List.replicate 8 true, ws, by decide +kernel, by decide, by decide +kernel, g⟩,
    ⟨svc, 0, 0xFFFFFFFFF00, [1], by decide +kernel⟩⟩

theorem test_host_port :
    (∃ (s : State) (tag : Nat), ∃ r, s.dev.host.reqs.find? (fun x => x.tag == tag && tag != noTag) = some r ∧ r.abandoned = false) ∧
    (∃ (s : State) (tag : Nat), ∃ r, s.dev.host.reqs.find? (fun x => x.tag == tag && tag != noTag) = some r ∧ r.abandoned = true) ∧
    (∃ (s : State) (tag : Nat), s.dev.host.reqs.find? (fun x => x.tag == tag && tag != noTag) = none) ∧
    (∃ r : HostReq, r.use = .unitWrite) ∧ (∃ r : HostReq, r.use = .mcWrite) ∧ (∃ (r : HostReq) (a : Nat), r.use = .accWrite a) ∧
    (∃ (r : HostReq) (a : Nat), r.use = .accRead a) ∧
    (∃ (s : State) (tag : Nat) (r : HostReq), tag ≠ noTag ∧
      s.dev.host.reqs.find? (fun x => x.tag == tag && !x.abandoned && mayAbandon s.dev x) = some r ∧ ∀ a, r.use ≠ .accRead a) ∧
    (∃ (s : State) (tag : Nat), s.dev.host.reqs ≠ [] ∧ ∀ r ∈ s.dev.host.reqs, r.tag = tag → r.abandoned = true ∨ mayAbandon s.dev r = false) ∧
    (∃ (d : Dev) (r : HostReq), (∀ u, r.use ≠ .mcRead u) ∧ (d.fn r.func).inReset = true) ∧
    (∃ (s : State) (f : Nat), s.dev.boot.inReset = false ∧ s.dev.boot.targetReady = true ∧ f < 256) ∧
    (∃ s : State, s.dev.boot.targetReady = false) ∧
    (∃ (s : State) (g : Nat), s.params.hostCoupled = true ∧ s.dev.boot.inReset = false ∧ ∀ e ∈ s.dev.host.accBuf, e.addr ≠ gran g) ∧
    (∃ (s : State) (g : Nat), ∃ e, s.params.hostCoupled = true ∧ s.dev.boot.inReset = false ∧ s.dev.host.accBuf.find? (fun x => x.addr == gran g) = some e ∧
      e.dirty = true) :=
  ⟨⟨hostState (reqH 5 .msg false), 5, reqH 5 .msg false, by decide +kernel⟩,
   ⟨hostState (reqH 5 .msg true), 5, reqH 5 .msg true, by decide +kernel⟩, ⟨svc, 1023, by decide +kernel⟩,
   ⟨reqH 5 .unitWrite false, rfl⟩, ⟨reqH 5 .mcWrite false, rfl⟩, ⟨reqH 5 (.accWrite 64) false, 64, rfl⟩, ⟨reqH 5 (.accRead 64) false, 64, rfl⟩,
   ⟨resetting (hostState (reqH 5 .msg false)), 5, reqH 5 .msg false, by decide, by decide +kernel, fun a h => by cases h⟩,
   ⟨hostState (reqH 5 .msg false), 5, by decide +kernel⟩,
   ⟨(resetting svc).dev, reqH 5 .msg false, (fun u h => by cases h), by decide +kernel⟩,
   ⟨svc, 255, by decide +kernel⟩, ⟨State.reset, by decide +kernel⟩, ⟨hostSvc, 0x40, by decide +kernel⟩,
   ⟨hostSvc.upd (fun d => { d with host := { d.host with accBuf := [⟨0x40, List.replicate 64 1, true, 0⟩] } }), 0x7F,
     ⟨0x40, List.replicate 64 1, true, 0⟩, by decide +kernel⟩⟩

/-! ## Reset, power, stack ports -/

/-- A request of a core at a stack port. -/
def preq (id f core : Nat) (op : PortOp) : PortReq := ⟨id, .core 0 id, op, 0x40, false, f, 0x3FF, core, 0xFFFF, List.replicate 64 0, 1, 2, 0⟩
/-- In service with one stack port. -/
def portState (q : StackPort) : State := svc.upd (fun d => { d with ports := [(portKey 1 9, q)] })
/-- In service with these pins. -/
def pinState (f : Pins → Pins) : State := svc.upd (fun d => { d with pins := f d.pins })
/-- In service with this always-on domain. -/
def aonState (a : Aon) : State := svc.upd (fun d => { d with aon := a })
/-- In reset by k3_rst_n. -/
def inReset : State := deviceReset svc 2 0

theorem test_reset_sources :
    (∃ (s : State) (pl : Nat), pl < s.params.panels ∧ pl ∉ s.dev.pins.pwrLow) ∧ (∃ (s : State) (pl : Nat), pl < s.params.panels ∧ pl ∈ s.dev.pins.pwrLow) ∧
    (∃ (s : State) (pl : Nat), s.params.panels ≤ pl) ∧ (∃ (s : State) (pl : Nat) (c : Nat), 0 < pl ∧ pl < s.params.panels ∧ 0 < c ∧ c < 8) ∧
    (∃ (s : State) (c : Nat), s.dev.boot.inReset = true ∧ s.dev.aon.fresh = false ∧ c < s.dev.aon.cause) ∧
    (∃ (s : State) (c : Nat), s.dev.boot.inReset = true ∧ s.dev.aon.fresh = true ∧ s.dev.aon.cause ≤ c) ∧
    (∃ (s : State) (c : Nat), s.dev.boot.inReset = true ∧ s.dev.aon.fresh = true ∧ c < s.dev.aon.cause) ∧
    (∃ s : State, s.dev.boot.inReset = false) :=
  ⟨⟨svc, 1, by decide +kernel⟩, ⟨pinState (fun p => { p with pwrLow := [1] }), 1, by decide +kernel⟩, ⟨svc, 2, by decide +kernel⟩,
   ⟨svc, 1, 7, by decide +kernel⟩, ⟨inReset.upd (fun d => { d with aon := { d.aon with fresh := false } }), 1, by decide +kernel⟩,
   ⟨inReset, 2, by decide +kernel⟩, ⟨inReset, 1, by decide +kernel⟩, ⟨svc, rfl⟩⟩

theorem test_release_and_clock_monitor :
    (∃ s : State, s.dev.boot.inReset = true ∧
      (∀ pl, pl < s.params.panels → pl ∉ s.dev.pins.pwrLow ∧ pl ∉ s.dev.pins.rstLow ∧ Tbl.get 0 pl s.dev.aon.monitor = 0) ∧
      (∀ e ∈ s.dev.pins.holdIn, e.2 = 0) ∧ s.dev.boot.hold = 0) ∧
    (∃ (s : State) (pl : Nat), pl < s.params.panels ∧ pl ∈ s.dev.pins.pwrLow) ∧ (∃ (s : State) (pl : Nat), pl < s.params.panels ∧ pl ∈ s.dev.pins.rstLow) ∧
    (∃ s : State, s.dev.boot.hold ≠ 0) ∧ (∃ (s : State) (pl : Nat), pl < s.params.panels ∧ Tbl.get 0 pl s.dev.aon.monitor ≠ 0) ∧
    (∃ s : State, ∃ e ∈ s.dev.pins.holdIn, e.2 ≠ 0) ∧
    (∃ s : State, s.dev.mc.fatal = true) ∧ (∃ s : State, s.dev.mc.fatal = false) ∧ (∃ (s : State) (u : Nat), s.dev.boot.inReset = false ∧ u ∈ sharedUnits ∧ u = 9) ∧
    (∃ (s : State) (pl n : Nat), pl < s.params.panels ∧ clockInRange n = false) ∧
    (∃ (s : State) (pl n : Nat), clockInRange n = true ∧ pl ∉ s.dev.pins.pwrLow ∧ Tbl.get 0 pl s.dev.aon.monitor ≠ 0 ∧ Tbl.get 0 pl s.dev.aon.goodWindows = 0) ∧
    (∃ (s : State) (pl n : Nat), clockInRange n = true ∧ pl ∉ s.dev.pins.pwrLow ∧ Tbl.get 0 pl s.dev.aon.monitor ≠ 0 ∧ Tbl.get 0 pl s.dev.aon.goodWindows ≠ 0) ∧
    (∃ (s : State) (pl n : Nat), clockInRange n = true ∧ Tbl.get 0 pl s.dev.aon.monitor = 0) :=
  ⟨⟨inReset, by decide +kernel⟩, ⟨pinState (fun p => { p with pwrLow := [1] }), 1, by decide +kernel⟩, ⟨pinState (fun p => { p with rstLow := [0] }), 0, by decide +kernel⟩,
   ⟨deviceReset svc 3 3, by decide +kernel⟩, ⟨aonState { Aon.powerUp with monitor := [(1, 5)] }, 1, by decide +kernel⟩,
   ⟨pinState (fun p => { p with holdIn := [(1, 7)] }), (1, 7), by decide +kernel⟩,
   ⟨svc.upd (fun d => { d with mc := { d.mc with fatal := true } }), rfl⟩, ⟨svc, rfl⟩, ⟨svc, 9, by decide +kernel⟩, ⟨svc, 1, 1716, by decide +kernel⟩,
   ⟨aonState { Aon.powerUp with monitor := [(1, 6)] }, 1, 1717, by decide +kernel⟩,
   ⟨aonState { Aon.powerUp with monitor := [(1, 6)], goodWindows := [(1, 1)] }, 1, 2574, by decide +kernel⟩, ⟨svc, 0, 2574, by decide +kernel⟩⟩

theorem test_power_windows :
    (∃ (s : State) (w : Nat), s.dev.inService = true ∧ w < 0xFFFF) ∧
    (∃ s : State, s.dev.inService = true ∧ 0 < s.dev.mc.pwrCount ∧ s.dev.opts.powerCap * s.dev.mc.pwrCount < s.dev.mc.pwrSum) ∧
    (∃ s : State, s.dev.inService = true ∧ 0 < s.dev.mc.pwrCount ∧ 100 * s.dev.mc.pwrSum < 95 * s.dev.opts.powerCap * s.dev.mc.pwrCount) :=
  ⟨⟨svc, 0xFFFE, by decide⟩, ⟨svc.upd (fun d => { d with mc := { d.mc with pwrSum := 1, pwrCount := 1 } }), by decide +kernel⟩,
   ⟨svc.upd (fun d => { d with mc := { d.mc with pwrSum := 94, pwrCount := 1 }, opts := { d.opts with powerCap := 100 } }), by decide +kernel⟩⟩

theorem test_port_responses :
    (∃ (s : State) (pl pt sub tag st : Nat) (r : PortReq), (s.dev.port (portKey pl pt)).outR.find? (fun x => x.sub == sub && x.tag == tag) = some r ∧
      r.part = 0 ∧ r.two = false ∧ st % 4 < 2 ∧ r.data ≠ [] ∧ r.src ≠ .unit) ∧
    (∃ (s : State) (pl pt sub tag st : Nat) (r : PortReq), (s.dev.port (portKey pl pt)).outR.find? (fun x => x.sub == sub && x.tag == tag) = some r ∧
      r.part = 0 ∧ r.two = false ∧ 2 ≤ st % 4 ∧ r.src ≠ .unit) ∧
    (∃ (s : State) (pl pt sub tag st : Nat) (r : PortReq), (s.dev.port (portKey pl pt)).outR.find? (fun x => x.sub == sub && x.tag == tag) = some r ∧
      r.part = 0 ∧ r.two = false ∧ st % 4 = 0 ∧ r.data ≠ [] ∧ r.src = .unit) ∧
    (∃ (s : State) (pl : Nat) (pt : Nat) (sub : Nat) (tag : Nat), (s.dev.port (portKey pl pt)).outR.find? (fun x => x.sub == sub && x.tag == tag) = none) ∧
    (∃ (s : State) (pl pt sub tag : Nat) (r : PortReq), (s.dev.port (portKey pl pt)).outW.find? (fun x => x.sub == sub && x.tag == tag) = some r) ∧
    (∃ (s : State) (pl : Nat) (pt : Nat) (sub : Nat) (tag : Nat), (s.dev.port (portKey pl pt)).outW.find? (fun x => x.sub == sub && x.tag == tag) = none) :=
  ⟨⟨portState { StackPort.zero with outR := [preq 4 0 0 .read] }, 1, 9, 1, 2, 13, preq 4 0 0 .read, by decide +kernel⟩,
   ⟨portState { StackPort.zero with outR := [preq 4 0 0 .read] }, 1, 9, 1, 2, 14, preq 4 0 0 .read, by decide +kernel⟩,
   ⟨portState { StackPort.zero with outR := [{ preq 4 0 0 .read with src := .unit }] }, 1, 9, 1, 2, 12, { preq 4 0 0 .read with src := .unit }, by decide +kernel⟩,
   ⟨svc, 1, 9, 7, 255, by decide +kernel⟩,
   ⟨portState { StackPort.zero with outW := [preq 4 0 0 .write] }, 1, 9, 1, 2, preq 4 0 0 .write, by decide +kernel⟩, ⟨svc, 1, 9, 7, 255, by decide +kernel⟩⟩

/-- A ready port at which functions 0 and 3 have requests. -/
def busyPort : StackPort := { StackPort.zero with ready := true, waiting := [preq 1 3 8 .read, preq 2 0 5 .read, preq 3 0 6 .read] }
/-- Bring-up at a phase. -/
def phaseState (n : Nat) : State := State.reset.upd (fun d => { d with boot := { d.boot with phase := n } })

theorem busy_grants (q : StackPort) (h : q = busyPort ∨ q = { busyPort with ready := false, lost := true }) : ∃ q1,
    pickFn (portState q).dev ((portState q).dev.port (portKey 1 9)) (fun f => !capped (portState q).dev ((portState q).dev.port (portKey 1 9)) f &&
      !((portState q).dev.fn f).inReset && ((portState q).dev.port (portKey 1 9)).waiting.any (fun r => r.func == f))
      (grantSize ((portState q).dev.port (portKey 1 9))) = some (0, q1) ∧ pickReq ((portState q).dev.port (portKey 1 9)) 0 = some (preq 2 0 5 .read) := by
  have aux (o : Option (Nat × StackPort)) (P : Prop) (h : o.map Prod.fst = some 0) (hp : P) : ∃ q1, o = some (0, q1) ∧ P := by
    cases o with
    | none => cases h
    | some x => obtain ⟨f, q1⟩ := x; cases h; exact ⟨q1, rfl, hp⟩
  rcases h with rfl | rfl
  · exact aux _ _ (by decide +kernel) (by decide +kernel)
  · exact aux _ _ (by decide +kernel) (by decide +kernel)

theorem test_port_grants :
    (∃ (s : State) (pl : Nat) (pt : Nat), (s.dev.port (portKey pl pt)).ready = false ∧ (s.dev.port (portKey pl pt)).lost = false) ∧
    (∃ (s : State) (pl pt : Nat) (q : StackPort) (f : Nat) (q1 : StackPort) (r : PortReq), q = s.dev.port (portKey pl pt) ∧ q.ready = true ∧ q.lost = false ∧
      pickFn s.dev q (fun f => !capped s.dev q f && !(s.dev.fn f).inReset && q.waiting.any (fun r => r.func == f)) (grantSize q) = some (f, q1) ∧
      pickReq q f = some r) ∧
    (∃ (s : State) (pl pt : Nat) (q : StackPort) (f : Nat) (q1 : StackPort) (r : PortReq), q = s.dev.port (portKey pl pt) ∧ q.lost = true ∧
      pickFn s.dev q (fun f => !capped s.dev q f && !(s.dev.fn f).inReset && q.waiting.any (fun r => r.func == f)) (grantSize q) = some (f, q1) ∧
      pickReq q f = some r) ∧
    (∃ (s : State) (pl pt : Nat), (s.dev.port (portKey pl pt)).waiting ≠ [] ∧
      ∀ r ∈ (s.dev.port (portKey pl pt)).waiting, (s.dev.fn r.func).inReset = true ∨ 256 ≤ r.func) ∧
    (∃ (s : State) (pl : Nat) (pt : Nat), inPhase s.dev 3 = true ∧ pl < livePanels s.params s.dev ∧ pt < s.params.stackPorts ∧ (s.dev.port (portKey pl pt)).ready = false) ∧
    (∃ s : State, inPhase s.dev 3 = false) ∧ (∃ (s : State) (pl : Nat) (pt : Nat), (s.dev.port (portKey pl pt)).ready = false) ∧ (∃ s : State, s.dev.inService = false) ∧
    (∃ (s : State) (pl : Nat) (pt : Nat), (s.dev.port (portKey pl pt)).ready = true ∧ s.dev.inService = true ∧ (s.dev.port (portKey pl pt)).outR = [] ∧
      (s.dev.port (portKey pl pt)).outW = [] ∧ (s.dev.port (portKey pl pt)).accq = []) := by
  obtain ⟨q1, a, b⟩ := busy_grants busyPort (.inl rfl)
  obtain ⟨q2, c, e⟩ := busy_grants { busyPort with ready := false, lost := true } (.inr rfl)
  exact ⟨⟨svc, 1, 9, by decide +kernel⟩, ⟨portState busyPort, 1, 9, _, 0, q1, _, rfl, by decide +kernel, by decide +kernel, a, b⟩,
    ⟨portState { busyPort with ready := false, lost := true }, 1, 9, _, 0, q2, _, rfl, by decide +kernel, c, e⟩,
    ⟨resetting (portState { busyPort with waiting := [preq 1 3 8 .read] }), 1, 9, by decide +kernel, by decide +kernel⟩,
    ⟨phaseState 3, 1, 9, by decide +kernel⟩, ⟨svc, by decide +kernel⟩, ⟨svc, 1, 9, by decide +kernel⟩,
    ⟨State.reset, by decide +kernel⟩, ⟨portState { StackPort.zero with ready := true }, 1, 9, by decide +kernel⟩⟩

theorem test_weighted_function_goes_first :
    (pickFn (svc.upd (fun d => { d with funcs := [(3, { FuncSt.reset 3 with qosNow := 0x8000020000000000 })] })).dev busyPort
      (fun f => busyPort.waiting.any (fun r => r.func == f)) (grantSize busyPort)).map (fun x => (x.1, x.2.credits)) = some (3, [(3, 1)]) := by decide +kernel

/-- An accumulate at a stack port. -/
def accReq : PortReq := { preq 1 0 0 .accum with src := .unit }

/-- Granule 0x40 of zeros in the buffer of the host port's unit. -/
def heldZero : HeldGran := ⟨0x40, List.replicate 64 0, false, 0⟩
/-- The host-coupled instance in service, its unit holding that granule and these operations queued. -/
def unitState (q : List PortReq) : State := hostSvc.upd (fun d => { d with host := { d.host with accq := q, accBuf := [heldZero] } })

theorem test_accumulate_units :
    (∃ (s : State) (pl pt : Nat) (r : PortReq) (rest : List PortReq) (g : BufGran), ¬ (pl = 0 ∧ pt = hostUnit) ∧ (s.dev.port (portKey pl pt)).accq = r :: rest ∧
      r.two = false ∧ (s.dev.port (portKey pl pt)).buf.find? (fun x => x.addr == r.addr) = some g ∧ r.op = .accum) ∧
    (∃ (s : State) (pl pt : Nat) (r : PortReq) (rest : List PortReq) (g : BufGran), ¬ (pl = 0 ∧ pt = hostUnit) ∧ (s.dev.port (portKey pl pt)).accq = r :: rest ∧
      r.two = false ∧ (s.dev.port (portKey pl pt)).buf.find? (fun x => x.addr == r.addr) = some g ∧ r.op = .zeroRead) ∧
    (∃ (s : State) (pl pt : Nat) (r : PortReq) (rest : List PortReq) (g : BufGran), ¬ (pl = 0 ∧ pt = hostUnit) ∧ (s.dev.port (portKey pl pt)).accq = r :: rest ∧
      r.two = false ∧ (s.dev.port (portKey pl pt)).buf.find? (fun x => x.addr == r.addr) = some g ∧ r.op = .clear) ∧
    (∃ (s : State) (pl pt : Nat) (r : PortReq) (rest : List PortReq) (a : Nat) (as : List Nat), ¬ (pl = 0 ∧ pt = hostUnit) ∧
      (s.dev.port (portKey pl pt)).accq = r :: rest ∧ unbuffered (s.dev.port (portKey pl pt)) r = a :: as ∧ unitHolds (s.dev.port (portKey pl pt)) < 64 ∧
      r.op = .accum ∧ ∀ x ∈ (s.dev.port (portKey pl pt)).outR, x.src = .unit → x.addr ≠ a) ∧
    (∃ (s : State) (pl pt : Nat) (r : PortReq) (rest : List PortReq) (a : Nat) (as : List Nat), ¬ (pl = 0 ∧ pt = hostUnit) ∧
      (s.dev.port (portKey pl pt)).accq = r :: rest ∧ unbuffered (s.dev.port (portKey pl pt)) r = a :: as ∧ unitHolds (s.dev.port (portKey pl pt)) < 64 ∧
      r.op = .clear) ∧
    (∃ (s : State) (pl : Nat) (pt : Nat), ¬ (pl = 0 ∧ pt = hostUnit) ∧ (s.dev.port (portKey pl pt)).accq = []) ∧
    (∃ (s : State) (pl pt a : Nat) (g : BufGran) (t : Nat), ¬ (pl = 0 ∧ pt = hostUnit) ∧ (s.dev.port (portKey pl pt)).buf.find? (fun x => x.addr == gran a) = some g ∧
      (∀ r ∈ (s.dev.port (portKey pl pt)).accq, overlaps r.addr (64 * reqGrans r) g.addr 64 = false) ∧
      freeTag ((s.upd (fun d => d.modPort (portKey pl pt) (fun q => { q with buf := q.buf.filter (fun x => x.addr != g.addr) }))).dev.port (portKey pl pt)).outW
        (subOf (served s.params (s.upd (fun d => d.modPort (portKey pl pt) (fun q => { q with buf := q.buf.filter (fun x => x.addr != g.addr) }))).dev
          (portKey pl pt) g.addr)) = some t) :=
  let st (r : PortReq) (b : List BufGran) : State := portState { StackPort.zero with accq := [r], buf := b }
  let g : BufGran := ⟨0x40, List.replicate 64 7⟩
  ⟨⟨st accReq [g], 1, 9, accReq, [], g, by decide +kernel⟩,
   ⟨st { accReq with op := .zeroRead } [g], 1, 9, { accReq with op := .zeroRead }, [], g, by decide +kernel⟩,
   ⟨st { accReq with op := .clear } [g], 1, 9, { accReq with op := .clear }, [], g, by decide +kernel⟩,
   ⟨st accReq [], 1, 9, accReq, [], 0x40, [], by decide +kernel⟩,
   ⟨st { accReq with op := .clear } [], 1, 9, { accReq with op := .clear }, [], 0x40, [], by decide +kernel⟩,
   ⟨svc, 1, 9, by decide +kernel⟩, ⟨st { accReq with addr := 0x80 } [g], 1, 9, 0x7F, g, 0, by decide +kernel⟩⟩

theorem test_host_unit :
    (∃ (s : State) (r : PortReq) (rest : List PortReq) (d1 : Dev) (x : List Byte), s.dev.host.accq = r :: rest ∧ r.op = .accum ∧
      missing s.dev r = [] ∧ r.two = false ∧ hostOp { s.dev with host := { s.dev.host with accq := rest } } r.op r.func r.addr (r.mask % 65536) r.data = (d1, x)) ∧
    (∃ (s : State) (r : PortReq) (rest : List PortReq) (d1 : Dev) (x : List Byte), s.dev.host.accq = r :: rest ∧ r.op = .zeroRead ∧
      missing s.dev r = [] ∧ r.two = false ∧ hostOp { s.dev with host := { s.dev.host with accq := rest } } r.op r.func r.addr (r.mask % 65536) r.data = (d1, x)) ∧
    (∃ (s : State) (r : PortReq) (rest : List PortReq) (d1 : Dev) (x : List Byte), s.dev.host.accq = r :: rest ∧ r.op = .clear ∧
      missing s.dev r = [] ∧ r.two = false ∧ hostOp { s.dev with host := { s.dev.host with accq := rest } } r.op r.func r.addr (r.mask % 65536) r.data = (d1, x)) ∧
    (∃ (s : State) (r : PortReq) (rest : List PortReq) (a : Nat) (as : List Nat), s.dev.host.accq = r :: rest ∧ r.op = .accum ∧ missing s.dev r = a :: as ∧
      (∀ x ∈ s.dev.host.reqs, x.use = .accRead a → x.abandoned = true) ∧ s.dev.host.accBuf.length < 16) ∧
    (∃ (d : Dev) (a : Nat) (g : HeldGran), a % 64 = 0 ∧ d.host.accBuf.find? (fun x => x.addr == a) = some g) ∧
    (∃ s : State, s.dev.host.accq = []) ∧
    (∃ (s : State) (a : Nat) (g : HeldGran), s.dev.host.accBuf.find? (fun x => x.addr == gran a) = some g ∧
      ∀ r ∈ s.dev.host.accq, overlaps r.addr (64 * reqGrans r) g.addr 64 = false) :=
  ⟨⟨unitState [accReq], accReq, [], _, _, rfl, rfl, by decide +kernel, rfl, rfl⟩,
   ⟨unitState [{ accReq with op := .zeroRead }], { accReq with op := .zeroRead }, [], _, _, rfl, rfl, by decide +kernel, rfl, rfl⟩,
   ⟨unitState [{ accReq with op := .clear }], { accReq with op := .clear }, [], _, _, rfl, rfl, by decide +kernel, rfl, rfl⟩,
   ⟨unitState [{ accReq with addr := 0x1000 }], { accReq with addr := 0x1000 }, [], 0x1000, [], by decide +kernel⟩,
   ⟨(unitState []).dev, 0x40, heldZero, by decide +kernel⟩, ⟨svc, rfl⟩, ⟨unitState [], 0x7F, heldZero, by decide +kernel⟩⟩

/-- A remap that copies its 4 KiB unit, at a granule. -/
def remapAt (ptr : Nat) : Remap := ⟨0x1000, false, 0, true, ptr, none, 4⟩
/-- A command with one walk under way, which has come to this. -/
def walking (e : Option WalkEnd) : State :=
  (oneCore { Core.zero with cmds := [cmdOf rowFill []] } svc).upd (fun d =>
    { d with panels := [(0, { Panel.zero with walks := [⟨2, 0, 7, 16, 0x3FF, 0, 0x40, 1, 0, 0, 0, [], e⟩] })] })

theorem test_remaps_and_walks :
    (∃ (s : State) (pl pt : Nat) (r : Remap) (a b : Nat), (s.dev.port (portKey pl pt)).remaps.find? (·.copying) = some r ∧
      remapEnds s.params s.dev (portKey pl pt) r = (a, b) ∧ r.ptr + 64 < unitBytes r.coarse) ∧
    (∃ (s : State) (pl pt : Nat) (r : Remap) (a b : Nat), (s.dev.port (portKey pl pt)).remaps.find? (·.copying) = some r ∧
      remapEnds s.params s.dev (portKey pl pt) r = (a, b) ∧ unitBytes r.coarse ≤ r.ptr + 64) ∧
    (∃ (s : State) (pl pt : Nat), (s.dev.port (portKey pl pt)).remaps ≠ [] ∧ ∀ r ∈ (s.dev.port (portKey pl pt)).remaps, r.copying = false) ∧
    (∃ (s : State) (pl i : Nat) (w : Walk) (n : Nat) (pte : Word), (s.dev.panel pl).walks[i]? = some w ∧ w.res = some (.leaf n pte)) ∧
    (∃ (s : State) (pl i : Nat) (w : Walk) (m : Cmd) (n : Nat), (s.dev.panel pl).walks[i]? = some w ∧ w.res = some (.absent n) ∧
      (s.dev.core w.site).cmd w.uid = some m ∧ (s.dev.core w.site).halted = false ∧ m.fail = none) ∧
    (∃ (s : State) (pl i : Nat) (w : Walk) (m : Cmd) (w4 : Word), (s.dev.panel pl).walks[i]? = some w ∧ w.res = some (.bad w4) ∧
      (s.dev.core w.site).cmd w.uid = some m) ∧
    (∃ (s : State) (pl i : Nat) (w : Walk), (s.dev.panel pl).walks[i]? = some w ∧ w.res = none) ∧
    (∃ (s : State) (pl : Nat) (i : Nat), (s.dev.panel pl).walks[i]? = none) :=
  ⟨⟨portState { StackPort.zero with remaps := [remapAt 0xF80] }, 1, 9, remapAt 0xF80, _, _, by decide +kernel, rfl, by decide⟩,
   ⟨portState { StackPort.zero with remaps := [remapAt 0xFC0] }, 1, 9, remapAt 0xFC0, _, _, by decide +kernel, rfl, by decide⟩,
   ⟨portState { StackPort.zero with remaps := [{ remapAt 0 with copying := false }] }, 1, 9, by decide +kernel⟩,
   ⟨walking (some (.leaf 30 0x400000000000000F)), 0, 0, _, 30, 0x400000000000000F, rfl, rfl⟩,
   ⟨walking (some (.absent 12)), 0, 0, _, cmdOf rowFill [], 12, rfl, rfl, by decide +kernel, by decide +kernel, by decide +kernel⟩,
   ⟨walking (some (.bad 0)), 0, 0, _, cmdOf rowFill [], 0, rfl, rfl, by decide +kernel⟩,
   ⟨walking none, 0, 0, _, rfl, rfl⟩, ⟨svc, 1, 0, by decide +kernel⟩⟩

/-! ## A fabric image that passes its checks -/

/-- A fabric image of 8 rows: PERIOD 1, FLUSH 0, every slot of every cell NOP, every edge cell off. -/
def imgHead : List Byte := wordsToBytes [0x4B46010004000000, 0x21C049BA4F8E] ++ List.replicate 48 0
def imgCell : List Byte := (List.replicate 8 [0x00, 0x00, 0x3C, 0x3C, 0x3C, 0x00]).flatten ++ List.replicate 16 0
def imgBytes : List Byte := imgHead ++ (List.replicate 128 imgCell).flatten ++ List.replicate 384 0
/-- One bit of the CRC on a number. -/
def crcNatBit (c : Nat) : Nat := if c % 2 = 1 then (c / 2) ^^^ 0xEDB88320 else c / 2
/-- Bits of the CRC one after the other, each evaluated before the next. -/
def crcNatBits : Nat → Nat → Nat
  | 0, c => c
  | n + 1, c => match crcNatBit c with
    | 0 => crcNatBits n 0
    | k + 1 => crcNatBits n (k + 1)
def crcNat : List Byte → Nat → Nat
  | [], c => c
  | b :: bs, c => match crcNatBits 8 (c ^^^ b.toNat) with
    | 0 => crcNat bs 0
    | k + 1 => crcNat bs (k + 1)
theorem crcNatBits_succ (n c : Nat) : crcNatBits (n + 1) c = crcNatBits n (crcNatBit c) := by
  rw [crcNatBits]; cases crcNatBit c <;> rfl
theorem crcNat_cons (b : Byte) (bs : List Byte) (c : Nat) : crcNat (b :: bs) c = crcNat bs (crcNatBits 8 (c ^^^ b.toNat)) := by
  rw [crcNat]; cases crcNatBits 8 (c ^^^ b.toNat) <;> rfl
theorem crcBit_toNat (c : BitVec 32) : (crcBit c).toNat = crcNatBit c.toNat := by
  unfold crcBit crcNatBit
  have h : c.getLsbD 0 = decide (c.toNat % 2 = 1) := by simp [BitVec.getLsbD, Nat.testBit]; rfl
  rw [h]
  by_cases e : c.toNat % 2 = 1
  · simp [e, BitVec.toNat_xor, BitVec.toNat_ushiftRight, Nat.shiftRight_eq_div_pow]
  · simp [e, BitVec.toNat_ushiftRight, Nat.shiftRight_eq_div_pow]
theorem crcByte_toNat (c : BitVec 32) (b : Byte) : (crcByte c b).toNat = crcNatBits 8 (c.toNat ^^^ b.toNat) := by
  have h : (c ^^^ b.setWidth 32).toNat = c.toNat ^^^ b.toNat := by
    rw [BitVec.toNat_xor, BitVec.toNat_setWidth]; congr 1
    exact Nat.mod_eq_of_lt (by have := b.isLt; omega)
  simp only [crcByte, crcBit_toNat, h, crcNatBits_succ]; rfl
theorem crcNat_eq (bs : List Byte) (c : BitVec 32) : (bs.foldl crcByte c).toNat = crcNat bs c.toNat := by
  induction bs generalizing c with
  | nil => rfl
  | cons b bs ih => rw [List.foldl_cons, ih, crcByte_toNat, crcNat_cons]

theorem img_fold : crcNat (imgNoCrc imgBytes) 0xFFFFFFFF = 0x49BA4F8E ^^^ 0xFFFFFFFF := by decide +kernel
/-- The image read into its records. -/
def imgRead : Img := ⟨0x4B46010004000000, 0x21C049BA4F8E, 8, List.replicate 128 (CellRec.ofBytes imgCell), List.replicate 48 0, []⟩
theorem chunks_replicate (c : List Byte) (n : Nat) (h : c.length = n) (rest : List Byte) :
    ∀ k, chunks n k ((List.replicate k c).flatten ++ rest) = List.replicate k c
  | 0 => rfl
  | k + 1 => by
    subst h
    simp [chunks, List.replicate_succ, List.flatten_cons, List.append_assoc, chunks_replicate c _ rfl rest k]
theorem img_read : Img.ofBytes imgBytes = imgRead := by
  have h0 : BitVec.ofNat 64 (leNat (imgBytes.take 8)) = 0x4B46010004000000#64 := by decide +kernel
  have h1 : BitVec.ofNat 64 (leNat ((imgBytes.drop 8).take 8)) = 0x21C049BA4F8E#64 := by decide +kernel
  have hc : imgBytes.drop 64 = (List.replicate 128 imgCell).flatten ++ List.replicate 384 0 := by
    unfold imgBytes; rw [List.append_assoc]; exact List.drop_left' (by decide +kernel)
  have he : imgBytes.drop (64 + 1024 * 8) = List.replicate 384 0 := by
    rw [← List.drop_drop, hc]; exact List.drop_left' (by decide +kernel)
  unfold Img.ofBytes
  simp only [h0, h1, show imgRows 0x4B46010004000000#64 = 8 from by decide +kernel, show imgTabs 0x4B46010004000000#64 = [] from by decide +kernel,
    hc, he, chunks_replicate imgCell 64 (by decide +kernel)]
  unfold imgRead
  rw [List.map_replicate]
  decide +kernel
theorem test_image_passes_its_checks : imageOk State.reset.params State.reset.dev imgBytes = true := by
  have crc : (crc32 (imgNoCrc imgBytes)).toNat = 0x49BA4F8E := by
    unfold crc32; rw [BitVec.toNat_xor, crcNat_eq, show (0xFFFFFFFF#32 : BitVec 32).toNat = 0xFFFFFFFF from rfl, img_fold, Nat.xor_assoc]; rfl
  unfold imageOk; simp only [img_read]; rw [crc]; decide +kernel

/-! ## The front of a core -/

/-- One core that holds one command, with the first GiB mapped to host memory. -/
def withCmd (m : Cmd) : State := oneCore { Core.zero with cmds := [m] } (svcM [])
def matCmd : Cmd := cmdOf rowMatmul []
def matAdm : Cmd := { matCmd with admitted := true }
def fabSw : Cmd := { cmdOf rowFabRun ((List.replicate 21 0) ++ [4096]) with admitted := true }
def bobCmd : Cmd := { matAdm with takePending := true }

/-- A granule of a front copy that is here. -/
def frontReq (uid code i : Nat) : CoreReq := ⟨i, uid, code, i, 0, 64 * i, false, false, 1, List.replicate 64 0, [], [], []⟩
/-- One core with a command of which the first `n` granules of a front copy are here. -/
def frontState (m : Cmd) (code n : Nat) : State := oneCore { Core.zero with cmds := [m], reqs := (List.range n).map (frontReq m.uid code) } (svcM [])
/-- The first granule of its front copy still waits. -/
def frontWaits (m : Cmd) (code n : Nat) : State :=
  oneCore { Core.zero with cmds := [m], reqs := { frontReq m.uid code 0 with state := 0 } :: ((List.range n).drop 1).map (frontReq m.uid code) } (svcM [])

theorem test_core_front :
    (∃ (s : State) (i k : Nat), s.dev.siteOf i = some k ∧ s.dev.inService = true) ∧
    (∃ (s : State) (i k : Nat) (m : Cmd), s.dev.siteOf i = some k ∧ s.dev.inService = true ∧
      firstCmd (s.dev.core k) (fun m => m.isWork && !m.admitted && m.block.isNone) = some m ∧ FrontHere (s.dev.core k) m.uid 18 (blockBytes m)) ∧
    (∃ (s : State) (i k : Nat) (m : Cmd), s.dev.siteOf i = some k ∧ s.dev.inService = true ∧
      firstCmd (s.dev.core k) (fun m => m.isWork && !m.admitted && m.block.isNone) = some m ∧
      frontLeft (s.dev.core k) m.uid 18 (blockBytes m) ≠ [] ∧ (s.dev.core k).halted = false) ∧
    (∃ (s : State) (i k : Nat) (m : Cmd), s.dev.siteOf i = some k ∧ s.dev.inService = true ∧
      firstCmd (s.dev.core k) (fun m => m.isWork && !m.admitted && m.block.isNone) = some m ∧
      frontLeft (s.dev.core k) m.uid 18 (blockBytes m) = [] ∧ ∃ r ∈ frontReqs (s.dev.core k) m.uid 18, r.state ≠ 1) ∧
    (∃ (s : State) (i k : Nat) (m : Cmd) (n : Nat), s.dev.siteOf i = some k ∧ s.dev.inService = true ∧
      firstCmd (s.dev.core k) (fun m => m.isWork && m.admitted && !m.copied) = some m ∧ n = 64 * m.work.ndesc ∧ FrontHere (s.dev.core k) m.uid 19 n) ∧
    (∃ (s : State) (i k : Nat) (m : Cmd), s.dev.siteOf i = some k ∧ s.dev.inService = true ∧
      firstCmd (s.dev.core k) (fun m => m.isWork && m.admitted && !m.copied) = some m ∧
      frontLeft (s.dev.core k) m.uid 19 (64 * m.work.ndesc) ≠ [] ∧ (s.dev.core k).halted = false) ∧
    (∃ (s : State) (i n k : Nat) (m : Cmd), s.dev.siteOf i = some k ∧ s.dev.inService = true ∧ swatchCmd s.params (s.dev.core k) n = some m ∧
      FrontHere (s.dev.core k) m.uid (20 + n) 256) ∧
    (∃ (s : State) (i n k : Nat) (m : Cmd), s.dev.siteOf i = some k ∧ s.dev.inService = true ∧ swatchCmd s.params (s.dev.core k) n = some m ∧
      frontLeft (s.dev.core k) m.uid (20 + n) 256 ≠ [] ∧ (s.dev.core k).halted = false) ∧
    (∃ (s : State) (i : Nat), s.dev.siteOf i = none) ∧ (∃ s : State, s.dev.inService = false) :=
  ⟨⟨withCmd matCmd, 0, 0, by decide +kernel⟩,
   ⟨frontState matCmd 18 2, 0, 0, matCmd, by decide +kernel, by decide +kernel, by decide +kernel, by unfold FrontHere; decide +kernel⟩,
   ⟨withCmd matCmd, 0, 0, matCmd, by decide +kernel⟩, ⟨frontWaits matCmd 18 2, 0, 0, matCmd, by decide +kernel⟩,
   ⟨frontState matAdm 19 64, 0, 0, matAdm, 64 * matAdm.work.ndesc, by decide +kernel, by decide +kernel, by decide +kernel, by decide +kernel,
     by unfold FrontHere; decide +kernel⟩,
   ⟨withCmd matAdm, 0, 0, matAdm, by decide +kernel⟩,
   ⟨frontState fabSw 22 4, 0, 2, 0, fabSw, by decide +kernel, by decide +kernel, by decide +kernel, by unfold FrontHere; decide +kernel⟩,
   ⟨withCmd fabSw, 0, 2, 0, fabSw, by decide +kernel⟩, ⟨svc, 0, by decide +kernel⟩, ⟨State.reset, by decide +kernel⟩⟩

theorem test_bobbin_takes :
    (∃ (n r : BitVec 32) (c : Nat) (vs : List Nat) (n' r' : BitVec 32), takeFrom n r c = some (vs, n', r') ∧ vs = [0xFFFFFFFF, 0]) ∧
    (∃ (s : State) (i k : Nat) (m : Cmd) (nx rm : BitVec 32) (vs : List Nat) (nx' rm' : BitVec 32), s.dev.siteOf i = some k ∧ s.dev.inService = true ∧
      firstCmd (s.dev.core k) (fun m => m.takePending) = some m ∧ (s.dev.entry ⟨3, m.work.bobbin % 2 ^ 20⟩).payload = .bobbin nx rm ∧
      takeFrom nx rm (2 ^ (Tiling.ofWord m.work.tiling).take) = some (vs, nx', rm')) ∧
    (∃ (s : State) (i k : Nat) (m : Cmd) (nx rm : BitVec 32), s.dev.siteOf i = some k ∧ s.dev.inService = true ∧
      firstCmd (s.dev.core k) (fun m => m.takePending) = some m ∧ (s.dev.entry ⟨3, m.work.bobbin % 2 ^ 20⟩).payload = .bobbin nx rm ∧ rm = 0) := by
  refine ⟨⟨0xFFFFFFFF, 5, 2, _, _, _, rfl, by decide⟩, ?_, ?_⟩
  · exact ⟨withObj ⟨3, 0⟩ 0 (.bobbin 4 9) (withCmd bobCmd), 0, 0, bobCmd, 4, 9, [4], 5, 8, by decide +kernel, by decide +kernel, by decide +kernel,
      by decide +kernel, by decide +kernel⟩
  · exact ⟨withObj ⟨3, 0⟩ 0 (.bobbin 4 0) (withCmd bobCmd), 0, 0, bobCmd, 4, 0, by decide +kernel, by decide +kernel, by decide +kernel,
      by decide +kernel, rfl⟩

/-! ## The fabric -/

/-- A `FAB_LOAD` of plane 1 from address 0. -/
def loadCmd : Cmd := { cmdOf rowFabLoad [0, 1] with admitted := true }
/-- A granule of a fabric image that is here. -/
def imgReq (bs : List Byte) (i : Nat) : CoreReq := ⟨i, 7, 24, i, 0, 64 * i, false, false, 1, (bs.drop (64 * i)).take 64, [], [], []⟩
/-- A core that loads plane 1 and has every granule of this image. -/
def loadCore (bs : List Byte) : Core := { Core.zero with
  cmds := [loadCmd], reqs := (List.range (ceilDiv bs.length 64)).map (imgReq bs)
  fab := { Fab.zero with planes := [.zero, { Plane.zero with loading := some 7 }] } }
def loadState (bs : List Byte) : State := oneCore (loadCore bs) svc

/-- A `FAB_RUN` admitted, ITER 1, in its first kernel run. -/
def runCmd : Cmd := { cmdOf rowFabRun (List.replicate 16 0 ++ [1]) with
  admitted := true, copied := true, krun := 1, block := some (List.replicate 17 0 ++ [1]) }
/-- One core in that run, at the start of tick `t`, with this image in plane 0. -/
def runState (t : Nat) (image : List Byte) : State := oneCore { Core.zero with
  cmds := [runCmd]
  fab := { Fab.zero with planes := [⟨true, 0, none, image, false⟩, .zero], active := some 0, run := some 7, tick := t
                         cells := List.replicate 128 .zero, edges := List.replicate 48 .zero } } svc
/-- An image whose first north edge cell reads input port 0 in every slot. -/
def portImage : List Byte := imgHead ++ List.replicate 8192 0 ++ wordsToBytes [0x107F800000000000]

/-- One core with a `FAB_RUN` whose first kernel run is due. -/
def dueState : State := oneCore { Core.zero with cmds := [{ runCmd with krun := 0 }] } svc

theorem test_fabric_runs :
    (∃ (s : State) (i k : Nat) (m : Cmd), s.dev.siteOf i = some k ∧ s.dev.inService = true ∧ nextKernel s.params (s.dev.core k) = some m) ∧
    (∃ (c : Core) (m : Cmd), c.fab.activeArr ≤ m.arr) ∧
    (∃ (s : State) (i k : Nat), s.dev.siteOf i = some k ∧ nextKernel s.params (s.dev.core k) = none) ∧
    (∃ (s : State) (i k : Nat) (rets : List ExtRet) (m : Cmd) (c1 : Core) (ctr : Nat), s.dev.siteOf i = some k ∧ s.dev.inService = true ∧
      (s.dev.core k).fab.run.bind (s.dev.core k).cmd = some m ∧ (s.dev.core k).fab.frozen = false ∧ (s.dev.core k).fab.tick < runTicks (s.dev.core k) m ∧
      fabTick s.params (if s.dev.opts.extEn then s.params.extPorts else 0) rets (s.dev.core k) m s.dev.freeCtr = some (c1, ctr)) ∧
    (∃ (s : State) (i k : Nat) (rets : List ExtRet) (m : Cmd), s.dev.siteOf i = some k ∧ s.dev.inService = true ∧
      (s.dev.core k).fab.run.bind (s.dev.core k).cmd = some m ∧
      fabTick s.params (if s.dev.opts.extEn then s.params.extPorts else 0) rets (s.dev.core k) m s.dev.freeCtr = none) ∧
    (∃ (s : State) (i k : Nat), s.dev.siteOf i = some k ∧ (s.dev.core k).fab.run = none) ∧
    (∃ (s : State) (i k : Nat) (m : Cmd), s.dev.siteOf i = some k ∧ s.dev.inService = true ∧ (s.dev.core k).fab.run.bind (s.dev.core k).cmd = some m ∧
      (s.dev.core k).fab.tick < runTicks (s.dev.core k) m) ∧
    (∃ (s : State) (i k : Nat) (m : Cmd) (us : List PUse) (c1 : Core) (ctr : Nat) (c2 : Core), s.dev.siteOf i = some k ∧ s.dev.inService = true ∧
      (s.dev.core k).fab.run.bind (s.dev.core k).cmd = some m ∧ (s.dev.core k).fab.frozen = false ∧ runTicks (s.dev.core k) m ≤ (s.dev.core k).fab.tick ∧
      us = portUses (Img.ofBytes ((s.dev.core k).fab.planes.getD (s.dev.core k).fab.plane Plane.zero).image) m ∧
      us.foldl (fun (acc : Core × Nat) u => if u.out then flushGather s.params acc.1 m u acc.2 else acc) (s.dev.core k, s.dev.freeCtr) = (c1, ctr) ∧
      closeOutputs s.params us m c1 = some c2) := by
  refine ⟨⟨dueState, 0, 0, { runCmd with krun := 0 }, by decide +kernel⟩, ⟨.zero, runCmd, by decide⟩, ⟨oneCore Core.zero svc, 0, 0, by decide +kernel⟩, ?_, ?_,
    ⟨oneCore Core.zero svc, 0, 0, by decide +kernel⟩, ⟨runState 0 imgHead, 0, 0, runCmd, by decide +kernel⟩, ?_⟩
  · obtain ⟨c1, ctr, h⟩ := some_of2 (o := fabTick (runState 0 imgHead).params (if (runState 0 imgHead).dev.opts.extEn then
      (runState 0 imgHead).params.extPorts else 0) [] ((runState 0 imgHead).dev.core 0) runCmd (runState 0 imgHead).dev.freeCtr) (by decide +kernel)
    exact ⟨runState 0 imgHead, 0, 0, [], runCmd, c1, ctr, by decide +kernel, by decide +kernel, by decide +kernel, rfl, by decide +kernel, h⟩
  · exact ⟨runState 0 portImage, 0, 0, [], runCmd, by decide +kernel, by decide +kernel, by decide +kernel,
      Option.isNone_iff_eq_none.mp (by decide +kernel)⟩
  · obtain ⟨c2, h⟩ := some_of (o := closeOutputs (runState 1 imgHead).params [] runCmd ((runState 1 imgHead).dev.core 0)) (by decide +kernel)
    have hu : ([] : List PUse) = portUses (Img.ofBytes (((runState 1 imgHead).dev.core 0).fab.planes.getD ((runState 1 imgHead).dev.core 0).fab.plane
      Plane.zero).image) runCmd := (List.isEmpty_iff.mp (by decide +kernel)).symm
    exact ⟨runState 1 imgHead, 0, 0, runCmd, [], _, _, c2, by decide +kernel, by decide +kernel, by decide +kernel, rfl, by decide +kernel, hu, rfl, h⟩

theorem imageOk_opts (p : Params) (d d' : Dev) (bs : List Byte) (h : d.opts = d'.opts) : imageOk p d bs = imageOk p d' bs := by
  unfold imageOk; rw [h]

theorem img_chunks (bs : List Byte) : ∀ n, ((List.range n).map (fun i => (bs.drop (64 * i)).take 64)).flatten = bs.take (64 * n)
  | 0 => by simp
  | n + 1 => by
    rw [List.range_succ, List.map_append, List.flatten_append, img_chunks bs n, List.map_singleton, List.flatten_singleton, ← List.take_add, Nat.mul_succ]
theorem img_find (bs : List Byte) (n i : Nat) (h : i < n) :
    ((List.range n).map (imgReq bs)).find? (fun r => r.seg == i) = some (imgReq bs i) := by
  have e : (List.range n).find? (fun j => j == i) = some i :=
    List.find?_range_eq_some.mpr ⟨by simp, List.mem_range.mpr h, fun j hj => by simp [Nat.ne_of_lt hj]⟩
  rw [List.find?_map]; exact congrArg (Option.map (imgReq bs)) e
theorem img_reqs (bs : List Byte) : frontReqs (loadCore bs) 7 24 = (List.range (ceilDiv bs.length 64)).map (imgReq bs) :=
  List.filter_eq_self.mpr (fun r hr => by obtain ⟨i, -, rfl⟩ := List.mem_map.mp hr; rfl)

theorem load_here {bs : List Byte} (n : Nat) (hl : bs.length = 64 * (n + 1)) (hs : imgSize (BitVec.ofNat 64 (leNat (bs.take 8))) = bs.length) :
    FrontHere ((loadState bs).dev.core 0) 7 24 (imageBytes ((loadState bs).dev.core 0) 7) ∧
    frontBytes ((loadState bs).dev.core 0) 7 24 (imageBytes ((loadState bs).dev.core 0) 7) = bs := by
  have hc : (loadState bs).dev.core 0 = loadCore bs := rfl
  have hd : ceilDiv bs.length 64 = n + 1 := by rw [ceilDiv, hl]; omega
  have h0 : imageBytes (loadCore bs) 7 = bs.length := by
    unfold imageBytes
    rw [img_reqs, hd, List.range_succ_eq_map, List.map_cons, List.find?_cons_of_pos rfl]
    show imgSize (BitVec.ofNat 64 (leNat (((bs.drop (64 * 0)).take 64).take 8))) = bs.length
    rw [List.take_take, Nat.mul_zero, List.drop_zero]; exact hs
  rw [hc, h0]
  refine ⟨⟨fun i hi => ?_, fun r hr => ?_⟩, ?_⟩
  · rw [img_reqs]; exact ⟨imgReq bs i, List.mem_map.mpr ⟨i, List.mem_range.mpr hi, rfl⟩, rfl⟩
  · rw [img_reqs] at hr; obtain ⟨i, -, rfl⟩ := List.mem_map.mp hr; rfl
  · unfold frontBytes
    rw [img_reqs, hd, List.flatMap_def, List.map_congr_left (g := fun i => (bs.drop (64 * i)).take 64)
      (fun i hi => by rw [img_find bs _ i (List.mem_range.mp hi)]; rfl), img_chunks, ← hl, List.take_take, Nat.min_self, List.take_length]

theorem test_fabric_loads :
    (∃ (s : State) (i k : Nat) (m : Cmd) (n : Nat) (q : Plane), s.dev.siteOf i = some k ∧ s.dev.inService = true ∧ nextLoad s.params (s.dev.core k) = some m ∧
      n = fld (wordAt m.body 1) 0 0 ∧ q = (s.dev.core k).fab.planes.getD n Plane.zero ∧ q.loading ≠ some m.uid ∧ planeBefore (s.dev.core k) m = some n) ∧
    (∃ (s : State) (i k : Nat) (m : Cmd) (n : Nat) (bs : List Byte), s.dev.siteOf i = some k ∧ s.dev.inService = true ∧ nextLoad s.params (s.dev.core k) = some m ∧
      n = fld (wordAt m.body 1) 0 0 ∧ ((s.dev.core k).fab.planes.getD n Plane.zero).loading = some m.uid ∧
      FrontHere (s.dev.core k) m.uid 24 (imageBytes (s.dev.core k) m.uid) ∧ bs = frontBytes (s.dev.core k) m.uid 24 (imageBytes (s.dev.core k) m.uid) ∧
      imageOk s.params s.dev bs = true) ∧
    (∃ (s : State) (i k : Nat) (m : Cmd) (n : Nat) (bs : List Byte), s.dev.siteOf i = some k ∧ s.dev.inService = true ∧ nextLoad s.params (s.dev.core k) = some m ∧
      n = fld (wordAt m.body 1) 0 0 ∧ ((s.dev.core k).fab.planes.getD n Plane.zero).loading = some m.uid ∧
      FrontHere (s.dev.core k) m.uid 24 (imageBytes (s.dev.core k) m.uid) ∧ bs = frontBytes (s.dev.core k) m.uid 24 (imageBytes (s.dev.core k) m.uid) ∧
      imageOk s.params s.dev bs = false) :=
  have next (bs : List Byte) : nextLoad (loadState bs).params ((loadState bs).dev.core 0) = some loadCmd :=
    (by decide +kernel : nextLoad State.reset.params { Core.zero with cmds := [loadCmd] } = some loadCmd)
  have a := load_here (bs := imgBytes) 134 (by decide +kernel) (by decide +kernel)
  have b := load_here (bs := List.replicate 8640 0) 134 (by decide +kernel) (by decide +kernel)
  ⟨⟨oneCore { Core.zero with cmds := [loadCmd], fab := { Fab.zero with active := some 1 } } svc, 0, 0, loadCmd, 1, Plane.zero, by decide +kernel⟩,
   ⟨loadState imgBytes, 0, 0, loadCmd, 1, imgBytes, rfl, rfl, next _, by decide +kernel, rfl, a.1, a.2.symm,
     (imageOk_opts _ _ _ _ rfl).trans test_image_passes_its_checks⟩,
   ⟨loadState (List.replicate 8640 0), 0, 0, loadCmd, 1, List.replicate 8640 0, rfl, rfl, next _, by decide +kernel, rfl, b.1, b.2.symm, by decide +kernel⟩⟩

/-! ## Streams and the watchdog -/

/-- An admitted `FAB_RUN` with region 0 in bank 4 under a record word and one descriptor. -/
def chanCmd (decl : Word) (desc : List Word) : Cmd :=
  { cmdOf rowFabRun [] with admitted := true, copied := true, regions := [(0, newRegion decl)], descs := [desc] }
/-- A core that holds it, its ring reserved. -/
def chanCore (decl : Word) (desc : List Word) : Core := { Core.zero with cmds := [chanCmd decl desc], rings := [(4, RingSt.fresh decl)] }
/-- Region records: one segment of 64 bytes, filled for the fabric ports, or by them for the stream engine. -/
def recIn : Word := 0x1002190000001000
def recOut : Word := 0x1002910000001000
/-- A READ descriptor multicast to cores 0 and 1. -/
def mcDesc : List Word := [0x1000000000, 0, 0, 0, 0x3000000000000, 0, 0, 0]
/-- Two cores in service with logical indices 0 and 1. -/
def twoCores (c0 c1 : Core) : State := svc.upd (fun d => { d with
  logical := [(0, 1), (1, 2)], cores := [(0, c0), (1, c1)]
  sites := [(0, { Site.zero with st := .active, index := 1 }), (1, { Site.zero with st := .active, index := 2 })] })
/-- A stream packet's command. -/
def streamCmdOf (row : OpRow) (b : List Word) : Cmd := { cmdOf row b with admitted := true }

/-- A translation found in a cache. -/
def xlates (r : CX × Dev) : Bool := match r.1 with | .ok _ => true | _ => false
theorem xlate_of {r : CX × Dev} (h : xlates r = true) : ∃ t d, r = (.ok t, d) := by
  obtain ⟨x, d⟩ := r
  cases x with | ok t => exact ⟨t, d, rfl⟩ | _ => cases h
/-- One core, with the first GiB mapped to host memory. -/
def mapped (c : Core) : State := oneCore c (svcM [])
/-- A run of 64 FP32 elements under way: its segment of 256 bytes begun, no granule asked for yet. -/
def runRec : Word := 0x1002190000004000
def runDesc : List Word := [0x90000000000, 0, 0x100000040, 0x100000001, 0, 0, 0, 0x1000100010040]
def midCmd : Cmd := { chanCmd runRec runDesc with regions := [(0, { newRegion runRec with base := some 0, segIdx := 1 })] }
def midCore : Core := { Core.zero with cmds := [midCmd], rings := [(4, (RingSt.fresh runRec).begin_ Seg.zero)] }
def copyOf : Cmd := streamCmdOf rowCopy [0, 64, 64]
def fillOf : Cmd := streamCmdOf rowFill [0x40, 64, 7]
def clearOf : Cmd := streamCmdOf rowAccClear [0x40, 64]
/-- A core with an ACC_CLEAR over a page that permits accumulates. -/
def clearCore : Core := { Core.zero with cmds := [clearOf], tlb := [{ hostLeaf 0x3FF with pte := 0x400000000000008F#64 }] }
/-- A read of command 7 whose data are here. -/
def reqOf (region : Nat) : CoreReq := ⟨3, 7, region, 0, 0, 0, false, false, 1, List.replicate 64 0, [(0, 0, 64)], [], []⟩

theorem test_reading_streams :
    (∃ (s : State) (i k : Nat), s.dev.siteOf i = some k ∧ (s.dev.core k).halt.isSome = true) ∧
    (∃ (s : State) (i k : Nat), s.dev.siteOf i = some k ∧ (s.dev.core k).fab.loadHalt.isSome = true) ∧
    (∃ (s : State) (i k run : Nat) (m : Cmd), s.dev.siteOf i = some k ∧ s.dev.inService = true ∧ (s.dev.core k).halted = false ∧ run < 16 ∧
      channelCmd s.params (s.dev.core k) run true = some m ∧ m.copied = true ∧ (s.dev.core k).mayStart s.params m.uid 0 = true) ∧
    (∃ (s : State) (k : Nat) (m : Cmd) (n : Nat) (h : Chan) (va : Nat) (t : Target) (d : Dev), chanOf s.params s.dev m n = some h ∧ h.x.mc = 0 ∧
      inside (s.dev.core k) h = true ∧ (s.dev.core k).cmd m.uid = some m ∧ (grans (h.pieces h.x (h.rg.segIdx - 1)))[h.rg.pos]? = some va ∧
      h.rg.pos + 1 < (grans (h.pieces h.x (h.rg.segIdx - 1))).length ∧ h.x.kind = 0 ∧ coreXlate s.dev k m va .read = (.ok t, d)) ∧
    (∃ (s : State) (i k run : Nat) (m : Cmd), s.dev.siteOf i = some k ∧ s.dev.inService = true ∧ (s.dev.core k).halted = false ∧ 16 ≤ run ∧
      streamCmd (s.dev.core k) (fun m => m.isOp rowCopy || m.isOp rowStats) = some m ∧ (s.dev.core k).mayStart s.params m.uid 0 = true) ∧
    (∃ (s : State) (k : Nat) (m : Cmd) (va : Nat) (t : Target) (d : Dev), m.isOp rowStats = false ∧
      va = gran (wordAt m.body 0).toNat + 64 * granAt m m.cursor ∧ coreXlate s.dev k m va .read = (.ok t, d)) := by
  refine ⟨⟨mapped { Core.zero with halt := some ⟨7, 0, 0, 1, 0, 0, []⟩ }, 0, 0, by decide +kernel⟩,
    ⟨mapped { Core.zero with fab := { Fab.zero with loadHalt := some ⟨7, 24, 0, 1, 0, 4, []⟩ } }, 0, 0, by decide +kernel⟩,
    ⟨mapped (chanCore recIn (List.replicate 8 0)), 0, 0, 0, chanCmd recIn (List.replicate 8 0), by decide +kernel⟩, ?_,
    ⟨mapped { Core.zero with cmds := [copyOf] }, 0, 0, 16, copyOf, by decide +kernel⟩, ?_⟩
  · obtain ⟨h, e⟩ := some_of (o := chanOf (mapped midCore).params (mapped midCore).dev midCmd 0) (by decide +kernel)
    have g : h.x.mc = 0 ∧ inside ((mapped midCore).dev.core 0) h = true ∧ (grans (h.pieces h.x (h.rg.segIdx - 1)))[h.rg.pos]? = some 0 ∧
        h.rg.pos + 1 < (grans (h.pieces h.x (h.rg.segIdx - 1))).length ∧ h.x.kind = 0 := by
      have e1 : (chanOf (mapped midCore).params (mapped midCore).dev midCmd 0).all (fun h => decide (h.x.mc = 0 ∧
        inside ((mapped midCore).dev.core 0) h = true ∧ (grans (h.pieces h.x (h.rg.segIdx - 1)))[h.rg.pos]? = some 0 ∧
        h.rg.pos + 1 < (grans (h.pieces h.x (h.rg.segIdx - 1))).length ∧ h.x.kind = 0)) = true := by decide +kernel
      rw [e] at e1; exact of_decide_eq_true e1
    obtain ⟨t, d, x⟩ := xlate_of (r := coreXlate (mapped midCore).dev 0 midCmd 0 .read) (by decide +kernel)
    exact ⟨mapped midCore, 0, midCmd, 0, h, 0, t, d, e, g.1, g.2.1, by decide +kernel, g.2.2.1, g.2.2.2.1, g.2.2.2.2, x⟩
  · obtain ⟨t, d, x⟩ := xlate_of (r := coreXlate (mapped { Core.zero with cmds := [copyOf] }).dev 0 copyOf
      (gran (wordAt copyOf.body 0).toNat + 64 * granAt copyOf copyOf.cursor) .read) (by decide +kernel)
    exact ⟨mapped { Core.zero with cmds := [copyOf] }, 0, copyOf, _, t, d, by decide +kernel, rfl, x⟩

theorem test_writing_streams :
    (∃ (s : State) (i k run : Nat) (m : Cmd), s.dev.siteOf i = some k ∧ s.dev.inService = true ∧ (s.dev.core k).halted = false ∧ run < 16 ∧
      channelCmd s.params (s.dev.core k) run false = some m ∧ m.copied = true ∧ (s.dev.core k).mayStart s.params m.uid 0 = true) ∧
    (∃ (s : State) (i k run : Nat) (m : Cmd) (va : Nat) (t : Target) (d : Dev), s.dev.siteOf i = some k ∧ s.dev.inService = true ∧
      (s.dev.core k).halted = false ∧ 16 ≤ run ∧ (s.dev.core k).reqs = [] ∧
      streamCmd (s.dev.core k) (fun m => m.isOp rowFill || m.isOp rowAccClear) = some m ∧ (s.dev.core k).mayStart s.params m.uid 0 = true ∧
      va = (wordAt m.body 0).toNat + 64 * granAt m m.cursor ∧ m.isOp rowAccClear = false ∧ coreXlate s.dev k m va .write = (.ok t, d)) ∧
    (∃ (s : State) (i k run : Nat) (m : Cmd) (va : Nat) (t : Target) (d : Dev), s.dev.siteOf i = some k ∧ s.dev.inService = true ∧
      (s.dev.core k).halted = false ∧ 16 ≤ run ∧ (s.dev.core k).reqs = [] ∧
      streamCmd (s.dev.core k) (fun m => m.isOp rowFill || m.isOp rowAccClear) = some m ∧ (s.dev.core k).mayStart s.params m.uid 0 = true ∧
      va = (wordAt m.body 0).toNat + 64 * granAt m m.cursor ∧ m.isOp rowAccClear = true ∧ coreXlate s.dev k m va .zeroRead = (.ok t, d)) := by
  let out := [0x1000000000000000, 0, 0, 0, 0, 0, 0, (0 : Word)]
  refine ⟨⟨mapped (chanCore recOut out), 0, 0, 0, chanCmd recOut out, by decide +kernel⟩, ?_, ?_⟩
  · obtain ⟨t, d, x⟩ := xlate_of (r := coreXlate (mapped { Core.zero with cmds := [fillOf] }).dev 0 fillOf
      ((wordAt fillOf.body 0).toNat + 64 * granAt fillOf fillOf.cursor) .write) (by decide +kernel)
    exact ⟨mapped { Core.zero with cmds := [fillOf] }, 0, 0, 16, fillOf, _, t, d, by decide +kernel, by decide +kernel, by decide +kernel, by decide, rfl,
      by decide +kernel, by decide +kernel, rfl, by decide +kernel, x⟩
  · obtain ⟨t, d, x⟩ := xlate_of (r := coreXlate (mapped clearCore).dev 0 clearOf
      ((wordAt clearOf.body 0).toNat + 64 * granAt clearOf clearOf.cursor) .zeroRead) (by decide +kernel)
    exact ⟨mapped clearCore, 0, 0, 16, clearOf, _, t, d, by decide +kernel, by decide +kernel, by decide +kernel, by decide, rfl,
      by decide +kernel, by decide +kernel, rfl, by decide +kernel, x⟩

theorem test_arrivals_and_credits :
    (∃ (s : State) (i k req : Nat) (r : CoreReq) (m : Cmd), s.dev.siteOf i = some k ∧ s.dev.inService = true ∧
      (s.dev.core k).reqs.find? (fun r => r.id == req && mayArrive (s.dev.core k) r) = some r ∧ (s.dev.core k).cmd r.uid = some m ∧ m.fail.isSome = true) ∧
    (∃ (s : State) (i k req : Nat) (r : CoreReq) (m : Cmd), s.dev.siteOf i = some k ∧ s.dev.inService = true ∧
      (s.dev.core k).reqs.find? (fun r => r.id == req && mayArrive (s.dev.core k) r) = some r ∧ (s.dev.core k).cmd r.uid = some m ∧ m.fail = none ∧
      r.state = 1 ∧ r.region = 16 ∧ m.isOp rowStats = false) ∧
    (∃ (s : State) (i k req : Nat) (r : CoreReq) (m : Cmd) (rg : Region), s.dev.siteOf i = some k ∧ s.dev.inService = true ∧
      (s.dev.core k).reqs.find? (fun r => r.id == req && mayArrive (s.dev.core k) r) = some r ∧ (s.dev.core k).cmd r.uid = some m ∧ m.fail = none ∧
      r.state = 1 ∧ r.region ≠ 16 ∧ m.region r.region = some rg ∧ r.pads = []) ∧
    (∃ (s : State) (i k run iss ki : Nat) (m : Cmd) (h : Chan) (mi : Cmd), s.dev.siteOf i = some k ∧ s.dev.inService = true ∧
      channelCmd s.params (s.dev.core k) run true = some m ∧ s.dev.siteOf iss = some ki ∧ (s.dev.core ki).clearing = false ∧
      chanOf s.params s.dev m run = some h ∧ (s.dev.core ki).cmd m.uid = some mi ∧ h.x.mc ≠ 0 ∧ iss ≠ (siteIndex s.dev k).getD 0 ∧
      issuerOf h.x = iss ∧ (mcMembers h.x).contains ((siteIndex s.dev k).getD 0) = true ∧ (s.dev.core k).halted = false ∧ m.copied = true ∧
      mi.copied = true ∧ mi.fail = none ∧ (s.dev.core k).mayStart s.params m.uid 0 = true ∧ inside (s.dev.core k) h = false ∧
      (s.dev.core k).producerTurn s.params m.uid h.rg.key = true ∧ ((s.dev.core k).ring h.rg.key).canBegin = true) ∧
    (∃ (s : State) (i k run : Nat), s.dev.siteOf i = some k ∧ channelCmd s.params (s.dev.core k) run true = none) := by
  let bad : Cmd := { copyOf with fail := some (.permFault, 0) }
  refine ⟨⟨mapped { Core.zero with cmds := [bad], reqs := [reqOf 16] }, 0, 0, 3, reqOf 16, bad, by decide +kernel⟩,
    ⟨mapped { Core.zero with cmds := [copyOf], reqs := [reqOf 16] }, 0, 0, 3, reqOf 16, copyOf, by decide +kernel⟩,
    ⟨mapped { midCore with reqs := [reqOf 0] }, 0, 0, 3, reqOf 0, midCmd, { newRegion runRec with base := some 0, segIdx := 1 }, by decide +kernel⟩, ?_,
    ⟨mapped Core.zero, 0, 0, 15, by decide +kernel, Option.isNone_iff_eq_none.mp (by decide +kernel)⟩⟩
  let S := twoCores (chanCore recIn mcDesc) (chanCore recIn mcDesc)
  obtain ⟨h, e⟩ := some_of (o := chanOf S.params S.dev (chanCmd recIn mcDesc) 0) (by decide +kernel)
  refine ⟨S, 1, 1, 0, 0, 0, chanCmd recIn mcDesc, h, chanCmd recIn mcDesc, ?_⟩
  have g : h.x.mc ≠ 0 ∧ issuerOf h.x = 0 ∧ (mcMembers h.x).contains 1 = true ∧ inside (S.dev.core 1) h = false ∧ h.rg.key = 4 := by
    have e1 : (chanOf S.params S.dev (chanCmd recIn mcDesc) 0).all (fun h => decide (h.x.mc ≠ 0 ∧ issuerOf h.x = 0 ∧ (mcMembers h.x).contains 1 = true ∧
      inside (S.dev.core 1) h = false ∧ h.rg.key = 4)) = true := by decide +kernel
    rw [e] at e1; exact of_decide_eq_true e1
  obtain ⟨g1, g2, g3, g4, g5⟩ := g
  have hs : (siteIndex S.dev 1).getD 0 = 1 := by decide +kernel
  exact ⟨by decide +kernel, by decide +kernel, by decide +kernel, by decide +kernel, rfl, e, by decide +kernel, g1, by rw [hs]; decide, g2,
    by rw [hs]; exact g3, by decide +kernel, rfl, rfl, rfl, by decide +kernel, g4, by rw [g5]; decide +kernel, by rw [g5]; decide +kernel⟩

theorem test_watchdog :
    (∃ (s : State) (i k : Nat), s.dev.siteOf i = some k ∧ watchdogRuns s.params s.dev k ((siteIndex s.dev k).getD 0) = false) ∧
    (∃ (s : State) (i k own : Nat) (m : Cmd) (ws : List (Nat × Nat)) (rest : List (Cmd × List (Nat × Nat))), s.dev.siteOf i = some k ∧
      s.dev.inService = true ∧ own = (siteIndex s.dev k).getD 0 ∧ watchdogRuns s.params s.dev k own = true ∧
      waitingCmds s.params s.dev k own = (m, ws) :: rest) ∧
    (∃ (s : State) (i k src own : Nat), s.dev.siteOf i = some k ∧ own = (siteIndex s.dev k).getD 0 ∧
      (∀ e ∈ waitingCmds s.params s.dev k own, ∀ w ∈ e.2, w.1 ≠ src)) ∧
    (∃ (s : State) (i k src own : Nat) (m : Cmd) (ws : List (Nat × Nat)) (rest : List (Cmd × List (Nat × Nat))) (j : Nat), s.dev.siteOf i = some k ∧
      s.dev.inService = true ∧ own = (siteIndex s.dev k).getD 0 ∧ waitingCmds s.params s.dev k own = (m, ws) :: rest ∧ (∃ w ∈ ws, w.1 = src) ∧
      s.dev.siteOf src = some j ∧ (s.dev.core j).cmd m.uid = none) := by
  let S := twoCores (chanCore recIn mcDesc) Core.zero
  have h : waitingCmds S.params S.dev 0 0 = [(chanCmd recIn mcDesc, [(1, 0)])] := by decide +kernel
  exact ⟨⟨S, 1, 1, by decide +kernel, by decide +kernel⟩,
    ⟨S, 0, 0, 0, _, _, _, by decide +kernel, by decide +kernel, by decide +kernel, by decide +kernel, h⟩,
    ⟨S, 0, 0, 2, 0, by decide +kernel, by decide +kernel, by decide +kernel⟩,
    ⟨S, 0, 0, 1, 0, _, _, _, 1, by decide +kernel, by decide +kernel, by decide +kernel, h, ⟨(1, 0), by simp, rfl⟩, by decide +kernel, by decide +kernel⟩⟩

/-! ## Completion, multicast and the outer-product unit -/

/-- A region record: first bank, producer, consumer; one segment of 256 bytes. -/
def recW (bank prod cons : Nat) : Word := BitVec.ofNat 64 (bank * 2 ^ 58 + 2 ^ 49 + prod * 2 ^ 44 + cons * 2 ^ 40 + 4 * 2 ^ 12)
/-- A `MATMUL` with M = N = 1 and K = 32: count word, operand and output descriptors. -/
def matmul (w0 fa fo : Word) : Cmd := { cmdOf rowMatmul (w0 :: List.replicate 10 0 ++ [1, 1, 32, 0, 32] ++ List.replicate 8 0 ++ [fa, fo, 0]) with
  admitted := true, copied := true, items := [0]
  regions := [(0, recW 0 1 2), (1, recW 16 1 3), (2, recW 32 1 4), (3, recW 40 1 5), (4, recW 48 1 8), (5, recW 56 7 1)].map (fun e =>
    (e.1, { newRegion e.2 with base := some 0 }))
  descs := (List.range 5).map (fun i => [BitVec.ofNat 64 (i * 2 ^ 28), 0, 0, 0, 0, 0, 0, 0x1000100010001]) }
/-- A core with that command, each input region FULL, its output region empty. -/
def matCore (m : Cmd) (o : Opu) : Core := { Core.zero with
  cmds := [m], opu := o
  rings := (m.regions.map (fun e => (e.2.key, if e.1 = 5 then RingSt.fresh e.2.decl else ((RingSt.fresh e.2.decl).begin_ Seg.zero).markFull 0))) }
/-- The tile being filled, and one that is full. -/
def filling : Opu := { Opu.zero with accs := [⟨.filling, [], none, 7, 0, 0, 0, 0⟩, .zero, .zero, .zero], fill := some ⟨7, 0, 0, 0, 0, 0⟩ }
def filled : Opu := { Opu.zero with accs := [⟨.full, [], none, 7, 0, 0, 0, 0⟩, .zero, .zero, .zero], fullq := [0] }
def beginTag : Begin → Option Nat | .fails u => some u | .wait => some 0 | .fill _ _ => none

/-- As `plain`, with its accumulator loaded from region 6. -/
def loadMat : Cmd := let m := matmul 0x400000000000 0 0
  { m with regions := m.regions ++ [(6, { newRegion (recW 60 1 6) with base := some 0 })]
           descs := m.descs ++ [[0x60000000, 0, 0, 0, 0, 0, 0, 0x1000100010001]] }
/-- One core in service. -/
def one (c : Core) : State := oneCore c svc

theorem found {o : Option (Cmd × SideJob)} {g : Cmd → SideJob → Bool} (h : o.any (fun e => g e.1 e.2) = true) :
    ∃ m j, o = some (m, j) ∧ g m j = true := by
  cases o with
  | none => cases h
  | some e => exact ⟨e.1, e.2, rfl, h⟩
theorem begun {b : Begin} {q : Opu → Fill → Bool} (h : (match b with | .fill o f => q o f | _ => false) = true) : ∃ o f, b = .fill o f ∧ q o f = true := by
  cases b with
  | fill o f => exact ⟨o, f, rfl, h⟩
  | _ => cases h
theorem fails_of {b : Begin} {u : Nat} (h : beginTag b = some u) (hu : u ≠ 0) : b = .fails u := by
  cases b with
  | fails v => simp only [beginTag, Option.some.injEq] at h; rw [h]
  | wait => simp only [beginTag, Option.some.injEq] at h; exact absurd h.symm hu
  | fill o f => cases h

/-- A `MARK` that awaits its gang of one core. -/
def mcPkt : Pkt := { pk (.work 0) rowMark [] with stage := .multicast }
def mcState : State := (oneCore Core.zero svc).upd (fun d =>
  { d.setQueue (.work 0) { Queue.none with live := true, state := .running, flight := [mcPkt] } with gangs := [(0, ⟨true, 0, 0, 1⟩)] })

theorem test_completion_and_multicast :
    (∃ (s : State) (i k uid : Nat) (m : Cmd), s.dev.siteOf i = some k ∧ s.dev.inService = true ∧ (s.dev.core k).cmd uid = some m ∧
      allParts s.params (s.dev.core k) uid = true ∧ (s.dev.core k).atHead uid = true ∧ m.acks = 0 ∧ m.fail.isSome = true) ∧
    (∃ (s : State) (i k uid : Nat) (m : Cmd), s.dev.siteOf i = some k ∧ s.dev.inService = true ∧ (s.dev.core k).cmd uid = some m ∧
      allParts s.params (s.dev.core k) uid = true ∧ (s.dev.core k).atHead uid = true ∧ m.acks = 0 ∧ m.statsWritten = true) ∧
    (∃ (s : State) (i k uid : Nat) (m : Cmd), s.dev.siteOf i = some k ∧ s.dev.inService = true ∧ (s.dev.core k).cmd uid = some m ∧
      allParts s.params (s.dev.core k) uid = true ∧ (s.dev.core k).atHead uid = true ∧ m.acks = 0 ∧ m.fail = none ∧
      statsWrites ((siteIndex s.dev k).getD 0) m = []) ∧
    (∃ (s : State) (i k uid : Nat) (m : Cmd), s.dev.siteOf i = some k ∧ (s.dev.core k).cmd uid = some m ∧ m.acks ≠ 0) ∧
    (∃ (s : State) (q : QRef) (p : Pkt), (s.dev.queue q).flight.find? (fun p => p.stage == .multicast) = some p ∧ mayGoOn s.dev q = false) ∧
    (∃ (s : State) (q : QRef) (p : Pkt), (s.dev.queue q).flight.find? (fun p => p.stage == .multicast) = some p ∧ mayGoOn s.dev q = true ∧
      ∀ i ∈ mcastMembers s.dev p, ∀ k, s.dev.siteOf i = some k → queueRoom (s.dev.core k) = true) ∧
    (∃ (s : State) (q : QRef), ∀ p ∈ (s.dev.queue q).flight, p.stage ≠ .multicast) := by
  let bad := { cmdOf rowMark [] with fail := some (.badParam, 0) }
  let mark := { cmdOf rowMark [] with admitted := true }
  exact ⟨⟨withCmd bad, 0, 0, 7, bad, by decide +kernel⟩, ⟨withCmd { mark with statsWritten := true }, 0, 0, 7, { mark with statsWritten := true }, by decide +kernel⟩,
    ⟨withCmd mark, 0, 0, 7, mark, by decide +kernel⟩, ⟨withCmd { mark with acks := 1 }, 0, 0, 7, { mark with acks := 1 }, by decide +kernel⟩,
    ⟨mcState.upd (fun d => d.modQueue (.work 0) (fun x => { x with state := .stopped })), .work 0, mcPkt, by decide +kernel⟩,
    ⟨mcState, .work 0, mcPkt, by decide +kernel, by decide +kernel, fun i hi k hk => by
        rw [show mcastMembers mcState.dev mcPkt = [0] from by decide +kernel] at hi
        obtain rfl := List.mem_singleton.mp hi
        rw [show mcState.dev.siteOf 0 = some 0 from by decide +kernel] at hk
        cases hk; decide +kernel⟩,
    ⟨svc, .work 0, by decide +kernel⟩⟩

theorem test_opu_reads :
    (∃ (s : State) (i k : Nat) (m : Cmd) (tile it : Nat) (t : Serv) (n : Nat) (rg : Region) (a seg : Nat), s.dev.siteOf i = some k ∧ s.dev.inService = true ∧
      nextTile s.params (s.dev.core k) = some (m, tile) ∧ m.work.accInit = accLoad ∧ (s.dev.core k).mayStart s.params m.uid 1 = true ∧
      (∀ x ∈ (s.dev.core k).opu.accs, x.st ≠ .loading) ∧ (tileItems s.params m)[tile]? = some (it, t) ∧ unitRegion m 6 = some (n, rg) ∧
      freeAcc (s.dev.core k).opu = some a ∧ servSeg m n rg it = some seg ∧
      segsFull (s.dev.core k) rg.key ((loadSegs s.params m n rg.shape it t).map (seg + ·)) = true) ∧
    (∃ (s : State) (i k : Nat), s.dev.siteOf i = some k ∧ accLoadStep s.params (s.dev.core k) = none) ∧
    (∃ (s : State) (i k : Nat) (m : Cmd) (j : SideJob), s.dev.siteOf i = some k ∧ s.dev.inService = true ∧
      (feedJobs s.params (s.dev.core k) 4).find? (fun e => !(s.dev.core k).opu.holds e.1.uid e.2) = some (m, j) ∧
      jobReady s.params (s.dev.core k) m j = true) ∧
    (∃ (s : State) (i k : Nat) (m : Cmd) (j : SideJob), s.dev.siteOf i = some k ∧ s.dev.inService = true ∧
      (feedJobs s.params (s.dev.core k) 5).find? (fun e => !(s.dev.core k).opu.holds e.1.uid e.2) = some (m, j) ∧
      jobReady s.params (s.dev.core k) m j = true) ∧
    (∃ (s : State) (i k : Nat) (m : Cmd) (j : SideJob), s.dev.siteOf i = some k ∧ s.dev.inService = true ∧
      (drainJobs s.params (s.dev.core k)).find? (fun e => !(s.dev.core k).opu.holds e.1.uid e.2) = some (m, j) ∧
      jobReady s.params (s.dev.core k) m j = true) := by
  let zps := matCore (matmul 0 0x0080000000800000 0) filling
  let rows := matCore (matmul 0 0 0x3000) filled
  refine ⟨?_, ⟨one Core.zero, 0, 0, by decide +kernel, Option.isNone_iff_eq_none.mp (by decide +kernel)⟩, ?_, ?_, ?_⟩
  · have h : (tileItems (one (matCore loadMat .zero)).params loadMat)[0]?.all (fun e => decide (e.1 = 0) && segsFull ((one (matCore loadMat .zero)).dev.core 0) 60
        ((loadSegs (one (matCore loadMat .zero)).params loadMat 6 (newRegion (recW 60 1 6)).shape 0 e.2).map (0 + ·))) = true := by decide +kernel
    obtain ⟨it, t, e⟩ := some_of2 (o := (tileItems (one (matCore loadMat .zero)).params loadMat)[0]?) (by decide +kernel)
    rw [e] at h
    simp only [Option.all_some, Bool.and_eq_true, decide_eq_true_eq] at h
    obtain ⟨rfl, h2⟩ := h
    exact ⟨one (matCore loadMat .zero), 0, 0, loadMat, 0, 0, t, 6, { newRegion (recW 60 1 6) with base := some 0 }, 0, 0, by decide +kernel, by decide +kernel,
      by decide +kernel, by decide +kernel, by decide +kernel, by decide +kernel, e, by decide +kernel, by decide +kernel, by decide +kernel, h2⟩
  · obtain ⟨m, j, h⟩ := found (o := (feedJobs (one zps).params ((one zps).dev.core 0) 4).find? (fun e => !((one zps).dev.core 0).opu.holds e.1.uid e.2))
      (g := jobReady (one zps).params ((one zps).dev.core 0)) (by decide +kernel)
    exact ⟨one zps, 0, 0, m, j, by decide +kernel, by decide +kernel, h⟩
  · obtain ⟨m, j, h⟩ := found (o := (feedJobs (one zps).params ((one zps).dev.core 0) 5).find? (fun e => !((one zps).dev.core 0).opu.holds e.1.uid e.2))
      (g := jobReady (one zps).params ((one zps).dev.core 0)) (by decide +kernel)
    exact ⟨one zps, 0, 0, m, j, by decide +kernel, by decide +kernel, h⟩
  · obtain ⟨m, j, h⟩ := found (o := (drainJobs (one rows).params ((one rows).dev.core 0)).find? (fun e => !((one rows).dev.core 0).opu.holds e.1.uid e.2))
      (g := jobReady (one rows).params ((one rows).dev.core 0)) (by decide +kernel)
    exact ⟨one rows, 0, 0, m, j, by decide +kernel, by decide +kernel, h⟩

theorem test_opu_beats_and_drains :
    (∃ (s : State) (i k : Nat), s.dev.siteOf i = some k ∧ (s.dev.core k).opu.fill = none ∧ beginTile s.params (s.dev.core k) = .wait) ∧
    (∃ (s : State) (i k uid : Nat), s.dev.siteOf i = some k ∧ s.dev.inService = true ∧ (s.dev.core k).opu.fill = none ∧
      beginTile s.params (s.dev.core k) = .fails uid) ∧
    (∃ (s : State) (i k : Nat) (f : Fill) (c1 : Core) (m : Cmd), s.dev.siteOf i = some k ∧ s.dev.inService = true ∧
      (s.dev.core k).opu.fill = some f ∧ doBeat s.params (s.dev.core k) f = some c1 ∧ (s.dev.core k).cmd f.uid = some m) ∧
    (∃ (s : State) (i k : Nat) (o : Opu) (f : Fill) (c c1 : Core) (m : Cmd), s.dev.siteOf i = some k ∧ s.dev.inService = true ∧
      (s.dev.core k).opu.fill = none ∧ beginTile s.params (s.dev.core k) = .fill o f ∧ c = { s.dev.core k with opu := { o with fill := some f } } ∧
      doBeat s.params c f = some c1 ∧ c.cmd f.uid = some m) ∧
    (∃ (s : State) (i k : Nat) (f : Fill), s.dev.siteOf i = some k ∧ (s.dev.core k).opu.fill = some f ∧ doBeat s.params (s.dev.core k) f = none) ∧
    (∃ (s : State) (i k : Nat) (x : Drain) (c1 : Core) (ctr : Nat), s.dev.siteOf i = some k ∧ s.dev.inService = true ∧
      beginDrain (s.dev.core k) = some x ∧ drainStep s.params (s.dev.core k) s.dev.freeCtr x = some (c1, ctr)) ∧
    (∃ (s : State) (i k : Nat), s.dev.siteOf i = some k ∧ beginDrain (s.dev.core k) = none) := by
  let plain := matmul 0 0 0
  let retain := matmul 0x800000000000 0 0
  refine ⟨⟨one Core.zero, 0, 0, by decide +kernel, rfl, rfl⟩, ?_, ?_, ?_, ?_, ?_, ⟨one Core.zero, 0, 0, by decide +kernel, rfl⟩⟩
  · have h : beginTag (beginTile (one (matCore retain .zero)).params ((one (matCore retain .zero)).dev.core 0)) = some 7 := by decide +kernel
    exact ⟨one (matCore retain .zero), 0, 0, 7, by decide +kernel, by decide +kernel, rfl, fails_of h (by decide)⟩
  · obtain ⟨c1, h⟩ := some_of (o := doBeat (one (matCore plain filling)).params ((one (matCore plain filling)).dev.core 0) ⟨7, 0, 0, 0, 0, 0⟩) (by decide +kernel)
    exact ⟨one (matCore plain filling), 0, 0, ⟨7, 0, 0, 0, 0, 0⟩, c1, plain, by decide +kernel, by decide +kernel, rfl, h, by decide +kernel⟩
  · obtain ⟨o, f, h1, h2⟩ := begun (b := beginTile (one (matCore plain .zero)).params ((one (matCore plain .zero)).dev.core 0))
      (q := fun o f => (doBeat (one (matCore plain .zero)).params { (one (matCore plain .zero)).dev.core 0 with opu := { o with fill := some f } } f).isSome &&
        decide (({ (one (matCore plain .zero)).dev.core 0 with opu := { o with fill := some f } } : Core).cmd f.uid = some plain)) (by decide +kernel)
    rw [Bool.and_eq_true, decide_eq_true_eq] at h2
    obtain ⟨c1, h3⟩ := some_of h2.1
    exact ⟨one (matCore plain .zero), 0, 0, o, f, _, c1, plain, by decide +kernel, by decide +kernel, rfl, h1, rfl, h3, h2.2⟩
  · exact ⟨one { Core.zero with opu := filling }, 0, 0, ⟨7, 0, 0, 0, 0, 0⟩, by decide +kernel, rfl, rfl⟩
  · obtain ⟨x, hx⟩ := some_of (o := beginDrain ((one (matCore plain filled)).dev.core 0)) (by decide +kernel)
    have hy : ((beginDrain ((one (matCore plain filled)).dev.core 0)).any (fun x =>
      (drainStep (one (matCore plain filled)).params ((one (matCore plain filled)).dev.core 0) (one (matCore plain filled)).dev.freeCtr x).isSome)) = true := by
        decide +kernel
    rw [hx] at hy
    obtain ⟨c1, ctr, h⟩ := some_of2 hy
    exact ⟨one (matCore plain filled), 0, 0, x, c1, ctr, by decide +kernel, by decide +kernel, hx, h⟩

/-! ## Seams, clears and fittings -/

theorem length_leBytes (n v : Nat) : (leBytes n v).length = n := by
  induction n generalizing v with
  | zero => rfl
  | succ n ih => rw [leBytes, List.length_cons, ih]
theorem length_words (ws : List Word) : (wordsToBytes ws).length = 8 * ws.length := by
  induction ws with
  | nil => rfl
  | cons w ws ih => rw [wordsToBytes, List.length_append, length_leBytes, ih, List.length_cons]; omega
theorem length_flatMap_const {α β : Type} (l : List α) (f : α → List β) (n : Nat) (h : ∀ a ∈ l, (f a).length = n) :
    (l.flatMap f).length = n * l.length := by
  induction l with
  | nil => rfl
  | cons a l ih =>
    rw [List.flatMap_cons, List.length_append, h a (List.mem_cons_self ..), ih (fun b hb => h b (List.mem_cons_of_mem a hb)), List.length_cons,
      Nat.mul_succ]; omega
theorem pieces_below (fuel va n : Nat) : ∀ pc ∈ pieces va n fuel, pc.1 < va + n := by
  induction fuel generalizing va n with
  | zero => intro pc h; cases h
  | succ fuel ih =>
    intro pc h
    rw [pieces] at h
    split at h
    · cases h
    · rcases List.mem_cons.mp h with rfl | h
      · show va < va + n; omega
      · have := ih _ _ pc h; omega
/-- A core's fitting in a context whose first GiB is host memory. -/
def fitCmd : Fitting := ⟨7, .work 0, 0, 0x3FF, 0, 0, 0xFFFF, 0, 0, 0x40, false⟩
def fitState : State := oneCore { Core.zero with fitting := some fitCmd } (svcM [])

theorem fit_target {s : State} (h1 : (s.dev.core 0).tlb = []) (h2 : (s.dev.panel (keyPanel 0)).tlb = [hostLeaf 0x3FF]) (va : Nat) (hv : va < 2 ^ 30) :
    fitXlate s 0 fitCmd va = .ok (.host va false) := by
  have h4 : leafFind [hostLeaf 0x3FF] 0x3FF 0 va = some (hostLeaf 0x3FF) := by
    simpa [leafFind, tlbFind, hostLeaf] using hv
  have e : targetOf (hostLeaf 0x3FF).pte 30 va = .host va false := by
    rw [targetOf, Nat.mod_eq_of_lt hv, if_pos (by decide +kernel), show pteAddr (hostLeaf 0x3FF).pte = 0 from by decide +kernel, Nat.zero_add,
      show pteCoh (hostLeaf 0x3FF).pte = false from by decide +kernel]
  unfold fitXlate
  dsimp only
  rw [h1, h2, List.nil_append, show fitCmd.ctx = 0x3FF from rfl, show fitCmd.root = 0 from rfl, h4]
  show useLeaf (hostLeaf 0x3FF).pte 30 va .write = _
  rw [useLeaf, if_pos (by decide +kernel)]; exact congrArg Except.ok e

theorem fit_sent (s : State) (func ctx va : Nat) (bs : List Byte) :
    (writeTarget s func ctx (.host va false) bs).dev.cores = s.dev.cores ∧ (writeTarget s func ctx (.host va false) bs).dev.panels = s.dev.panels :=
  ⟨rfl, rfl⟩

theorem fit_written : ∀ (ps : List (Nat × Nat)) (s : State) (bs : List Byte), (∀ pc ∈ ps, pc.1 < 2 ^ 30) → (s.dev.core 0).tlb = [] →
    (s.dev.panel (keyPanel 0)).tlb = [hostLeaf 0x3FF] → (fitWrite 0 fitCmd s bs ps).2 = none
  | [], _, _, _, _, _ => rfl
  | (va, n) :: ps, s, bs, hp, h1, h2 => by
    have e : fitXlate s 0 fitCmd va = .ok (.host va false) := fit_target h1 h2 va (hp (va, n) (List.mem_cons_self ..))
    rw [fitWrite, e]
    refine fit_written ps _ _ (fun pc h => hp pc (List.mem_cons_of_mem _ h)) ?_ ?_
    · rw [← h1]; unfold Dev.core; rw [(fit_sent s _ _ va _).1]
    · rw [← h2]; unfold Dev.panel; rw [(fit_sent s _ _ va _).2]

theorem fit_length : (fitRecord fitState 0 fitCmd).length < 2 ^ 29 := by
  have ha : ((fitState.dev.core 0).opu.accs.flatMap fitAcc).length = 65536 :=
    length_flatMap_const _ _ 16384 (fun a _ => length_flatMap_const _ _ 4 (fun i _ => length_leBytes 4 _))
  have hc : ∀ free, ((List.range (16 * fitState.params.fabricRows)).flatMap (fitCell (fitState.dev.core 0) free)).length = 8192 := fun free =>
    length_flatMap_const _ _ 32 (fun i _ => by
      rw [fitCell, show (fitState.dev.core 0).fab.cells = [] from rfl, List.getD_nil]
      simp only [List.length_append, fitFWord, length_leBytes]
      rw [length_flatMap_const _ _ 4 (fun r _ => length_leBytes 4 _)]; rfl)
  have he : ∀ free, ((List.range (32 + 2 * fitState.params.fabricRows)).flatMap (fitEdge (fitState.dev.core 0) free)).length = 1024 := fun free =>
    length_flatMap_const _ _ 16 (fun i _ => by simp only [fitEdge, fitFWord, List.length_append, length_leBytes])
  have hf : fitCmd.tile = false := rfl
  unfold fitRecord
  simp only [hf, fitFabric, freeWords, List.length_append, length_words, length_leBytes, List.length_map, List.length_range, List.length_take,
    List.length_replicate, ha, hc, he, fitHeader, List.length_cons, List.length_nil]
  have : fitState.params.fabricRows ≤ 16 := by decide +kernel
  simp
  omega

theorem pair_of {α β : Type} {p : α × Option β} (h : p.2 = none) : ∃ a, p = (a, none) := by
  obtain ⟨a, b⟩ := p; exact ⟨a, by rw [show b = none from h]⟩
theorem fit_writes : ∃ s1, fitWrite 0 fitCmd (fitState.upd (fun d =>
    { d.modCore 0 (fun c => { c with fitting := none }) with freeCtr := d.freeCtr + 632 })) (fitRecord fitState 0 fitCmd)
    (pieces fitCmd.va (fitRecord fitState 0 fitCmd).length ((fitRecord fitState 0 fitCmd).length / 64 + 2)) = (s1, none) := by
  have l := fit_length
  have v : fitCmd.va = 0x40 := rfl
  generalize fitRecord fitState 0 fitCmd = bs at l ⊢
  refine pair_of (fit_written _ _ _ (fun pc h => ?_) ?_ ?_)
  · have := pieces_below _ _ _ pc h
    rw [v] at this; omega
  · decide +kernel
  · decide +kernel

/-- The same core where nothing maps the record. -/
def fitBare : State := oneCore { Core.zero with fitting := some fitCmd } svc
theorem fit_nonempty : (fitRecord fitBare 0 fitCmd).length ≠ 0 := by
  unfold fitRecord
  simp only [List.length_append, length_words, fitHeader, List.length_cons]
  omega
theorem fit_stops (s : State) (bs : List Byte) (va n : Nat) (h : n ≠ 0) (e : (match fitXlate s 0 fitCmd va with | .ok _ => false | .error _ => true) = true) :
    ∃ x, fitWrite 0 fitCmd s bs (pieces va n (n / 64 + 2)) = (s, some x) := by
  rw [pieces, if_neg h]
  split at e
  · cases e
  · next x hx => exact ⟨x, by dsimp only; rw [fitWrite, hx]⟩

theorem test_seams :
    (∃ (s : State) (i k : Nat) (m : Cmd), s.dev.siteOf i = some k ∧ s.dev.inService = true ∧
      firstCmd (s.dev.core k) (fun m => m.isOp rowSeam && !m.started && (s.dev.core k).atHead m.uid) = some m ∧ m.seamPart = false) ∧
    (∃ (s : State) (i k : Nat) (m : Cmd), s.dev.siteOf i = some k ∧ s.dev.inService = true ∧
      firstCmd (s.dev.core k) (fun m => m.isOp rowSeam && !m.started && (s.dev.core k).atHead m.uid) = some m ∧ m.seamPart = true) ∧
    (∃ (s : State) (slot h : Nat) (sc : Option Bool) (e : Episode), seamOf s.dev slot = (h, sc, some e) ∧ s.dev.inService = true ∧
      e.partScope = false ∧ e.cores ≠ [] ∧ (∀ c ∈ e.cores, c ∈ e.started)) ∧
    (∃ (s : State) (slot h : Nat) (sc : Option Bool) (e : Episode) (c : Nat), seamOf s.dev slot = (h, sc, some e) ∧ c ∈ e.cores ∧ c ∉ e.started) ∧
    (∃ (s : State) (slot : Nat) (e : Episode), (seamOf s.dev slot).2.2 = some e ∧ s.dev.inService = true ∧ e.partScope = true ∧
      (∀ n ∈ e.queues, arrivedQueue s.dev e n = true) ∧ e.queues ≠ []) ∧
    (∃ (s : State) (slot : Nat) (e : Episode) (n : Nat), (seamOf s.dev slot).2.2 = some e ∧ n ∈ e.queues ∧ arrivedQueue s.dev e n = false) := by
  let ep (part : Bool) (cores started queues : List Nat) : Episode := ⟨part, cores, started, [0], queues, [7]⟩
  let st (e : Episode) : State := withObj ⟨4, 5⟩ 0 (.seam 0 (some e.partScope) (some e)) svc
  let live (s : State) : State := s.upd (fun d => { d with queues := [(3, { Queue.none with live := true })] })
  exact ⟨⟨withCmd (cmdOf rowSeam [5, 0]), 0, 0, cmdOf rowSeam [5, 0], by decide +kernel⟩, ⟨withCmd (cmdOf rowSeam [5, 1]), 0, 0, cmdOf rowSeam [5, 1], by decide +kernel⟩,
    ⟨st (ep false [2, 4] [4, 2] []), 5, 0, some false, ep false [2, 4] [4, 2] [], by decide +kernel, by decide +kernel, rfl, by decide, by decide⟩,
    ⟨st (ep false [2, 4] [4] []), 5, 0, some false, ep false [2, 4] [4] [], 2, by decide +kernel, by decide, by decide⟩,
    ⟨st (ep true [] [] [3]), 5, ep true [] [] [3], by decide +kernel, by decide +kernel, rfl, by decide +kernel, by decide⟩,
    ⟨live (st (ep true [] [] [3])), 5, ep true [] [] [3], 3, by decide +kernel, by decide, by decide +kernel⟩⟩

theorem test_clears_and_fittings :
    (∃ (s : State) (pl pt : Nat) (c : Nat × Nat), s.dev.mc.clears.find? (fun c => c.1 == 16 * pl + pt) = some c ∧ s.dev.mc.clears = [c] ∧
      (∀ st, st < s.params.sites → (s.dev.core (siteKey pl st)).clearing = true → siteRequests s.dev (siteKey pl st) = false)) ∧
    (∃ (s : State) (pl pt : Nat), ∀ c ∈ s.dev.mc.clears, c.1 ≠ 16 * pl + pt) ∧
    (∃ (s : State) (pl pt : Nat) (c : Nat × Nat) (st : Nat), s.dev.mc.clears = [c] ∧ c.1 = 16 * pl + pt ∧ st < s.params.sites ∧
      (s.dev.core (siteKey pl st)).clearing = true ∧ siteRequests s.dev (siteKey pl st) = true) ∧
    (∃ (s : State) (i k : Nat), s.dev.siteOf i = some k ∧ (s.dev.core k).fitting = none) ∧
    (∃ (s : State) (i k : Nat) (f : Fitting) (bs : List Byte) (s1 : State), s.dev.siteOf i = some k ∧ s.dev.inService = true ∧
      (s.dev.core k).fitting = some f ∧ bs = fitRecord s k f ∧
      fitWrite k f (s.upd (fun d => { d.modCore k (fun c => { c with fitting := none }) with freeCtr := d.freeCtr + 632 })) bs
        (pieces f.va bs.length (bs.length / 64 + 2)) = (s1, none)) ∧
    (∃ (s : State) (i k : Nat) (f : Fitting) (bs : List Byte) (s1 : State) (x : XFault), s.dev.siteOf i = some k ∧ s.dev.inService = true ∧
      (s.dev.core k).fitting = some f ∧ bs = fitRecord s k f ∧
      fitWrite k f (s.upd (fun d => { d.modCore k (fun c => { c with fitting := none }) with freeCtr := d.freeCtr + 632 })) bs
        (pieces f.va bs.length (bs.length / 64 + 2)) = (s1, some x)) := by
  let cl (s : State) : State := s.upd (fun d => { d with mc := { d.mc with clears := [(0, 7)] } })
  let core : State := oneCore { Core.zero with clearing := true } svc
  refine ⟨⟨cl core, 0, 0, (0, 7), by decide +kernel, rfl, fun st hs _ => by
      have e : (cl core).dev.ports = [] ∧ (cl core).dev.host.accq = [] ∧ (cl core).dev.host.reqs = [] := by decide +kernel
      unfold siteRequests; rw [e.1, e.2.1, e.2.2]; rfl⟩,
    ⟨svc, 0, 0, by decide⟩,
    ⟨(cl core).upd (fun d => { d with ports := [(0, { StackPort.zero with waiting := [⟨1, .core 0 1, .read, 0x40, false, 0, 0, 0, 0, [], 1, 2, 0⟩] })] }), 0, 0, (0, 7), 0,
      rfl, rfl, by decide +kernel, by decide +kernel, by decide +kernel⟩,
    ⟨withCmd matCmd, 0, 0, by decide +kernel, by decide +kernel⟩, ?_⟩
  obtain ⟨s1, h⟩ := fit_writes
  obtain ⟨x, hx⟩ := fit_stops (fitBare.upd (fun d => { d.modCore 0 (fun c => { c with fitting := none }) with freeCtr := d.freeCtr + 632 }))
    (fitRecord fitBare 0 fitCmd) fitCmd.va _ fit_nonempty (by decide +kernel)
  exact ⟨⟨fitState, 0, 0, fitCmd, _, s1, by decide +kernel, by decide +kernel, by decide +kernel, rfl, h⟩,
    ⟨fitBare, 0, 0, fitCmd, _, _, x, by decide +kernel, by decide +kernel, by decide +kernel, rfl, hx⟩⟩

/-! ## Translation, links, bring-up, firmware and test ports -/

/-- A host-coupled instance in service: context 5 of function 7, its page tables in the function's one grant, one 2 MiB page at 2 MiB. -/
def walkState : State := { hostSvc.upd (fun d => { d with
    ctxs := [(5, { Ctx.none with live := true, owner := 7, root := 0 })]
    grants := [(0, ⟨BitVec.ofNat 64 (2 ^ 62 + 7 * 2 ^ 46), 0x1FFFFFF, false, false⟩)] }) with
  mem := { hostSvc.mem with host := Memory.write 0 (leBytes 8 0x1001) (Memory.write 0x1000 (leBytes 8 0x2001) (Memory.write 0x2000 (leBytes 8 0x3001)
    (Memory.write 0x3000 (leBytes 8 0x200007) []))) } }
/-- The physical address of an answer. -/
def physIs (r : Except XFault Target) (pa : Nat) : Bool := match r with | .ok (.phys a) => a == pa | _ => false
theorem phys_of {r : Except XFault Target} {pa : Nat} (h : physIs r pa = true) : r = .ok (.phys pa) := by
  cases r with
  | error x => cases h
  | ok t => cases t with
    | host a c => cases h
    | phys a => rw [show a = pa from by simpa [physIs] using h]
/-- A flit of one direction whose numbers are all 0, as its module receives it: a DATA flit that carries nothing. -/
def goodFlit : BitVec 2176 := LinkDir.zero.txd 25 (mkFlit 0x1000000000000000#64 [])
/-- Bring-up in a phase. -/
def bringUp (n : Nat) : State := State.reset.upd (fun d => { d with boot := { d.boot with phase := n } })

theorem test_translations :
    (∃ (s : State) (wc : List TlbEntry) (ctx root va pa : Nat) (acc : Acc3), (s.dev.ctx ctx).owner ≠ 0 ∧ translate s wc ctx root va acc = .ok (.phys pa)) ∧
    (∃ (s : State) (panel ctx va pa : Nat) (acc : Acc3), (s.dev.ctx ctx).owner ≠ 0 ∧
      leafFind (s.dev.panel panel).tlb ctx (s.dev.ctx ctx).root va = none ∧ dXlate s panel ctx va acc = .ok (.phys pa)) :=
  ⟨⟨walkState, [], 5, 0, 0x40, 0x200040, .read, by decide +kernel, phys_of (by decide +kernel)⟩,
   ⟨walkState, 0, 5, 0x1FFFFF, 0x3FFFFF, .read, by decide +kernel, by decide +kernel, phys_of (by decide +kernel)⟩⟩

theorem test_links :
    (∃ (s : State) (l : Nat), (s.dev.link l).formed = false) ∧ (∃ (s : State) (l : Nat), (s.dev.link l).lost = true) ∧
    (∃ s : State, s.dev.boot.inReset = true) ∧ (∃ (s : State) (l : Nat) (up : Bool) (m : Nat), m ∉ ((s.dev.link l).dir up).inUse) ∧
    (∃ (s : State) (l : Nat) (up : Bool) (m : Nat) (b : BitVec 2176), (s.dev.link l).formed = true ∧ (s.dev.link l).lost = false ∧
      s.dev.boot.inReset = false ∧ m ∈ ((s.dev.link l).dir up).inUse ∧ flitGood (((s.dev.link l).dir up).flitWords m b) = false) ∧
    (∃ (s : State) (l : Nat) (up : Bool) (m : Nat) (b : BitVec 2176) (ws : List Word), (s.dev.link l).formed = true ∧ (s.dev.link l).lost = false ∧
      s.dev.boot.inReset = false ∧ m ∈ ((s.dev.link l).dir up).inUse ∧ ws = ((s.dev.link l).dir up).flitWords m b ∧ flitGood ws = true ∧
      fType ws = 1 ∧ fMseq ws = Tbl.get 0 m ((s.dev.link l).dir up).rxMseq) ∧
    (∃ (s : State) (l : Nat) (up : Bool) (m j : Nat), (s.dev.link l).formed = true ∧ (s.dev.link l).lost = false ∧ s.dev.boot.inReset = false ∧
      ((s.dev.link l).dir up).repairing = none ∧ m ∈ ((s.dev.link l).dir up).inUse ∧ wornLane ((s.dev.link l).dir up) m = some j ∧
      (((s.dev.link l).dir up).bad m).length < 4) ∧
    (∃ (s : State) (l : Nat) (up : Bool), ((s.dev.link l).dir up).repairing = none) ∧
    (∃ (s : State) (l : Nat) (up : Bool) (r : Repair), ((s.dev.link l).dir up).repairing = some r ∧ ((s.dev.link l).dir up).settled = false) ∧
    (∃ (s : State) (l : Nat) (up : Bool) (m j : Nat), ((s.dev.link l).dir up).repairing = some ⟨m, some j, none⟩ ∧
      ((s.dev.link l).dir up).settled = true) :=
  let z := LinkDir.zero
  ⟨⟨svc, 0, by decide +kernel⟩, ⟨svc.upd (fun d => { d with links := [(0, { Link.zero with lost := true })] }), 0, by decide +kernel⟩,
   ⟨deviceReset svc 3 3, by decide +kernel⟩, ⟨linkState z, 0, true, 24, by decide +kernel⟩,
   ⟨linkState { z with out := [0] }, 0, true, 24, 0, by decide +kernel⟩,
   ⟨linkState { z with out := [0, 1] }, 0, true, 25, goodFlit, _, by decide +kernel, by decide +kernel, by decide +kernel, by decide +kernel, rfl,
     by decide +kernel, by decide +kernel, by decide +kernel⟩,
   ⟨linkState { z with laneErr := [(23 * nLanes + 67, 64)] }, 0, true, 23, 67, by decide +kernel⟩, ⟨svc, 0, true, by decide +kernel⟩,
   ⟨linkState { z with repairing := some ⟨23, some 67, none⟩, resend := [(0, [])] }, 0, true, ⟨23, some 67, none⟩, by decide +kernel⟩,
   ⟨linkState { z with repairing := some ⟨23, some 67, none⟩ }, 0, true, 23, 67, by decide +kernel⟩⟩

theorem test_bring_up :
    (∃ s : State, inPhase s.dev 0 = true) ∧ (∃ s : State, inPhase s.dev 1 = true) ∧ (∃ s : State, inPhase s.dev 2 = true) ∧
    (∃ s : State, inPhase s.dev 3 = true) ∧ (∃ s : State, inPhase s.dev 4 = true) ∧
    (∃ (s : State) (rs : List ModTrain) (d : Dev) (ok : Bool), inPhase s.dev 5 = true ∧
      (List.range s.params.links).foldl (trainLink rs) (rs.foldl setPhy s.dev, true) = (d, ok)) ∧
    (∃ s : State, s.dev.boot.ready = true) :=
  ⟨⟨bringUp 0, by decide +kernel⟩, ⟨bringUp 1, by decide +kernel⟩, ⟨bringUp 2, by decide +kernel⟩, ⟨bringUp 3, by decide +kernel⟩,
   ⟨bringUp 4, by decide +kernel⟩, ⟨bringUp 5, [], _, _, by decide +kernel, rfl⟩, ⟨svc, by decide +kernel⟩⟩

theorem test_firmware :
    (∃ s : State, inPhase s.dev 6 = true ∧ s.dev.boot.noStore = true) ∧ (∃ s : State, inPhase s.dev 6 = false) ∧
    (∃ (s : State) (mc uc a b cert : List (BitVec 4)) (d1 : Dev), inPhase s.dev 6 = true ∧ s.dev.boot.noStore = false ∧
      d1 = readImages (readIdentity (readSvc s.params s.dev (optBytes a) (optBytes b)) (optBytes cert)) (optBytes (mc ++ uc))
        ((optBytes (mc ++ uc)).drop (ucPlace (optBytes (mc ++ uc)))) ∧ d1.mc.fwOk = true ∧ d1.mc.ucOk = true) ∧
    (∃ (s : State) (mc uc a b cert : List (BitVec 4)) (d1 : Dev), inPhase s.dev 6 = true ∧ s.dev.boot.noStore = false ∧
      d1 = readImages (readIdentity (readSvc s.params s.dev (optBytes a) (optBytes b)) (optBytes cert)) (optBytes (mc ++ uc))
        ((optBytes (mc ++ uc)).drop (ucPlace (optBytes (mc ++ uc)))) ∧ d1.mc.fwOk = false) ∧
    (∃ (s : State) (pl st pg : Nat), (s.dev.site (siteKey pl st)).pages ≠ pg) ∧
    (∃ (s : State) (pl st : Nat), s.dev.mc.single = none ∧ s.dev.boot.inReset = false ∧ s.dev.boot.phase = 7 ∧ s.dev.boot.error = 0 ∧
      siteKey pl st ∈ liveSites s.params s.dev ∧ fetchPending s.dev (siteKey pl st) = true) ∧
    (∃ (s : State) (uid : Nat) (img : List Byte), s.dev.mc.quiesce = some (uid, img) ∧ quiesced s.dev = true) ∧
    (∃ (s : State) (uid : Nat) (img : List Byte), s.dev.mc.quiesce = some (uid, img) ∧ quiesced s.dev = false) ∧
    (∃ s : State, s.dev.mc.quiesce = none) :=
  -- whether a signature holds is a free value, so these images are held as verified already
  let held := (bringUp 6).upd (fun d => { d with mc := { d.mc with fwOk := true, ucOk := true } })
  let q := svc.upd (fun d => { d with mc := { d.mc with quiesce := some (7, []) } })
  ⟨⟨(bringUp 6).upd (fun d => { d with boot := { d.boot with noStore := true } }), by decide +kernel⟩, ⟨svc, by decide +kernel⟩,
   ⟨held, [], [], [], [], [], _, by decide +kernel, by decide +kernel, rfl, by decide +kernel, by decide +kernel⟩,
   ⟨bringUp 6, [], [], [], [], [], _, by decide +kernel, by decide +kernel, rfl, by decide +kernel⟩, ⟨svc, 0, 0, 64, by decide +kernel⟩, ⟨bringUp 7, 0, 0, by decide +kernel, by decide +kernel, by decide +kernel, by decide +kernel, by decide +kernel, by decide +kernel⟩, ⟨q, 7, [], by decide +kernel⟩,
   ⟨q.upd (fun d => d.setQueue (.work 4095) { Queue.none with live := true, flight := [{ pk (.work 4095) rowBar [7] with stage := .left }] }), 7, [],
     by decide +kernel⟩, ⟨svc, by decide +kernel⟩⟩

theorem test_test_port_hypotheses :
    (∃ (s : State) (pl : Nat), pl < s.params.panels ∧ testHeld s.dev pl = false) ∧
    (∃ (s : State) (pl : Nat), pl < s.params.panels ∧ testHeld s.dev pl = false ∧ s.dev.boot.inReset = true) ∧
    (∃ (s : State) (pl : Nat), testHeld s.dev pl = true) :=
  ⟨⟨svc, 1, by decide +kernel⟩, ⟨deviceReset svc 2 0, 1, by decide +kernel⟩,
   ⟨svc.upd (fun d => { d with pins := { d.pins with pwrLow := [0] } }), 0, by decide +kernel⟩⟩

theorem test_whole_block_hypotheses :
    (∃ s : State, s.pending = []) ∧ (∃ d : Dev, d.boot.inReset = false) ∧ (∃ d : Dev, d.boot.inReset = true) ∧
    (∃ (c : Instr) (s t : State), keepsMemory c = true ∧ exec c s = .next t) ∧
    (∃ s t : State, MemoryCanonical s ∧ step s = .next t ∧ s.mem.host ≠ []) :=
  ⟨⟨svc, rfl⟩, ⟨svc.dev, rfl⟩, ⟨(deviceReset svc 2 0).dev, by decide +kernel⟩, ⟨.logicBist, svc, _, rfl, rfl⟩,
   ⟨walkState, _, ⟨by decide +kernel, by decide +kernel⟩, rfl, by decide +kernel⟩⟩

/-! ## Operands out of range are refused -/

theorem test_ill_formed_packets_and_rings : ([.ctxCreate (.ctl 256), .copy (.work 4096), .packetRetire (.work 4096), .multicast (.work 0) (some 512),
    .multicast (.ctl 256) none, .submitGranule 256 0 0 [], .submitGranule 0 224 0 [], .submitGranule 0 0 256 [],
    .submitGranule 0 0 255 [0, 0], .restart 256 0 0, .restartFlush 0 224 0, .waitTackResume 16384, .coreCompletion 512 0,
    .ringCfgWrite 0 (.context 1024) 0, .ringHeadWrite 256 .fault 0, .heldFaultRecordWrite 256, .interruptSend 0 64, .intCtlWrite 256 0,
    .registerWrite 0 1048576 0] : List Instr).all (fun i => !i.wf State.reset.params) = true := by decide +kernel

theorem test_ill_formed_tables_and_host : ([.partitionEntryWrite 4 0 0, .partitionEntryWrite 0 16 0, .grantStore 512 0, .grantPurgeDone 512,
    .functionEntryWrite 256 0, .qosEntryWrite 256 0, .stackPortGrant 2 0, .stackPortGrant 0 20, .accumulateOp 0 15, .apertureRead 256 0 0,
    .apertureRead 0 (2 ^ 53) 0, .apertureRead 0 0 64, .apertureWrite 0 0 [0] [], .apertureWrite 0 0xFF [0, 0] [true, true],
    .hostResponse 1024 false [], .hostRequestAbandon 1025, .snoopRequest 1 false, .snoopRequest (2 ^ 64) false, .holdInChange 2 0,
    .holdInChange 0 8, .pkgpwrSample 65536, .stackReadResponse 0 0 8 0 0, .stackReadResponse 0 0 0 256 0, .stackReadResponse 0 0 0 0 16,
    .stackWriteAck 0 0 0 0 4, .stackReadyRise 0 0 (2 ^ 34) false, .accWriteback 0 0 (2 ^ 64), .pageWalkComplete 2 0] :
    List Instr).all (fun i => !i.wf State.reset.params) = true := by decide +kernel

theorem test_ill_formed_cores_and_links : ([.admission 512, .swatchCopy 0 4, .granuleIssue 0 18 false, .writeUnitSend 0 18 .ok,
    .writeUnitSend 0 0 (.accFixed (State.reset.params.opuDim + 2) 0), .readDataArrival 512 0, .mcastFreeReport 0 16 0, .mcastFreeReport 0 0 512,
    .watchdogAbort 0 512, .sidePortRead 512 .a .ok, .sidePortRead 0 .a (.accFixed (State.reset.params.opuDim + 2) 0), .accLoad 512 .ok, .accLoad 0 (.accFixed 0 (State.reset.params.opuDim + 2)), .beatIssue 0 (.accFixed 0 (State.reset.params.opuDim + 2)), .fabricTick 0 [⟨8, true, 0, 0⟩] .ok,
    .fabricTick 0 [⟨0, true, 4, 0⟩] .ok, .fabricTick 0 [] (.accFixed (State.reset.params.opuDim + 2) 0), .seamRelease 4096, .flitReceive 0 true 26 0, .flitReceive 99 true 0 0, .laneRepair 99 true 0 false,
    .laneRepairDone 99 true, .optionLoad [] [], .sramBist [⟨0, 144, 0, 0, 0⟩] [], .sramBist [⟨0, 0, 65, 0, 0⟩] [], .sramBist [] [8],
    .linkTraining [⟨0, true, 26, true, 2, List.replicate 68 0, List.replicate 68 0, true⟩], .linkTraining [⟨0, true, 0, true, 4, List.replicate 68 0, List.replicate 68 0, true⟩],
    .linkTraining [⟨0, true, 0, true, 2, [], List.replicate 68 0, true⟩], .microcodePageFetch 0 0 64 (List.replicate 4096 0), .microcodePageFetch 0 0 0 [], .pwrokChange true 2,
    .rstNChange true 2, .rootclkWindow 0 2, .rootclkMissing 2, .pwrAlertAssert 2, .pwrAlertDeassert 2, .testCapture 2 0 [], .testShift 0 4 true, .testReset 2 true,
    .partitionClearDone 0 16, .quiesceRefetch [288], .fatalResetTimer (some 8)] : List Instr).all (fun i => !i.wf State.reset.params) = true := by decide +kernel

theorem test_boundary_operands_are_well_formed : ([.ctxCreate (.ctl 255), .copy (.work 4095), .submitGranule 255 223 255 [0],
    .submitGranule 0 0xFFFF 0 [], .waitTackResume 16383, .ringCfgWrite 255 (.context 1023) 0, .interruptSend 255 63, .registerWrite 255 1048575 0,
    .grantStore 511 0, .apertureRead 255 (2 ^ 53 - 1) 63, .hostResponse 1023 true [], .holdInChange 1 7, .pkgpwrSample 65535,
    .stackReadyRise 1 0 (2 ^ 34 - 1) true, .swatchCopy 511 3, .granuleIssue 511 17 true, .mcastFreeReport 511 15 511,
    .fabricTick 0 [⟨7, true, 3, 0⟩] .ok, .accLoad 511 .ok, .sidePortRead 511 .b .double, .pwrokChange false 1, .flitReceive 0 true 25 0, .seamRelease 4095, .microcodePageFetch 1 0 63 (List.replicate 4096 0), .partitionClearDone 1 15, .fatalResetTimer (some 9)] :
    List Instr).all (fun i => i.wf State.reset.params) = true := by decide +kernel

/-! ## The accumulate unit's granule -/

theorem test_accumulate_hypotheses : ∃ (old : List Byte) (i : Nat), old.length = 64 ∧ i < 16 ∧ i = 15 := ⟨List.replicate 64 0, 15, rfl, by decide, rfl⟩

/-! ## The step, and words of the table -/

theorem test_table_spells_no_word (n w : Nat) : decodeTableWord n w = none := rfl
theorem test_step_takes_the_front_command : step { svc with pending := [.pwrAlertAssert 0, .logicBist] } =
    exec (.pwrAlertAssert 0) { svc with pending := [.logicBist] } := rfl
theorem test_idle_step_counts_time : ∃ t, step svc = .next t ∧ t.dev.time = 1 := ⟨_, rfl, by decide +kernel⟩
theorem test_reset_is_canonical : MemoryCanonical State.reset := ⟨by decide, by decide⟩

/-- The check value of CRC-32 of IEEE 802.3, over the digits 1 to 9 (R459). -/
theorem test_crc32 : crc32 [0x31, 0x32, 0x33, 0x34, 0x35, 0x36, 0x37, 0x38, 0x39] = 0xCBF43926#32 := by decide +kernel

end Sys2Proof.Tests.Slice0
end

section
/-! What an act of the block leaves alone: the build parameters, the commands that wait, and the canonical form of memory. One relation
carries all three, with one rule per operation of the state. -/

namespace Sys2Proof.Machine

/-- `t` comes from `s` by acts of the block: parameters and waiting commands are those of `s`, and memory is canonical where that of `s` is. -/
structure Follows (s t : State) : Prop where
  params : t.params = s.params
  pending : t.pending = s.pending
  canon : MemoryCanonical s → MemoryCanonical t

variable {s t u : State}

namespace Follows

protected theorem refl (s : State) : Follows s s := ⟨rfl, rfl, id⟩

protected theorem trans (h : Follows s t) (k : Follows t u) : Follows s u :=
  ⟨k.params.trans h.params, k.pending.trans h.pending, k.canon ∘ h.canon⟩

protected theorem mem (h : Follows s t) (k : MemStep t u) : Follows s u := h.trans ⟨k.params, k.pending, k.canon⟩

protected theorem ref (h : Follows s t) (k : RefStep t u) : Follows s u := h.trans ⟨k.params, k.pending, k.canon⟩

/-- A rewrite of the device alone. -/
protected theorem upd {g : Dev → Dev} (h : Follows s t) : Follows s (t.upd g) := ⟨h.params, h.pending, h.canon⟩

protected theorem withDev {d : Dev} (h : Follows s t) : Follows s (t.withDev d) := ⟨h.params, h.pending, h.canon⟩

/-- A rewrite of memory and the device that leaves stack and host bytes canonical. -/
protected theorem setMem (m : MemSys) (d : Dev) (h : Follows s t) (hs : Memory.wf t.mem.stack = true → Memory.wf m.stack = true)
    (hh : Memory.wf t.mem.host = true → Memory.wf m.host = true) : Follows s { t with mem := m, dev := d } :=
  ⟨h.params, h.pending, fun c => ⟨hs (h.canon c).1, hh (h.canon c).2⟩⟩

protected theorem ite {c : Prop} [Decidable c] (h : Follows s t) (k : Follows s u) : Follows s (if c then t else u) := by
  split
  · exact h
  · exact k

protected theorem foldl {α : Type} {f : State → α → State} (h : Follows s t) (hf : ∀ u a, Follows s u → Follows s (f u a)) (l : List α) :
    Follows s (l.foldl f t) :=
  List.foldlRecOn l f h (fun u hu a _ => hf u a hu)

/-- A fold that counts beside the state. -/
protected theorem foldl_fst {α β : Type} {f : State × β → α → State × β} {x : State × β} (h : Follows s x.1)
    (hf : ∀ x a, Follows s x.1 → Follows s (f x a).1) (l : List α) : Follows s (l.foldl f x).1 :=
  List.foldlRecOn (motive := fun x => Follows s x.1) l f h (fun x hx a _ => hf x a hx)

/-- The state of an answer that a match has taken apart. -/
protected theorem fst {α : Type} {x : State × α} {a : α} (h : Follows s x.1) (e : x = (u, a)) : Follows s u := by
  subst e; exact h

end Follows

/-! ## Memory, objects and the records an access leaves -/

protected theorem Follows.putGran {key addr en : Nat} {data : List Byte} (h : Follows s t) : Follows s (putGran t key addr data en) :=
  h.mem (putGran_step _ _ _ _ _)

protected theorem Follows.writePiece {func ctx : Nat} {g : Target} {bs : List Byte} {be : List Bool} (h : Follows s t) :
    Follows s (writePiece t func ctx g bs be) := h.mem (writePiece_step _ _ _ _ _ _)

protected theorem Follows.hostSet {a : Nat} {v : Byte} (h : Follows s t) : Follows s (hostSet t a v) := by
  unfold Machine.hostSet
  split
  · exact h.withDev
  · exact h.setMem _ _ id (Memory.wf_set v)

protected theorem Follows.dWrite {panel ctx va : Nat} {bs : List Byte} (h : Follows s t) (e : dWrite t panel ctx va bs = .ok u) : Follows s u :=
  h.mem (dWrite_step e)

protected theorem Follows.dropRef {r : ObjRef} (h : Follows s t) : Follows s (dropRef t r) := h.ref (dropRef_step _ _)

protected theorem Follows.dropRefs {rs : List ObjRef} (h : Follows s t) : Follows s (dropRefs t rs) := h.ref (dropRefs_step _ _)

protected theorem Follows.releaseObj {r : ObjRef} (h : Follows s t) : Follows s (releaseObj t r) := h.ref (releaseObj_step _ _)

protected theorem Follows.touchAll {panel ctx : Nat} {k : Acc3} (l : List (Nat × Nat)) (h : Follows s t) : Follows s (touchAll panel ctx k l t) := by
  induction l generalizing t with
  | nil => exact h
  | cons pc rest ih =>
    unfold Machine.touchAll
    dsimp only
    split
    · exact ih h.withDev
    · exact h.withDev

protected theorem Follows.dTouch {panel ctx va n : Nat} {k : Acc3} (h : Follows s t) : Follows s (dTouch t panel ctx va n k) := h.touchAll _

protected theorem Follows.packetTouch {panel ctx va : Nat} (h : Follows s t) : Follows s (packetTouch t panel ctx va) := by
  unfold Machine.packetTouch
  dsimp only
  split
  · exact h.dTouch
  · exact h.dTouch.dTouch

protected theorem Follows.slotTouch {q : QRef} {x : Queue} {i : BitVec 32} (h : Follows s t) : Follows s (slotTouch t q x i) := by
  cases q with
  | ctl _ => exact h
  | work _ => exact h.packetTouch

protected theorem Follows.nextTouch {q : QRef} (h : Follows s t) : Follows s (nextTouch t q) := by
  unfold Machine.nextTouch
  dsimp only
  split
  · exact h.packetTouch
  · exact h.slotTouch

protected theorem Follows.scanTouch {panel ctx : Nat} (fuel : Nat) {depth va : Nat} (h : Follows s t) :
    Follows s (scanTouch panel ctx depth va fuel t) := by
  induction fuel generalizing t depth va with
  | zero => exact h
  | succ fuel ih =>
    unfold Machine.scanTouch
    dsimp only
    split
    · exact h.dTouch
    · exact .ite h.dTouch (ih h.dTouch)

protected theorem Follows.loopTouch {q : QRef} (h : Follows s t) : Follows s (loopTouch t q) := by
  unfold Machine.loopTouch
  dsimp only
  split
  · exact h
  · exact h.scanTouch _

/-! ## The steps of R254 -/

/-- Every ending of step 10 leaves a state that comes from `s`. -/
inductive TenFollows (s : State) : Ten → Prop
  | wait {t : State} (h : Follows s t) : TenFollows s (.wait t)
  | done {t : State} {f : Pkt → Pkt} (h : Follows s t) : TenFollows s (.done t f)
  | later {t : State} (h : Follows s t) : TenFollows s (.later t)
  | refuse {t : State} {st : Status} {det : Word} (h : Follows s t) : TenFollows s (.refuse t st det)
  | fail {t : State} {st : Status} (h : Follows s t) : TenFollows s (.fail t st)
  | mcast {t : State} (h : Follows s t) : TenFollows s (.mcast t)

/-- An opcode's step 10 ends in a state that comes from the one it began in. -/
def OpSem.Keeps (sem : OpSem) : Prop := ∀ s p, TenFollows s (sem.exec s p)

/-- Steps 1 to 9 end in a state that comes from `s`. -/
inductive ReachFollows (s : State) : Reach → Prop
  | out {t : State} (h : Follows s t) : ReachFollows s (.out t)
  | ten {t : State} {p : Pkt} (h : Follows s t) : ReachFollows s (.ten t p)

section
variable {q : QRef} {p : Pkt} {sem : OpSem}

protected theorem Follows.refusePkt {uid : Nat} {st : Status} {det : Word} (h : Follows s t) : Follows s (refusePkt t q uid st det) := by
  unfold Machine.refusePkt
  dsimp only
  split
  · exact h.dropRef.upd
  · exact h.upd

protected theorem Follows.finish {uid : Nat} {f : Pkt → Pkt} (h : Follows s t) : Follows s (finish t q uid f) := h.upd

protected theorem Follows.dropWait {uid : Nat} {r : Option ObjRef} (h : Follows s t) : Follows s (dropWait t q uid r) := by
  cases r with
  | none => exact h
  | some r =>
    unfold Machine.dropWait
    exact h.dropRef.upd

protected theorem Follows.dropDone (h : Follows s t) : Follows s (dropDone t q) := by
  unfold Machine.dropDone
  exact .ite h h.upd.dropRefs

theorem steps5_follows {waited : Option ObjRef} (h : Follows s t) : ReachFollows s (steps5 sem t q p waited) := by
  unfold steps5
  extract_lets p1 t1
  have h1 : Follows s t1 := h.upd
  split
  · exact .out h1.refusePkt
  split
  · exact .out h1.refusePkt
  split
  · exact .out h1.refusePkt
  split
  · exact .out h1.refusePkt
  split
  · exact .out h1.refusePkt
  split
  · exact .out h1.refusePkt
  extract_lets w
  split
  · exact .out h1.refusePkt
  · refine .ten ?_
    split
    · exact h1.upd.dropRef
    · exact h1.upd

theorem steps2_follows (h : Follows s t) : ReachFollows s (steps2 sem t q p) := by
  unfold steps2
  dsimp only
  split
  · exact .ten h
  split
  · exact .out h
  split
  · exact .out h.refusePkt
  · exact .out h.withDev
  split
  · have hd : ∀ d c, Follows s (Machine.dropWait (if c = true then loopTouch (t.withDev d) q else t.withDev d) q p.uid
        ((d.pkt q p.uid).bind (·.waitHold))) := fun d c => (Follows.ite h.withDev.loopTouch h.withDev).dropWait
    split
    · exact .out (hd _ _).upd.refusePkt
    · exact .out (hd _ _).upd
  · exact steps5_follows h.withDev

theorem reach_follows (h : Follows s t) : ReachFollows s (reach sem q t) := by
  unfold reach
  dsimp only
  split
  · exact .out h
  · split
    · exact steps2_follows h
    · exact .out h
  · exact .out h.nextTouch.upd
  · exact .out h.nextTouch.withDev.refusePkt
  · split
    · exact .out h
    split
    · exact .out h.nextTouch.withDev.refusePkt
    · exact steps2_follows h.nextTouch.withDev

protected theorem Follows.runTen (hk : sem.Keeps) (h : Follows s t) : Follows s (runTen sem t q p) := by
  have hx := hk t p
  unfold Machine.runTen
  generalize sem.exec t p = x at hx
  cases hx with
  | wait k => exact (h.trans k).upd
  | done k => exact (h.trans k).finish
  | later k => exact (h.trans k).upd
  | refuse k => exact (h.trans k).dropRefs.refusePkt
  | fail k => exact (h.trans k).finish
  | mcast k => exact (h.trans k).upd

/-- R254: a packet row whose step 10 keeps parameters, queue and canonical memory keeps them. -/
protected theorem Follows.acceptRow (hk : sem.Keeps) (h : Follows s t) : Follows s (acceptRow sem q t) := by
  have hr : ReachFollows s (reach sem q t) := reach_follows h
  unfold Machine.acceptRow acceptStep
  generalize reach sem q t = x at hr
  cases hr with
  | out k => exact k.dropDone
  | ten k => exact (k.runTen hk).dropDone

end

end Sys2Proof.Machine
end

section
/-! Step 10 of each opcode that dispatch executes: it ends in a state that comes from the one it began in. -/

namespace Sys2Proof.Machine

variable {s t u : State} {p : Pkt}

/-! ## Contexts, gangs and queues -/

theorem ctxCreateTen_follows (s : State) (p : Pkt) : TenFollows s (ctxCreateTen s p) := by
  unfold ctxCreateTen
  split
  · exact .fail (.refl s)
  · exact .done (Follows.refl s).upd

theorem ctxConfigTen_follows (s : State) (p : Pkt) : TenFollows s (ctxConfigTen s p) := by
  have h := Follows.refl s
  unfold ctxConfigTen
  extract_lets b c s1 s2 s3
  have h1 : Follows s s1 := .ite h.upd h
  have h2 : Follows s s2 := .ite h1.upd h1
  split
  · exact .wait h1
  · exact .done (.ite h2.upd h2)

protected theorem Follows.destroyCtx {c : Nat} (h : Follows s t) : Follows s (destroyCtx t c) := by
  have hr : ∀ u r, Follows s u → Follows s (Machine.releaseObj u r) := fun _ _ k => k.releaseObj
  unfold Machine.destroyCtx
  exact (((h.foldl hr _).foldl hr _).foldl hr _).upd

theorem gangCreateTen_follows (s : State) (p : Pkt) : TenFollows s (gangCreateTen s p) := by
  have h := Follows.refl s
  unfold gangCreateTen
  dsimp only
  split
  · exact .wait h
  split
  · exact .fail h
  split
  · exact .fail h
  · exact .done h.upd

theorem queueCreateTen_follows (s : State) (p : Pkt) : TenFollows s (queueCreateTen s p) := by
  have h := Follows.refl s
  unfold queueCreateTen
  split
  · exact .wait h
  split
  · exact .fail h
  · exact .done h.upd

protected theorem Follows.disposeRing {q : QRef} {st : Status} {fate : Fate} (n : Nat) (h : Follows s t) :
    Follows s (disposeRing t q st fate n) := by
  induction n generalizing t with
  | zero => exact h
  | succ n ih =>
    unfold Machine.disposeRing
    dsimp only
    split
    · exact h
    · exact ih h.slotTouch.withDev

theorem queueDestroyTen_follows (s : State) (p : Pkt) : TenFollows s (queueDestroyTen s p) := by
  have h := Follows.refl s
  unfold queueDestroyTen
  split
  · exact .done h
  · extract_lets s0 s1
    have h0 : Follows s s0 := h.upd
    have h1 : Follows s s1 := .ite h (h0.disposeRing _).dropDone
    split
    · exact .done h1.upd
    · exact .wait h1

/-! ## Objects and the allocator -/

theorem createTen_follows {typ panel owner : Nat} {pay : Payload} (h : Follows s t) : TenFollows s (createTen t typ panel owner pay) := by
  unfold createTen
  split
  · exact .fail h
  · exact .done h.withDev

theorem objCreateTen_follows (s : State) (p : Pkt) : TenFollows s (objCreateTen s p) := by
  unfold objCreateTen
  dsimp only
  split
  · exact .fail (.refl s)
  · exact .done (Follows.refl s).withDev

theorem tackExportTen_follows (s : State) (p : Pkt) : TenFollows s (tackExportTen s p) := by
  have h := Follows.refl s
  unfold tackExportTen
  dsimp only
  split
  · exact .refuse h
  split
  · exact .done h
  split
  · exact .refuse h
  · exact .done h.upd

theorem tackImportTen_follows (s : State) (p : Pkt) : TenFollows s (tackImportTen s p) := by
  unfold tackImportTen
  dsimp only
  split
  · exact .fail (.refl s)
  · exact .done (Follows.refl s).withDev

theorem heapFault_follows {x : XFault} (h : Follows s t) : TenFollows s (heapFault t p x) := .refuse h.upd

protected theorem Follows.heapStart {base n : Nat} (h : Follows s t) : Follows s (heapStart t p base n) := h.upd.dTouch.dTouch

theorem heapSetupTen_follows (s : State) (p : Pkt) : TenFollows s (heapSetupTen s p) := by
  have h := Follows.refl s
  unfold heapSetupTen
  dsimp only
  split
  · exact .fail h
  split
  · exact heapFault_follows h.heapStart
  · rename_i hw
    exact .done (h.heapStart.dWrite hw).upd

theorem allocTen_follows (s : State) (p : Pkt) : TenFollows s (allocTen s p) := by
  have h := Follows.refl s
  unfold allocTen
  dsimp only
  split
  · exact .fail h
  split
  · exact heapFault_follows h.heapStart
  · exact .refuse h.heapStart
  · exact .fail h.heapStart
  · rename_i ha
    exact .done (h.heapStart.mem (heapAlloc_step ha))

theorem freeTen_follows (s : State) (p : Pkt) : TenFollows s (freeTen s p) := by
  have h := Follows.refl s
  unfold freeTen
  dsimp only
  split
  · exact .refuse h
  split
  · exact .refuse h
  split
  · exact heapFault_follows h.heapStart
  · exact .refuse h.heapStart
  · exact .refuse h.heapStart
  · rename_i hf
    exact .done (h.heapStart.mem (heapFree_step hf))

theorem xlateInvalTen_follows (s : State) (p : Pkt) : TenFollows s (xlateInvalTen s p) := by
  unfold xlateInvalTen
  dsimp only
  split
  · exact .wait (Follows.refl s).upd
  · exact .done (Follows.refl s).upd

protected theorem Follows.queryTouch (h : Follows s t) : Follows s (queryTouch t p) :=
  (h.foldl (fun _ _ k => k.dTouch) _).dTouch

theorem queryTen_follows (s : State) (p : Pkt) : TenFollows s (queryTen s p) := by
  have h := (Follows.refl s).queryTouch (p := p)
  unfold queryTen
  dsimp only
  split
  · exact heapFault_follows h
  · rename_i hw
    exact .done (h.dWrite hw)

/-! ## Patterns, predicates and synchronization -/

theorem fittingTen_follows (s : State) (p : Pkt) : TenFollows s (fittingTen s p) := by
  unfold fittingTen
  split
  · exact .wait (.refl s)
  · exact .mcast (.refl s)

protected theorem Follows.patternTouch {panel ctx : Nat} (n : Nat) {va : Nat} (h : Follows s t) :
    Follows s (patternTouch panel ctx n va t) := by
  induction n generalizing t va with
  | zero => exact h
  | succ n ih =>
    unfold Machine.patternTouch
    split
    · exact h.packetTouch
    · exact ih h.packetTouch

theorem tenFault_follows {x : XFault} (h : Follows s t) : TenFollows s (tenFault t p x) := .refuse h.upd

theorem patternDefineTen_follows (s : State) (p : Pkt) : TenFollows s (patternDefineTen s p) := by
  have h : ∀ {panel n va : Nat}, Follows s (patternTouch panel p.ctx n va s) := (Follows.refl s).patternTouch _
  unfold patternDefineTen
  dsimp only
  split
  · exact tenFault_follows h
  · exact .refuse h
  · exact createTen_follows h

theorem replayTen_follows (s : State) (p : Pkt) : TenFollows s (replayTen s p) := by
  unfold replayTen
  split
  · exact .wait (Follows.refl s).upd
  · exact .done (.refl s)

theorem loopTen_follows (s : State) (p : Pkt) : TenFollows s (loopTen s p) := by
  have h := (Follows.refl s).loopTouch (q := p.q)
  unfold loopTen
  dsimp only
  split
  · exact tenFault_follows h
  · exact .refuse h
  · split
    · exact .done h.upd
    · exact .done h.upd
  · exact .refuse h

theorem endloopTen_follows (s : State) (p : Pkt) : TenFollows s (endloopTen s p) := by
  have h := Follows.refl s
  unfold endloopTen
  split
  · exact .refuse h
  split
  · exact .refuse h
  split
  · exact .done h.withDev
  · exact .done h.upd

theorem predClipTen_follows (s : State) (p : Pkt) : TenFollows s (predClipTen s p) := by
  have h := Follows.refl s
  unfold predClipTen
  dsimp only
  split
  · exact .wait h
  split
  · exact tenFault_follows h.dTouch
  · exact .done h.dTouch

theorem seamTen_follows (s : State) (p : Pkt) : TenFollows s (seamTen s p) := by
  have h := Follows.refl s
  unfold seamTen
  dsimp only
  split
  · split
    · exact .wait h
    · exact .mcast h.upd
  · split
    · exact .mcast h.upd
    · exact .mcast h.upd

theorem tackWaitTen_follows (s : State) (p : Pkt) : TenFollows s (tackWaitTen s p) := by
  have h := Follows.refl s
  unfold tackWaitTen
  dsimp only
  split
  · exact .done h
  split
  · exact .refuse h
  split
  · exact .done h
  · exact .wait h

theorem bobbinSetTen_follows (s : State) (p : Pkt) : TenFollows s (bobbinSetTen s p) := by
  unfold bobbinSetTen
  dsimp only
  split
  · exact .done (Follows.refl s).upd
  · exact .wait (.refl s)

protected theorem Follows.writeDescs {panel ctx va : Nat} (l : List (List Word)) (h : Follows s t) :
    Follows s (writeDescs t panel ctx va l).1 := by
  induction l generalizing t va with
  | nil => exact h
  | cons ws rest ih =>
    unfold Machine.writeDescs
    split
    · exact h.dTouch
    · rename_i hw
      exact ih (h.dTouch.dWrite hw)

theorem descWriteTen_follows (s : State) (p : Pkt) : TenFollows s (descWriteTen s p) := by
  unfold descWriteTen
  dsimp only
  split
  · exact .wait (.refl s)
  split
  · rename_i hw
    exact .done (((Follows.refl s).writeDescs _).fst hw)
  · rename_i hw
    exact tenFault_follows (((Follows.refl s).writeDescs _).fst hw)

/-! ## The opcodes, and those of work queues together -/

/-- Step 10 of a multicast opcode changes nothing. -/
theorem toCores_follows (s : State) (p : Pkt) : TenFollows s (toCores s p) := .mcast (.refl s)

theorem mcTen_follows {f : State → Pkt → Ten} (hf : ∀ s p, TenFollows s (f s p)) (s : State) (p : Pkt) : TenFollows s (mcTen f s p) := by
  unfold mcTen
  split
  · exact .wait (.refl s)
  · exact hf s p

theorem semCtxCreate_keeps : semCtxCreate.Keeps := by
  intro s p
  dsimp only [semCtxCreate]
  exact ctxCreateTen_follows s p

theorem semObjRelease_keeps : semObjRelease.Keeps := fun s _ => .done (Follows.refl s).releaseObj
theorem semTackCreate_keeps : semTackCreate.Keeps := fun s _ => createTen_follows (.refl s)
theorem semBobbinCreate_keeps : semBobbinCreate.Keeps := fun s _ => createTen_follows (.refl s)
theorem semSeamCreate_keeps : semSeamCreate.Keeps := fun s _ => createTen_follows (.refl s)
theorem semPatch_keeps : semPatch.Keeps := fun s _ => .done (Follows.refl s).upd
theorem semPredCmp_keeps : semPredCmp.Keeps := fun s _ => .done (Follows.refl s).upd
theorem semTackSignal_keeps : semTackSignal.Keeps := fun s _ => .done (.refl s)
theorem semTackAdd_keeps : semTackAdd.Keeps := fun s _ => .done (.refl s)

theorem workSems_keep : ∀ sem ∈ workSems, sem.Keeps := by
  have m := toCores_follows
  simp only [workSems, List.forall_mem_append, List.forall_mem_cons, List.not_mem_nil, false_implies, implies_true, and_true]
  exact ⟨⟨⟨m, m, m, m, descWriteTen_follows, m, m, m, m, m, seamTen_follows, tackWaitTen_follows, semTackSignal_keeps, semTackAdd_keeps,
      bobbinSetTen_follows⟩,
    objCreateTen_follows, semObjRelease_keeps, semTackCreate_keeps, tackExportTen_follows, tackImportTen_follows, semBobbinCreate_keeps,
      semSeamCreate_keeps, heapSetupTen_follows, allocTen_follows, freeTen_follows, xlateInvalTen_follows, queryTen_follows⟩,
    patternDefineTen_follows, replayTen_follows, semPatch_keeps, loopTen_follows, endloopTen_follows, semPredCmp_keeps,
      predClipTen_follows, m, fittingTen_follows⟩

/-- WAIT_TACK_RESUME on one queue (R377). -/
protected theorem Follows.resumeQueue {slot : Nat} {q : QRef} (h : Follows s t) : Follows s (resumeQueue slot t q) := by
  unfold Machine.resumeQueue
  split
  · exact h
  split
  · rename_i hm
    exact h.acceptRow (workSems_keep _ (List.mem_of_find?_eq_some hm))
  · exact h

end Sys2Proof.Machine
end

section
/-! What follows acceptance, and what cores do: completion, multicast, the spoiling of written ranges, copies of the front end, streams, the
engines and the fabric. -/

namespace Sys2Proof.Machine

variable {s t u : State} {p : Pkt}

/-! ## Completion, multicast and retirement -/

protected theorem Follows.completePkt {q : QRef} {uid : Nat} (h : Follows s t) : Follows s (completePkt t q uid) := by
  unfold Machine.completePkt
  split
  · exact h
  · exact h.withDev.dropDone

protected theorem Follows.reportCore {q : QRef} {uid idx : Nat} {st : Status} {det : Word} (h : Follows s t) :
    Follows s (reportCore t q uid idx st det) := by
  unfold Machine.reportCore
  dsimp only
  split
  · exact h
  split
  · exact h
  · exact .ite h.upd.completePkt h.upd

protected theorem Follows.deliver {n : Nat} {ri : Nat × Nat} (h : Follows s t) : Follows s (deliver p n t ri) := by
  unfold Machine.deliver
  split
  · exact h
  split
  · exact (Follows.ite h.upd h).reportCore
  · exact .ite h.upd h.upd

protected theorem Follows.multicastPkt (h : Follows s t) : Follows s (multicastPkt t p) := by
  unfold Machine.multicastPkt
  extract_lets ms d1 s1 s2
  have h1 : Follows s s1 := h.withDev.foldl (fun _ _ k => k.deliver) _
  have h2 : Follows s s2 := .ite h1.upd.completePkt h1
  exact h2.dropDone

/-- The bytes of a granule set one by one in host memory (R235). -/
protected theorem Follows.hostSets {en : Nat} {data : List Byte} {a : Nat} (h : Follows s t) (l : List Nat) :
    Follows s (l.foldl (fun s i => if en.testBit i then hostSet s (a + i) (byteAt data i) else s) t) :=
  h.foldl (fun _ _ k => .ite k.hostSet k) l

protected theorem Follows.freeGran {ctx : Nat} {e : Nat × Nat × Nat} (h : Follows s t) : Follows s (freeGran t ctx e) := by
  unfold Machine.freeGran
  dsimp only
  split
  · exact h
  · exact h.upd.hostSets _
  split
  · exact h.upd.hostSets _
  · exact h.upd.putGran

protected theorem Follows.spoil (h : Follows s t) : Follows s (spoil t p) := .ite (h.foldl (fun _ _ k => k.freeGran) _) h

/-! ## The removal of a core, and errors its arrays report -/

protected theorem Follows.spoilCmd {m : Cmd} {st : Status} (h : Follows s t) : Follows s (spoilCmd t m st) := by
  unfold Machine.spoilCmd
  dsimp only
  split
  · exact h.upd.spoil
  · exact h.upd

protected theorem Follows.reportCmd {m : Cmd} {idx : Nat} {st : Status} {det : Word} (h : Follows s t) : Follows s (reportCmd t m idx st det) :=
  h.spoilCmd.reportCore

protected theorem Follows.reportAll {idx : Nat} {c : Core} {st : Status} (h : Follows s t) : Follows s (reportAll t idx c st) := by
  unfold Machine.reportAll
  extract_lets s1
  have h1 : Follows s s1 := h.foldl (fun _ _ k => k.reportCmd) _
  split
  · exact h1.reportCore
  · exact h1

protected theorem Follows.removeCoreFor {k : Nat} {unit : Option (Cmd × Nat × Nat)} (h : Follows s t) : Follows s (removeCoreFor t k unit) := by
  unfold Machine.removeCoreFor
  split
  · exact h
  · exact h.withDev.reportAll.upd

protected theorem Follows.removeCore {k : Nat} (h : Follows s t) : Follows s (removeCore t k) := h.removeCoreFor

/-- What a core does after a read of its arrays, or its removal when the read could not be corrected. -/
protected theorem Follows.onEcc {k : Nat} {e : Ecc} {go : State → State} (h : Follows s t) (hgo : ∀ u, Follows s u → Follows s (go u)) :
    Follows s (onEcc t k e go) := by
  cases e with
  | ok => exact hgo _ h
  | accFixed row col => exact hgo _ h.upd
  | memFixed => exact hgo _ h.upd
  | double => exact h.removeCore
  | buffer => exact h.removeCore

protected theorem Follows.multicastQueue {q : QRef} {parity : Option Nat} (h : Follows s t) : Follows s (multicastQueue q parity t) := by
  unfold Machine.multicastQueue
  split
  · exact h
  split
  · exact h
  dsimp only
  split
  · exact h.multicastPkt.removeCore
  · exact h.multicastPkt

/-! ## The copies of the front end -/

protected theorem Follows.frontStep {k code va n : Nat} {m : Cmd} {kind : Acc3} (h : Follows s t) : Follows s (frontStep t k m code va n kind).1 := by
  unfold Machine.frontStep
  dsimp only
  split
  · exact .ite h h.upd
  split
  · dsimp only
    exact h.upd
  · exact h

protected theorem Follows.blockRead {k : Nat} (h : Follows s t) : Follows s (blockRead t k) := by
  unfold Machine.blockRead
  dsimp only
  split
  · exact h
  split
  · rename_i hf
    exact h.frontStep.fst hf
  · rename_i hf
    exact (h.frontStep.fst hf).upd

protected theorem Follows.bundleCopy {k : Nat} (h : Follows s t) : Follows s (bundleCopy t k) := by
  unfold Machine.bundleCopy
  dsimp only
  split
  · exact h
  split
  · rename_i hf
    exact h.frontStep.fst hf
  · rename_i hf
    exact (h.frontStep.fst hf).withDev

protected theorem Follows.swatchCopy {n k : Nat} (h : Follows s t) : Follows s (swatchCopy t n k) := by
  unfold Machine.swatchCopy
  dsimp only
  split
  · exact h
  split
  · rename_i hf
    exact h.frontStep.fst hf
  · rename_i hf
    exact (h.frontStep.fst hf).upd

protected theorem Follows.bobbinTake {k : Nat} (h : Follows s t) : Follows s (bobbinTake t k) := by
  unfold Machine.bobbinTake
  dsimp only
  split
  · exact h
  split
  · split
    · exact h.withDev
    · exact h.withDev
  · exact h

/-! ## Streams -/

protected theorem Follows.issueNext {k own uid n : Nat} {two : Bool} (h : Follows s t) : Follows s (issueNext t k own uid n two) := by
  unfold Machine.issueNext
  split
  · exact h
  split
  · exact h
  dsimp only
  split
  · exact h.upd
  split
  · exact h.withDev
  · exact h.withDev
  · exact h.withDev

protected theorem Follows.issueRegion {k own n : Nat} {m : Cmd} {two : Bool} (h : Follows s t) : Follows s (issueRegion t k own m n two) := by
  unfold Machine.issueRegion
  dsimp only
  split
  · exact h
  split
  · exact h
  split
  · exact h.upd
  split
  · exact h.issueNext
  split
  · exact h.upd
  split
  · exact h
  · exact h.withDev.issueNext

protected theorem Follows.streamIssue {k own : Nat} {m : Cmd} (h : Follows s t) : Follows s (streamIssue t k own m) := by
  unfold Machine.streamIssue
  dsimp only
  split
  · exact h.withDev
  · exact h.withDev

protected theorem Follows.granuleIssue {run k : Nat} {two : Bool} (h : Follows s t) : Follows s (granuleIssue t run two k) := by
  unfold Machine.granuleIssue
  dsimp only
  split
  · exact h
  split
  · split
    · exact .ite h.issueRegion h
    · exact h
  · split
    · exact .ite h.streamIssue h
    · exact h

protected theorem Follows.unitSend {k own n : Nat} {m : Cmd} {ecc : Ecc} (h : Follows s t) : Follows s (unitSend t k own m n ecc) := by
  unfold Machine.unitSend
  dsimp only
  split
  · exact h
  split
  · exact h.upd
  split
  · split
    · exact h
    split
    · exact h.upd
    split
    · split
      · exact h.withDev
      · exact h.withDev.removeCoreFor
    · refine h.onEcc fun u hu => ?_
      split
      · exact hu.withDev
      · exact hu.withDev
  · exact h

protected theorem Follows.streamWrite {k own : Nat} (h : Follows s t) : Follows s (streamWrite t k own) := by
  unfold Machine.streamWrite
  dsimp only
  split
  · split
    · exact h
    split
    · exact h.withDev
    · exact h.withDev
  · split
    · exact h
    split
    · exact h
    split
    · exact h.withDev
    · exact h.withDev

protected theorem Follows.writeUnitSend {run k : Nat} {ecc : Ecc} (h : Follows s t) : Follows s (writeUnitSend t run ecc k) := by
  unfold Machine.writeUnitSend
  dsimp only
  split
  · exact h
  split
  · split
    · exact .ite h.unitSend h
    · exact h
  · exact h.streamWrite

protected theorem Follows.dataArrival {req k : Nat} (h : Follows s t) : Follows s (dataArrival t req k) := by
  unfold Machine.dataArrival
  split
  · exact h
  · exact h.upd

protected theorem Follows.freeReport {run issuer k : Nat} (h : Follows s t) : Follows s (freeReport t run issuer k) := by
  unfold Machine.freeReport
  dsimp only
  split
  · refine .ite h.upd ?_
    split
    · exact .ite h h.upd
    · exact h
  · exact h

protected theorem Follows.stallFire {k : Nat} (h : Follows s t) : Follows s (stallFire t k) := by
  unfold Machine.stallFire
  dsimp only
  split
  · exact h
  split
  · exact h
  · exact h.upd

protected theorem Follows.abortFire {source k : Nat} (h : Follows s t) : Follows s (abortFire t source k) := by
  unfold Machine.abortFire
  dsimp only
  split
  · exact h.upd
  · exact h

protected theorem Follows.leaveCore {k own : Nat} {m : Cmd} (h : Follows s t) : Follows s (leaveCore t k own m) := h.upd.reportCmd

protected theorem Follows.coreComplete {uid k : Nat} (h : Follows s t) : Follows s (coreComplete t uid k) := by
  unfold Machine.coreComplete
  dsimp only
  split
  · exact h
  split
  · exact h
  split
  · exact h.leaveCore
  split
  · exact h
  split
  · exact h.withDev
  · exact h.withDev

/-! ## The engines and the fabric -/

protected theorem Follows.sideRead {side : Side} {ecc : Ecc} {k : Nat} (h : Follows s t) : Follows s (sideRead t side ecc k) := by
  unfold Machine.sideRead
  dsimp only
  split
  · exact h
  · exact .ite h (h.onEcc fun _ hu => hu.upd)

protected theorem Follows.accLoadNext {ecc : Ecc} {k : Nat} (h : Follows s t) : Follows s (accLoadNext t ecc k) := by
  unfold Machine.accLoadNext
  split
  · exact h
  · exact h.onEcc fun _ hu => hu.upd

protected theorem Follows.beatStep {ecc : Ecc} {k : Nat} (h : Follows s t) : Follows s (beatStep t ecc k) := by
  unfold Machine.beatStep
  extract_lets c run
  have hrun : ∀ c f, Follows s (run c f) := by
    intro c f
    unfold run
    split
    · exact h
    · exact h.onEcc fun _ hu => hu.upd
  split
  · exact hrun _ _
  split
  · exact h
  · exact h.upd
  · exact hrun _ _

protected theorem Follows.drainRow {ecc : Ecc} {k : Nat} (h : Follows s t) : Follows s (drainRow t ecc k) := by
  unfold Machine.drainRow
  dsimp only
  split
  · exact h
  split
  · exact h
  · exact h.onEcc fun _ hu => hu.upd

protected theorem Follows.fabricTick {rets : List ExtRet} {ecc : Ecc} {k : Nat} (h : Follows s t) : Follows s (fabricTick t rets ecc k) := by
  unfold Machine.fabricTick
  dsimp only
  split
  · exact h
  split
  · exact h
  split
  · exact h
  · exact h.onEcc fun _ hu => hu.upd

protected theorem Follows.kernelEnd {k : Nat} (h : Follows s t) : Follows s (kernelEnd t k) := by
  unfold Machine.kernelEnd
  dsimp only
  split
  · exact h
  split
  · exact h
  split
  · exact h
  · exact h.upd

protected theorem Follows.fabLoad {k : Nat} (h : Follows s t) : Follows s (fabLoad t k) := by
  unfold Machine.fabLoad
  dsimp only
  split
  · exact h
  split
  · exact h.upd
  split
  · rename_i hf
    exact (Follows.ite h h.upd).frontStep.fst hf
  · rename_i hf
    exact ((Follows.ite h h.upd).frontStep.fst hf).upd

end Sys2Proof.Machine
end

section
/-! Seams, resets of functions, partition clears, device resets, firmware, spares and links. -/

namespace Sys2Proof.Machine

variable {s t u : State} {p : Pkt}

/-! ## Seams -/

protected theorem Follows.seamStart {k : Nat} (h : Follows s t) : Follows s (seamStart t k) := by
  unfold Machine.seamStart
  dsimp only
  split
  · exact h
  · exact .ite h.withDev h.withDev

protected theorem Follows.seamRelease {slot : Nat} (h : Follows s t) : Follows s (seamRelease slot t) := by
  unfold Machine.seamRelease
  dsimp only
  split
  · exact h
  · exact .ite h h.upd

protected theorem Follows.reportLeft {idx k : Nat} (h : Follows s t) : Follows s (reportLeft t idx k) := h.reportAll

protected theorem Follows.applyCovered {covered : List Nat} (h : Follows s t) : Follows s (applyCovered t covered) := by
  refine Follows.upd (h.foldl (fun u c hu => ?_) _)
  split
  · exact hu.reportLeft
  · exact hu

protected theorem Follows.completeJoined {uids : List Nat} {q : QRef} (h : Follows s t) : Follows s (completeJoined uids t q) :=
  h.foldl (fun _ _ k => k.upd.completePkt) _

protected theorem Follows.endEpisode {slot : Nat} {e : Episode} (h : Follows s t) : Follows s (endEpisode t slot e) := by
  unfold Machine.endEpisode
  exact (h.upd.foldl (fun _ _ k => k.completeJoined) _).upd

protected theorem Follows.partitionEpisode {slot : Nat} (h : Follows s t) : Follows s (partitionEpisode slot t) := by
  unfold Machine.partitionEpisode
  split
  · exact h
  · exact .ite h h.applyCovered.endEpisode

/-! ## Resets of functions -/

protected theorem Follows.discardQueue {q : QRef} (h : Follows s t) : Follows s (discardQueue t q).1 := h.upd.dropRefs

protected theorem Follows.beginFn {x : State × Nat × Nat} {f : Nat} (h : Follows s x.1) : Follows s (beginFn x f).1 := by
  obtain ⟨t, disc, ab⟩ := x
  unfold Machine.beginFn
  dsimp -zeta only
  extract_lets s1 qs m s3
  have h1 : Follows s s1 := h.upd
  change Follows s s3
  refine .upd (.foldl_fst (x := (s1, disc)) h1 (fun a q k => ?_) qs)
  exact k.discardQueue

protected theorem Follows.abortQueue {q : QRef} (h : Follows s t) : Follows s (abortQueue t q) := h.upd.dropRefs

protected theorem Follows.spoilFunc {f : Nat} (h : Follows s t) : Follows s (spoilFunc t f) := h.foldl (fun _ _ k => k.spoilCmd) _

protected theorem Follows.breakTack {r : ObjRef} (h : Follows s t) : Follows s (breakTack t r) := h.upd.releaseObj

protected theorem Follows.finishFn {x : State × Nat × Nat} {f : Nat} (h : Follows s x.1) : Follows s (finishFn x f).1 := by
  obtain ⟨t, broken, waiters⟩ := x
  unfold Machine.finishFn
  dsimp -zeta only
  extract_lets qs s1 ts n s2 rs s3 s4 s5
  have h1 : Follows s s1 := h.spoilFunc.upd.foldl (fun _ _ k => k.abortQueue) _
  have h2 : Follows s s2 := h1.foldl (fun _ _ k => k.breakTack) _
  have h3 : Follows s s3 := h2.foldl (fun _ _ k => k.upd.releaseObj) _
  have h4 : Follows s s4 := h3.foldl (fun _ _ k => k.destroyCtx) _
  change Follows s s5
  exact h4.upd

protected theorem Follows.finishReset {r : FReset} (h : Follows s t) : Follows s (finishReset t r) :=
  (Follows.foldl_fst (x := (t, 0, 0)) h (fun _ _ k => k.finishFn) _).upd.foldl (fun _ _ k => k.completePkt) _

protected theorem Follows.advanceResets (h : Follows s t) : Follows s (advanceResets t) :=
  h.foldl (fun _ _ k => .ite k k.finishReset) _

protected theorem Follows.startReset {f : Nat} {bridge : Bool} {acks pkts : List Nat} (h : Follows s t) :
    Follows s (startReset t f bridge acks pkts) := by
  unfold Machine.startReset
  split
  · exact h.upd
  · exact (Follows.foldl_fst (x := (t, 0, 0)) h (fun _ _ k => k.beginFn) _).upd.advanceResets

theorem funcResetTen_follows (s : State) (p : Pkt) : TenFollows s (funcResetTen s p) := .later (Follows.refl s).startReset

protected theorem Follows.hostAbandon {tag : Nat} (h : Follows s t) : Follows s (hostAbandon t tag) := by
  unfold Machine.hostAbandon
  split
  · exact h
  · exact h.upd.advanceResets

/-! ## Partition clears -/

protected theorem Follows.endCovered {e : Nat × Episode} (h : Follows s t) : Follows s (endCovered t e) := h.upd.endEpisode

protected theorem Follows.beginClear {panel part uid : Nat} (h : Follows s t) : Follows s (beginClear t panel part uid) :=
  h.withDev.foldl (fun _ _ k => k.endCovered) _

theorem partClearTen_follows (s : State) (p : Pkt) : TenFollows s (partClearTen s p) := by
  unfold partClearTen
  dsimp only
  split
  · exact .wait (.refl s)
  · exact .later (Follows.refl s).beginClear

protected theorem Follows.endClear {k : Nat} (h : Follows s t) : Follows s (endClear t k) := by
  unfold Machine.endClear
  extract_lets c own s1 s2
  have h1 : Follows s s1 := h.foldl (fun _ _ k => k.reportCmd) _
  have h2 : Follows s s2 := by
    unfold s2
    split
    · exact h1.reportCore
    · exact h1
  exact h2.upd

protected theorem Follows.clearDone {panel part : Nat} (h : Follows s t) : Follows s (clearDone t panel part) := by
  unfold Machine.clearDone
  dsimp only
  split
  · exact h
  · exact .ite h (h.foldl (fun _ _ k => k.endClear) _).upd.completePkt

/-! ## Device resets -/

/-- The writes that the bridge was handed land at a reset (R450): bytes of host memory alone. -/
protected theorem Follows.landWrites (h : Follows s t) : Follows s (landWrites t) :=
  h.foldl (fun u r k => .ite (k.setMem { u.mem with host := Memory.writeEn r.addr r.data r.be u.mem.host } u.dev id
    (Memory.wf_writeEn _ _ _)) k) _

protected theorem Follows.deviceReset {cause hold : Nat} (h : Follows s t) : Follows s (deviceReset t cause hold) := by
  unfold Machine.deviceReset
  split
  · exact .ite h.upd h
  · exact h.landWrites.upd

protected theorem Follows.pwrokChange {panel : Nat} {level : Bool} (h : Follows s t) : Follows s (pwrokChange t panel level) :=
  .ite h (.ite h.upd h.deviceReset.upd)

protected theorem Follows.rstNChange {panel : Nat} {level : Bool} (h : Follows s t) : Follows s (rstNChange t panel level) :=
  .ite h (Follows.ite h h.deviceReset).upd

protected theorem Follows.holdInChange {panel code : Nat} (h : Follows s t) : Follows s (holdInChange t panel code) :=
  .ite h (Follows.ite h h.deviceReset).upd

protected theorem Follows.monitorFail {panel code : Nat} (h : Follows s t) : Follows s (monitorFail t panel code) :=
  .ite h h.deviceReset.upd

protected theorem Follows.rootclkWindow {panel edges : Nat} (h : Follows s t) : Follows s (rootclkWindow t panel edges) :=
  .ite h.monitorFail (.ite h h.upd)

/-! ## Firmware and the management controller -/

protected theorem Follows.mcEnd {f uid : Nat} {st : Status} {v : Word} (h : Follows s t) : Follows s (mcEnd t f uid st v) := h.upd.completePkt

protected theorem Follows.failRefetch {k : Nat} (h : Follows s t) : Follows s (failRefetch t k) := .ite h.removeCore h.upd

protected theorem Follows.fwSecond {uid : Nat} {ok : Bool} {img : List Byte} (h : Follows s t) : Follows s (fwSecond t uid ok img) :=
  .ite h.upd.upd.mcEnd h.upd.mcEnd

protected theorem Follows.fwVerified {r : McRead} {img : List Byte} (h : Follows s t) : Follows s (fwVerified t r img) := by
  unfold Machine.fwVerified
  dsimp only
  split
  · exact h.upd
  · exact .ite h.upd h.upd.upd.mcEnd
  · exact .ite h.mcEnd (.ite h.mcEnd h.upd)

protected theorem Follows.fwRead {r : McRead} (h : Follows s t) : Follows s (fwRead t r) := by
  unfold Machine.fwRead
  split
  · exact h.fwSecond
  · exact .ite h.fwVerified h.mcEnd

protected theorem Follows.fwError {r : McRead} (h : Follows s t) : Follows s (fwError t r) := by
  unfold Machine.fwError
  split
  · exact h.fwSecond
  · exact h.mcEnd

theorem fwLoadTen_follows (s : State) (p : Pkt) : TenFollows s (fwLoadTen s p) := by
  unfold fwLoadTen
  dsimp only
  split
  · exact .fail (.refl s)
  · exact .later (Follows.refl s).upd

protected theorem Follows.endSingle {uid k : Nat} {ok : Bool} (h : Follows s t) : Follows s (endSingle t uid k ok) :=
  (Follows.ite h.upd h.upd.upd.failRefetch).mcEnd.upd

protected theorem Follows.pageFetch {k page : Nat} {got : List Byte} (h : Follows s t) : Follows s (pageFetch t k page got) := by
  unfold Machine.pageFetch
  dsimp only
  split
  · exact h
  split
  · exact .ite h (.ite h.upd.endSingle (.ite h.upd.endSingle h.upd))
  · exact .ite h h.upd

protected theorem Follows.quiesceRefetch {failed : List Nat} (h : Follows s t) : Follows s (quiesceRefetch t failed) := by
  unfold Machine.quiesceRefetch
  split
  · exact h
  · exact .ite h (h.upd.foldl (fun _ _ k => k.failRefetch) _).mcEnd.upd

protected theorem Follows.quiesceTimeout (h : Follows s t) : Follows s (quiesceTimeout t) := by
  unfold Machine.quiesceTimeout
  split
  · exact h
  · exact .ite h h.upd.mcEnd.upd

protected theorem Follows.spdmRead {r : McRead} {dst cap : Nat} (h : Follows s t) : Follows s (spdmRead t r dst cap) :=
  .ite h.upd.mcEnd h.upd.upd.mcEnd

protected theorem Follows.mcAnswer {uid : Nat} {err : Bool} {data : List Byte} (h : Follows s t) : Follows s (mcAnswer t uid err data) := by
  unfold Machine.mcAnswer
  dsimp only
  split
  · exact h
  split
  · exact h
  split
  · split
    · exact h.upd.mcEnd
    · exact h.upd.fwError
  split
  · split
    · exact h.upd.spdmRead
    · exact h.upd.fwRead
  · exact h.upd

/-- R468: the wipe of stack memory at bring-up. -/
protected theorem Follows.stackWipe (h : Follows s t) : Follows s (stackWipe t) :=
  .ite h (h.setMem _ _ (Memory.wf_filter _) id)

/-! ## Spares and links -/

theorem stage_follows (s : State) (c : Change) : TenFollows s (stage s c) := by
  unfold stage
  split
  · exact .fail (.refl s)
  · exact .done (Follows.refl s).upd

theorem retireCore_follows (s : State) (p : Pkt) : TenFollows s (retireCore s p) := by
  unfold retireCore
  dsimp only
  split
  · exact .fail (.refl s)
  split
  · exact .done (.refl s)
  · exact stage_follows _ _

theorem retireLineOf_follows (s : State) (p : Pkt) (row : Bool) : TenFollows s (retireLineOf s p row) := by
  have h := Follows.refl s
  unfold retireLineOf
  dsimp only
  split
  · exact .fail h
  split
  · exact .fail h
  split
  · exact .done h
  split
  · exact .fail h
  · exact stage_follows _ _

theorem retireRange_follows (s : State) (p : Pkt) : TenFollows s (retireRange s p) := by
  have h := Follows.refl s
  unfold retireRange
  extract_lets v c key a q go
  have hgo : ∀ x, TenFollows s (go x) := by
    intro x
    unfold go
    split
    · exact .fail h
    · exact .later h.upd
  split
  · exact .fail h
  split
  · exact hgo _
  split
  · exact .done h
  · exact hgo _

theorem linkTen_follows (s : State) (x : Dev × Bool) : TenFollows s (linkTen s x) := by
  unfold linkTen
  split
  · exact .later (Follows.refl s).withDev
  · exact .done (Follows.refl s).withDev

theorem retireLink_follows (s : State) (p : Pkt) (isLane : Bool) : TenFollows s (retireLink s p isLane) := by
  have h := Follows.refl s
  unfold retireLink
  dsimp only
  split
  · exact .fail h
  split
  · exact .done h
  split
  · exact .fail h
  split
  · split
    · exact .done h
    · exact .wait h
  · exact linkTen_follows _ _

theorem retireTen_follows (s : State) (p : Pkt) : TenFollows s (retireTen s p) := by
  unfold retireTen
  dsimp only
  split
  · exact .fail (.refl s)
  split
  · exact retireCore_follows _ _
  · exact retireLineOf_follows _ _ _
  · exact retireLineOf_follows _ _ _
  · exact retireRange_follows _ _
  · exact retireLink_follows _ _ _
  · exact retireLink_follows _ _ _

theorem insertTen_follows (s : State) (p : Pkt) : TenFollows s (insertTen s p) := by
  have h := Follows.refl s
  unfold insertTen
  dsimp only
  split
  · exact .fail h
  split
  · exact .fail h
  split
  · exact .fail h
  split
  · exact .fail h
  · exact stage_follows _ _

protected theorem Follows.laneRepairDone {l : Nat} {up : Bool} (h : Follows s t) : Follows s (laneRepairDone t l up) := by
  unfold Machine.laneRepairDone
  dsimp only
  split
  · exact h
  split
  · exact h
  split
  · exact h.upd.completePkt
  · exact h.upd

/-! ## Fittings and RESUME -/

protected theorem Follows.fitWrite {k : Nat} {f : Fitting} (l : List (Nat × Nat)) {bs : List Byte} (h : Follows s t) :
    Follows s (fitWrite k f t bs l).1 := by
  induction l generalizing t bs with
  | nil => exact h
  | cons e rest ih =>
    unfold Machine.fitWrite
    split
    · exact ih h.writePiece
    · exact h

protected theorem Follows.fittingEdge {k : Nat} (h : Follows s t) : Follows s (fittingEdge t k) := by
  unfold Machine.fittingEdge
  dsimp only
  split
  · exact h
  split
  · rename_i hf
    exact (h.upd.fitWrite _).fst hf |>.reportCore
  · rename_i hf
    exact (h.upd.fitWrite _).fst hf |>.upd.reportCore

protected theorem Follows.retryHalt {ctx k : Nat} {x : Option Halt} {clear : Core → Core} (h : Follows s t) :
    Follows s (retryHalt ctx x clear t k) := by
  unfold Machine.retryHalt
  split
  · exact h
  split
  · exact h.upd
  · exact .ite h h.withDev

theorem resumeTen_follows (s : State) (p : Pkt) : TenFollows s (resumeTen s p) :=
  .done ((Follows.refl s).foldl (fun _ _ k => k.retryHalt.retryHalt) _)

end Sys2Proof.Machine
end

section
/-! Grants, stack ports, the host port, the aperture, submission and register writes. -/

namespace Sys2Proof.Machine

variable {s t u : State} {p : Pkt}

protected theorem Follows.getD {o : Option State} (h : Follows s t) (ho : ∀ u, o = some u → Follows s u) : Follows s (o.getD t) := by
  cases o with
  | none => exact h
  | some u => exact ho u rfl

/-! ## Grants (R428, R429) -/

protected theorem Follows.purgeDone {g : Nat} (h : Follows s t) : Follows s (purgeDone t g) := .ite h h.upd

protected theorem Follows.wipeDone {g : Nat} (h : Follows s t) : Follows s (wipeDone t g) := .ite h (h.mem (zeroRange_step _ _ _)).upd

/-! ## Stack ports -/

protected theorem Follows.wireRead {key : Nat} {r : PortReq} (h : Follows s t) (e : wireRead t key r = some u) : Follows s u := by
  unfold Machine.wireRead at e
  obtain ⟨q, -, rfl⟩ := Option.map_eq_some_iff.mp e
  exact h.upd

protected theorem Follows.wireWrite {key : Nat} {r : PortReq} (h : Follows s t) (e : wireWrite t key r = some u) : Follows s u := by
  unfold Machine.wireWrite at e
  obtain ⟨tag, -, rfl⟩ := Option.map_eq_some_iff.mp e
  exact h.putGran.upd

protected theorem Follows.acceptReq {key : Nat} {r : PortReq} (h : Follows s t) (e : acceptReq t key r = some u) : Follows s u := by
  unfold Machine.acceptReq at e
  split at e
  · cases e
    exact h.upd
  split at e
  · exact h.wireRead e
  · exact h.wireWrite e

protected theorem Follows.portGrant {key : Nat} (h : Follows s t) : Follows s (portGrant t key) := by
  unfold Machine.portGrant
  dsimp only
  split
  · exact h
  split
  · exact h
  split
  · exact h
  · exact .ite h.upd.upd.advanceResets (h.getD fun _ e => h.upd.acceptReq e)

/-- The status kept for a granule is no byte of memory (log entry 9). -/
protected theorem Follows.noteStatus {key addr st : Nat} (h : Follows s t) : Follows s (noteStatus t key addr st) :=
  ⟨h.params, h.pending, h.canon⟩

protected theorem Follows.takeStatus {key addr st : Nat} (h : Follows s t) : Follows s (takeStatus t key addr st) := h.noteStatus.upd

protected theorem Follows.unitFill {key addr : Nat} {ok : Bool} (h : Follows s t) : Follows s (unitFill t key addr ok) := by
  unfold Machine.unitFill
  split
  · exact h.upd
  split
  · exact h
  · exact h.upd

protected theorem Follows.answerRead {key : Nat} {r : PortReq} {bs : List Byte} (h : Follows s t) : Follows s (answerRead t key r bs) :=
  .ite h.unitFill h.upd

protected theorem Follows.readResponse {key sub tag st : Nat} (h : Follows s t) : Follows s (readResponse t key sub tag st) := by
  unfold Machine.readResponse
  split
  · exact h
  · extract_lets st1 st2 s1 s2 bs s3
    have h1 : Follows s s1 := h.takeStatus
    have h3 : Follows s s3 := (Follows.ite h1.takeStatus h1).upd
    split
    · exact h3.upd
    · exact h3.answerRead.advanceResets

protected theorem Follows.writeAck {key sub tag st : Nat} (h : Follows s t) : Follows s (writeAck t key sub tag st) := by
  unfold Machine.writeAck
  dsimp only
  split
  · exact h
  split
  · exact Follows.advanceResets (.withDev ⟨h.params, h.pending, h.canon⟩)
  · exact h.withDev.advanceResets

protected theorem Follows.readyFall {key : Nat} (h : Follows s t) : Follows s (readyFall t key) := .ite h h.withDev.advanceResets

protected theorem Follows.writeBack {key : Nat} {g : BufGran} (h : Follows s t) (e : writeBack t key g = some u) : Follows s u :=
  h.upd.wireWrite e

protected theorem Follows.makeRoom {key : Nat} {r : PortReq} (h : Follows s t) (e : makeRoom t key r = some u) : Follows s u := by
  unfold Machine.makeRoom at e
  dsimp only at e
  split at e
  · cases e
    exact h
  · obtain ⟨g, -, hg⟩ := Option.bind_eq_some_iff.mp e
    exact h.writeBack hg

protected theorem Follows.unitOp {key addr mask : Nat} {op : PortOp} {data : List Byte} (h : Follows s t) :
    Follows s (unitOp t key op addr mask data).1 := by
  unfold Machine.unitOp
  refine h.setMem _ _ ?_ ?_
  all_goals
    split
    · exact id
    · exact id

protected theorem Follows.applyOp {key : Nat} {r : PortReq} (h : Follows s t) : Follows s (applyOp t key r) := by
  unfold Machine.applyOp
  dsimp only
  split
  · exact h.unitOp.unitOp.upd.advanceResets
  · exact h.unitOp.upd.advanceResets

protected theorem Follows.accumulateOp {key : Nat} (h : Follows s t) : Follows s (accumulateOp t key) := by
  unfold Machine.accumulateOp
  dsimp only
  split
  · exact h
  split
  · exact h.getD fun _ e => h.upd.wireRead e
  · exact h.getD fun _ e => h.upd.wireWrite e
  · split
    · refine h.getD fun _ e => ?_
      obtain ⟨v, hv, rfl⟩ := Option.map_eq_some_iff.mp e
      exact (h.makeRoom hv).upd
    · exact h.upd.applyOp
  · split
    · refine .ite h (h.getD fun _ e => ?_)
      obtain ⟨v, hv, hr⟩ := Option.bind_eq_some_iff.mp e
      exact (h.makeRoom hv).wireRead hr
    · exact h.upd.applyOp

protected theorem Follows.accWriteback {key granule : Nat} (h : Follows s t) : Follows s (accWriteback t key granule) := by
  unfold Machine.accWriteback
  dsimp only
  split
  · exact h
  · exact .ite h (h.getD fun _ e => h.writeBack e)

theorem moveGran_stack (m : MemSys) (src dst : Nat) :
    (moveGran m src dst).stack = Memory.write dst (Memory.read src 64 m.stack) m.stack := by
  simp only [moveGran]

theorem moveGran_host (m : MemSys) (src dst : Nat) : (moveGran m src dst).host = m.host := by
  simp only [moveGran]

/-- A granule moved by a remap copy. -/
protected theorem Follows.moveGran {src dst : Nat} {d : Dev} (h : Follows s t) : Follows s { t with mem := moveGran t.mem src dst, dev := d } := by
  refine h.setMem _ _ (fun c => ?_) (fun c => ?_)
  · rw [moveGran_stack]
    exact Memory.wf_write _ _ c
  · rw [moveGran_host]
    exact c

protected theorem Follows.remapCopy {key : Nat} (h : Follows s t) : Follows s (remapCopy t key) := by
  unfold Machine.remapCopy
  dsimp only
  split
  · exact h
  · exact .ite h.moveGran.completePkt h.moveGran

protected theorem Follows.walkComplete {panel idx : Nat} (h : Follows s t) : Follows s (walkComplete t panel idx) := by
  unfold Machine.walkComplete
  dsimp only
  split
  · exact h
  split
  · exact h
  split
  · exact h.withDev
  split
  · exact h.withDev
  · exact h.withDev
  · exact h.withDev

/-! ## The host port -/

protected theorem Follows.wrOwn {g : HeldGran} (h : Follows s t) : Follows s (wrOwn t g) := h.upd

protected theorem Follows.hostPlain {r : PortReq} (h : Follows s t) : Follows s (hostPlain t r) := by
  unfold Machine.hostPlain
  exact (h.foldl (fun _ _ k => k.wrOwn) _).upd

protected theorem Follows.hostAccOp (h : Follows s t) : Follows s (hostAccOp t) := by
  unfold Machine.hostAccOp
  dsimp only
  split
  · exact h
  split
  · exact h.upd.hostPlain
  split
  · refine .ite h (Follows.upd ?_)
    split
    · exact .ite h.wrOwn h
    · exact h
  · exact h.withDev.advanceResets

protected theorem Follows.hostStore {r : HostReq} (h : Follows s t) : Follows s (hostStore t r) :=
  h.setMem _ _ id (Memory.wf_writeEn _ _ _)

protected theorem Follows.landLate (h : Follows s t) : Follows s (landLate t) := by
  unfold Machine.landLate
  exact (h.foldl (fun _ _ k => k.hostStore) _).upd

/-- The bridge's answer kept for a granule is no byte of memory (log entry 9). -/
protected theorem Follows.noteHost {r : HostReq} {err : Bool} (h : Follows s t) : Follows s (noteHost t r err) :=
  .ite h ⟨h.params, h.pending, h.canon⟩

protected theorem Follows.hostAnswer {r : HostReq} {err : Bool} {data : List Byte} (h : Follows s t) : Follows s (hostAnswer t r err data) := by
  unfold Machine.hostAnswer
  dsimp only
  split
  · exact h.upd
  · exact (Follows.ite h h.upd).upd
  · exact h.upd
  · exact .ite h.upd (.ite h h.upd)
  · exact .ite h.upd (.ite h h.upd)
  · exact .ite h.upd (.ite h h.upd)
  · exact h.mcAnswer
  · exact h
  · exact .ite h h.upd
  · exact .ite h h.upd
  · exact .ite h h.upd
  · exact .ite h.upd h.upd

protected theorem Follows.hostResponse {tag : Nat} {err : Bool} {data : List Byte} (h : Follows s t) : Follows s (hostResponse t tag err data) := by
  unfold Machine.hostResponse
  split
  · exact h
  · exact (Follows.ite h h.noteHost.hostAnswer).upd.landLate.advanceResets

protected theorem Follows.snoopRequest {granule : Nat} (h : Follows s t) : Follows s (snoopRequest t granule) := by
  unfold Machine.snoopRequest
  dsimp only
  split
  · exact h
  split
  · exact h.upd
  · exact .ite (h.upd.setMem _ _ id (Memory.wf_write _ _)) h.upd.upd

/-! ## The aperture -/

protected theorem Follows.apTouch {f addr n : Nat} {k : Acc3} (h : Follows s t) : Follows s (apTouch t f addr n k) := by
  unfold Machine.apTouch
  split
  · exact h.upd
  split
  · exact h
  · exact h.foldl (fun _ _ k => k.withDev) _

protected theorem Follows.apertureRead {f addr nw : Nat} (h : Follows s t) : Follows s (apertureRead t f addr nw) := by
  unfold Machine.apertureRead
  dsimp only
  split
  · exact h
  split
  · exact h.upd
  split
  · exact h.upd
  · exact h.apTouch.upd.upd

protected theorem Follows.apWrite {f c : Nat} (l : List (Target × Nat)) {bs : List Byte} {be : List Bool} (h : Follows s t) :
    Follows s (apWrite f c t bs be l) := by
  induction l generalizing t bs be with
  | nil => exact h
  | cons e es ih =>
    unfold Machine.apWrite
    exact ih h.writePiece

protected theorem Follows.apertureWrite {f addr : Nat} {data : List Byte} {be : List Bool} (h : Follows s t) :
    Follows s (apertureWrite t f addr data be) := by
  unfold Machine.apertureWrite
  dsimp only
  split
  · exact h
  split
  · exact h
  · exact h.apTouch.apWrite _

/-! ## Submission -/

protected theorem Follows.postPacket {q : QRef} {f win : Nat} {ws : List Word} (h : Follows s t) : Follows s (postPacket t q f win ws) := by
  unfold Machine.postPacket
  dsimp only
  split
  · exact h
  split
  · exact h.upd
  split
  · exact h.upd
  split
  · rename_i hw
    exact (h.dTouch.dWrite hw).upd
  · exact h.dTouch.upd

protected theorem Follows.subGran {q : QRef} {f win off : Nat} {ws : List Word} (h : Follows s t) : Follows s (subGran t q f win off ws) := by
  unfold Machine.subGran
  extract_lets start x
  have hstart : ∀ u, Follows s u → Follows s (start u) := fun _ k => .ite k.postPacket k.upd
  split
  · exact .ite (hstart _ h) (hstart _ h.upd)
  · exact .ite (.ite h.upd.postPacket h.upd) h.upd

protected theorem Follows.subGrans {f win off : Nat} {data : List Byte} (n : Nat) (h : Follows s t) : Follows s (subGrans t f win off data n) := by
  induction n generalizing t off data with
  | zero => exact h
  | succ n ih =>
    unfold Machine.subGrans
    refine ih ?_
    split
    · exact .ite h.upd h.subGran
    · exact h.upd

protected theorem Follows.submitWrite {func win off : Nat} {data : List Byte} (h : Follows s t) : Follows s (submitWrite t func win off data) := by
  unfold Machine.submitWrite
  dsimp only
  split
  · exact h
  split
  · split
    · exact .ite h.upd h.upd.dropDone
    · exact h.upd
  split
  · exact (h.subGrans _).dropDone
  · exact h.subGrans _

protected theorem Follows.writeStatus {q : QRef} {v : Word} (h : Follows s t) : Follows s (writeStatus t q v) :=
  .ite (.ite (h.upd.disposeRing _) h.upd) h.upd

/-! ## Registers -/

protected theorem Follows.writeQueueReg {f win o : Nat} {v : Word} (h : Follows s t) : Follows s (writeQueueReg t f win o v) := by
  unfold Machine.writeQueueReg
  split
  · exact .ite h.writeStatus h
  · exact h

protected theorem Follows.writeKey {v : Word} (h : Follows s t) : Follows s (writeKey t v) := .ite h.upd (.ite h.deviceReset h.upd)

protected theorem Follows.writeArea {f : Nat} {v : Word} {a : Area} (h : Follows s t) : Follows s (writeArea t f v a) := by
  unfold Machine.writeArea
  split
  · exact .ite h.submitWrite h.writeQueueReg
  · exact .ite h.submitWrite h.writeQueueReg
  · exact .ite h.writeKey h
  · exact h.upd
  · exact .ite h.upd h
  · exact h.upd
  · exact h.upd
  · exact .ite h.upd h
  · exact h
  · exact h

protected theorem Follows.writeReg {f off : Nat} {v : Word} (h : Follows s t) : Follows s (writeReg t f off v) := by
  unfold Machine.writeReg
  split
  · exact h
  split
  · exact h.writeArea
  split
  · exact .ite h.submitWrite h
  · exact .ite h.submitWrite h
  · exact h

protected theorem Follows.grantWrite {g : Nat} {v : Word} (h : Follows s t) : Follows s (grantWrite t g v) := .ite h.writeReg h

end Sys2Proof.Machine
end

section
/-! The commands: each ends in a next state that comes from the one it began in. -/

namespace Sys2Proof.Machine

variable {s t : State}

/-- A command's answer is a next state that comes from `s`. -/
def Ends (s : State) (o : Out) : Prop := ∃ t, o = .next t ∧ Follows s t

theorem Follows.ends (h : Follows s t) : Ends s (.next t) := ⟨t, rfl, h⟩

theorem acceptRow_ends {sem : OpSem} {q : QRef} (hk : sem.Keeps) : Ends s (.next (acceptRow sem q s)) := ((Follows.refl s).acceptRow hk).ends

theorem onCore_ends {idx : Nat} {f : Nat → State} (hf : ∀ k, Follows s (f k)) : Ends s (onCore s idx f) := by
  unfold onCore
  refine Follows.ends ?_
  split
  · exact .ite (hf _) (.refl s)
  · exact .refl s

theorem writeReg_ends {f off : Nat} {v : Word} : Ends s (.next (writeReg s f off v)) := (Follows.refl s).writeReg.ends

/-- A register write that a range check guards. -/
theorem writeRegIf_ends {c : Prop} [Decidable c] {f off : Nat} {v : Word} : Ends s (.next (if c then writeReg s f off v else s)) :=
  (Follows.ite (Follows.refl s).writeReg (.refl s)).ends

theorem grantWrite_ends {g : Nat} {v : Word} : Ends s (.next (grantWrite s g v)) := (Follows.refl s).grantWrite.ends

/-- A command whose effect is on the device alone. -/
theorem upd_ends {g : Dev → Dev} : Ends s (.next (s.upd g)) := (Follows.refl s).upd.ends

theorem updIf_ends {c : Prop} [Decidable c] {g : Dev → Dev} : Ends s (.next (if c then s.upd g else s)) :=
  (Follows.ite (Follows.refl s).upd (.refl s)).ends

theorem execPacketRetire_ends (q : QRef) (s : State) : Ends s (execPacketRetire q s) := by
  unfold execPacketRetire
  split
  · exact (Follows.refl s).ends
  · exact (Follows.refl s).dropDone.spoil.upd.dropDone.ends

theorem execResetDevice_ends (q : QRef) (s : State) : Ends s (execResetDevice q s) := by
  have h : Follows s (acceptRow semResetDevice q s) :=
    (Follows.refl s).acceptRow (mcTen_follows fun s _ => .later (Follows.refl s).upd)
  exact (Follows.ite h.deviceReset h).ends

theorem execFatalResetTimer_ends (shared : Option Nat) (s : State) : Ends s (execFatalResetTimer shared s) := by
  cases shared with
  | some u => exact upd_ends
  | none => exact (Follows.ite (Follows.refl s).deviceReset (.refl s)).ends

theorem execAccWriteback_ends (panel port granule : Nat) (s : State) : Ends s (execAccWriteback panel port granule s) := by
  have h := Follows.refl s
  refine (Follows.ite ?_ h.accWriteback).ends
  split
  · exact .ite h h.wrOwn
  · exact h

/-- Every command ends in a next state that comes from the one it began in. -/
theorem exec_ends (c : Instr) (s : State) : Ends s (exec c s) := by
  have h := Follows.refl s
  cases c with
  | copy q | fill q | accClear q | stats q | matmul q | fabLoad q | fabRun q | chain q | bar q | mark q =>
    exact acceptRow_ends toCores_follows
  | ctxCreate q => exact acceptRow_ends semCtxCreate_keeps
  | ctxConfig q => exact acceptRow_ends ctxConfigTen_follows
  | ctxDestroy q => exact acceptRow_ends fun s _ => .done (Follows.refl s).destroyCtx
  | queueCreate q => exact acceptRow_ends queueCreateTen_follows
  | queueDestroy q => exact acceptRow_ends queueDestroyTen_follows
  | gangCreate q => exact acceptRow_ends gangCreateTen_follows
  | gangDestroy q => exact acceptRow_ends fun s _ => .done (Follows.refl s).upd
  | resume q => exact acceptRow_ends resumeTen_follows
  | fwLoad q => exact acceptRow_ends (mcTen_follows fwLoadTen_follows)
  | resetDevice q => exact execResetDevice_ends q s
  | funcReset q => exact acceptRow_ends (mcTen_follows funcResetTen_follows)
  | partClear q => exact acceptRow_ends (mcTen_follows partClearTen_follows)
  | retire q => exact acceptRow_ends (mcTen_follows retireTen_follows)
  | insert q => exact acceptRow_ends (mcTen_follows insertTen_follows)
  | health q => exact acceptRow_ends (mcTen_follows fun s _ => .done (Follows.refl s).upd)
  | spdm q => exact acceptRow_ends (mcTen_follows fun s _ => .later (Follows.refl s).upd)
  | descWrite q => exact acceptRow_ends descWriteTen_follows
  | seam q => exact acceptRow_ends seamTen_follows
  | tackWait q => exact acceptRow_ends tackWaitTen_follows
  | tackSignal q => exact acceptRow_ends semTackSignal_keeps
  | tackAdd q => exact acceptRow_ends semTackAdd_keeps
  | bobbinSet q => exact acceptRow_ends bobbinSetTen_follows
  | objCreate q => exact acceptRow_ends objCreateTen_follows
  | objRelease q => exact acceptRow_ends semObjRelease_keeps
  | tackCreate q => exact acceptRow_ends semTackCreate_keeps
  | tackExport q => exact acceptRow_ends tackExportTen_follows
  | tackImport q => exact acceptRow_ends tackImportTen_follows
  | bobbinCreate q => exact acceptRow_ends semBobbinCreate_keeps
  | seamCreate q => exact acceptRow_ends semSeamCreate_keeps
  | heapSetup q => exact acceptRow_ends heapSetupTen_follows
  | alloc q => exact acceptRow_ends allocTen_follows
  | free q => exact acceptRow_ends freeTen_follows
  | xlateInval q => exact acceptRow_ends xlateInvalTen_follows
  | query q => exact acceptRow_ends queryTen_follows
  | patternDefine q => exact acceptRow_ends patternDefineTen_follows
  | replay q => exact acceptRow_ends replayTen_follows
  | patch q => exact acceptRow_ends semPatch_keeps
  | loop q => exact acceptRow_ends loopTen_follows
  | endloop q => exact acceptRow_ends endloopTen_follows
  | predCmp q => exact acceptRow_ends semPredCmp_keeps
  | predClip q => exact acceptRow_ends predClipTen_follows
  | fitting q => exact acceptRow_ends fittingTen_follows
  | submitGranule func win off data => exact h.submitWrite.ends
  | restart func win value => exact (Follows.ite h.writeQueueReg h).ends
  | restartFlush func win value => exact (Follows.ite h.writeQueueReg h).ends
  | waitTackResume slot => exact (h.foldl (fun _ _ k => k.resumeQueue) _).ends
  | multicast q parity => exact h.multicastQueue.ends
  | coreCompletion core uid => exact onCore_ends fun _ => h.coreComplete
  | packetRetire q => exact execPacketRetire_ends q s
  | ringCfgWrite func ring value => exact writeRegIf_ends
  | ringHeadWrite func ring value => exact writeRegIf_ends
  | heldFaultRecordWrite func => exact updIf_ends
  | intCtlWrite func value => exact writeReg_ends
  | intMaskWrite func value => exact writeReg_ends
  | intPendClear func value => exact writeReg_ends
  | registerWrite func off value => exact writeReg_ends
  | resetKeyArm => exact writeReg_ends
  | resetKeyFire => exact writeReg_ends
  | resetKeyDisarm value => exact writeReg_ends
  | partitionEntryWrite panel idx value => exact writeRegIf_ends
  | grantW1Write g value => exact writeRegIf_ends
  | grantStore g value => exact grantWrite_ends
  | grantIssue g value => exact grantWrite_ends
  | grantKeepUpdate g value => exact grantWrite_ends
  | grantRevoke g value => exact grantWrite_ends
  | grantFenceWipe g value => exact grantWrite_ends
  | grantPurgeDone g => exact h.purgeDone.ends
  | grantWipeDone g => exact h.wipeDone.ends
  | functionEntryWrite f value => exact writeRegIf_ends
  | qosEntryWrite f value => exact writeRegIf_ends
  | stackPortGrant panel port => exact h.portGrant.ends
  | apertureRead func addr nw => exact h.apertureRead.ends
  | apertureWrite func addr data be => exact h.apertureWrite.ends
  | hostResponse tag err data => exact h.hostResponse.ends
  | flrRequest func => exact (Follows.ite h h.upd.startReset).ends
  | hostRequestAbandon tag => exact h.hostAbandon.ends
  | snoopRequest granule inv => exact h.snoopRequest.ends
  | pwrokChange level panel => exact h.pwrokChange.ends
  | rstNChange level panel => exact h.rstNChange.ends
  | holdInChange panel code => exact h.holdInChange.ends
  | rootclkWindow edges panel => exact h.rootclkWindow.ends
  | rootclkMissing panel => exact h.monitorFail.ends
  | fatalResetTimer shared => exact execFatalResetTimer_ends shared s
  | stackReadResponse panel port sub tag st => exact h.readResponse.ends
  | stackWriteAck panel port sub tag st => exact h.writeAck.ends
  | stackReadyFall panel port => exact h.readyFall.ends
  | accumulateOp panel port => exact (Follows.ite h.hostAccOp h.accumulateOp).ends
  | accWriteback panel port granule => exact execAccWriteback_ends panel port granule s
  | remapGranuleCopy panel port => exact h.remapCopy.ends
  | pageWalkComplete panel idx => exact h.walkComplete.ends
  | admission core => exact onCore_ends fun _ => h.upd
  | commandBlockRead core => exact onCore_ends fun _ => h.blockRead
  | bundleCopy core => exact onCore_ends fun _ => h.bundleCopy
  | swatchCopy core store => exact onCore_ends fun _ => h.swatchCopy
  | bobbinTake core => exact onCore_ends fun _ => h.bobbinTake
  | granuleIssue core run two => exact onCore_ends fun _ => h.granuleIssue
  | writeUnitSend core run ecc => exact onCore_ends fun _ => h.writeUnitSend
  | readDataArrival core req => exact onCore_ends fun _ => h.dataArrival
  | mcastFreeReport member run issuer => exact onCore_ends fun _ => h.freeReport
  | stallWatchdog core => exact onCore_ends fun _ => h.stallFire
  | watchdogAbort core source => exact onCore_ends fun _ => h.abortFire
  | sidePortRead core side ecc => exact onCore_ends fun _ => h.sideRead
  | accLoad core ecc => exact onCore_ends fun _ => h.accLoadNext
  | beatIssue core ecc => exact onCore_ends fun _ => h.beatStep
  | drainRowRead core ecc => exact onCore_ends fun _ => h.drainRow
  | kernelRunStart core => exact onCore_ends fun _ => h.upd
  | fabricTick core rets ecc => exact onCore_ends fun _ => h.fabricTick
  | kernelRunEnd core => exact onCore_ends fun _ => h.kernelEnd
  | fabLoadComplete core => exact onCore_ends fun _ => h.fabLoad
  | seamStart core => exact onCore_ends fun _ => h.seamStart
  | seamRelease slot => exact h.seamRelease.ends
  | partitionEpisodeComplete slot => exact h.partitionEpisode.ends
  | laneRepairDone link up => exact h.laneRepairDone.ends
  | stackWipe => exact h.stackWipe.ends
  | microcodePageFetch panel site page got => exact h.pageFetch.ends
  | quiesceRefetch failed => exact h.quiesceRefetch.ends
  | fwQuiesceTimeout => exact h.quiesceTimeout.ends
  | fittingEdge core => exact onCore_ends fun _ => h.fittingEdge
  | targetChannelReady => exact (Follows.ite h h.upd).ends
  | partitionClearDone panel part => exact h.clearDone.ends
  | faultRecordRetry func | interruptSend func vector | resetKeyTimeout | qosWindowStart | resetHoldExpire | resetRelease
  | pwrAlertAssert panel | pwrAlertDeassert panel | pkgpwrSample watts | powerWindow | healthWindowEnd
  | stackReadyRise panel port cap retained | flitReceive link up module rxd | laneRepair link up module clkStopped
  | optionLoad copyA copyB | optRdyTimeout | logicBist | sramBist fails shared | stackTrainingTimeout | linkTraining results
  | bootImageVerify mc uc svcA svcB cert | testCapture panel sel pins | testShift panel sel si | testUpdate panel sel
  | testReset panel trstLow | testModeChange panel mode | backupSupplyFailure =>
    exact upd_ends

end Sys2Proof.Machine

namespace Sys2Proof

open Machine

/-- Settles O56: `exec_ends` gives the next state and that it comes from the one before, row by row of `exec`. -/
theorem commandsKeepParametersAndQueue : Obligations.CommandsKeepParametersAndQueue := by
  intro c s
  obtain ⟨t, ht, hf⟩ := exec_ends c s
  exact ⟨t, ht, hf.params, hf.pending⟩

end Sys2Proof
end

section
/-! Events of a core and the copies of its front end: which steps are taken on a core in service, and what one step of a front copy does
with granules that are missing, under way or here. -/

namespace Sys2Proof.Machine

variable {s : State} {i k : Nat}

/-! ## Events of a core -/

theorem onCore_of_inService {f : Nat → State} (hk : s.dev.siteOf i = some k) (hs : s.dev.inService = true) : onCore s i f = .next (f k) := by
  simp [onCore, hk, hs]

theorem onCore_of_idle {f : Nat → State} (h : s.dev.siteOf i = none ∨ s.dev.inService = false) : onCore s i f = .next s := by
  unfold onCore
  rcases h with hk | hs
  · rw [hk]
  · rw [hs]
    cases s.dev.siteOf i <;> rfl

/-- An act that changes nothing changes nothing in service or out of it. -/
theorem onCore_of_unchanged {f : Nat → State} (hk : s.dev.siteOf i = some k) (hf : f k = s) : onCore s i f = .next s := by
  simp [onCore, hk, hf]

section
variable (s : State) (i n : Nat) (e : Ecc)

theorem exec_admission : exec (.admission i) s =
    onCore s i (fun k => s.upd (fun d => d.modCore k (fun c => admitNext s.params (planeWaits c) (planeVerdict c) c))) := rfl

theorem exec_commandBlockRead : exec (.commandBlockRead i) s = onCore s i (blockRead s) := rfl

theorem exec_bundleCopy : exec (.bundleCopy i) s = onCore s i (bundleCopy s) := rfl

theorem exec_swatchCopy : exec (.swatchCopy i n) s = onCore s i (swatchCopy s n) := rfl

theorem exec_bobbinTake : exec (.bobbinTake i) s = onCore s i (bobbinTake s) := rfl

theorem exec_coreCompletion : exec (.coreCompletion i n) s = onCore s i (coreComplete s n) := rfl

theorem exec_accLoad : exec (.accLoad i e) s = onCore s i (accLoadNext s e) := rfl

theorem exec_sidePortRead (side : Side) : exec (.sidePortRead i side e) s = onCore s i (sideRead s side e) := rfl

theorem exec_beatIssue : exec (.beatIssue i e) s = onCore s i (beatStep s e) := rfl

theorem exec_drainRowRead : exec (.drainRowRead i e) s = onCore s i (drainRow s e) := rfl

theorem exec_multicast (q : QRef) (parity : Option Nat) : exec (.multicast q parity) s = .next (multicastQueue q parity s) := rfl

end

/-! ## Front copies (R401, R406) -/

section
variable {m : Cmd} {code va n : Nat} {kind : Acc3}

theorem frontLeft_eq_nil_of_here {c : Core} {uid : Nat} (h : FrontHere c uid code n) : frontLeft c uid code n = [] := by
  simp only [frontLeft, List.filter_eq_nil_iff, List.mem_range, Bool.not_eq_true', Bool.not_eq_false, List.any_eq_true, beq_iff_eq]
  exact h.1

/-- Granules not yet asked for are requested while the streams of the core are not halted. -/
theorem frontStep_of_left (h : frontLeft (s.dev.core k) m.uid code n ≠ []) (hh : (s.dev.core k).halted = false) :
    frontStep s k m code va n kind =
      (s.upd (frontIssue s.params k ((siteIndex s.dev k).getD 0) m code va kind (frontLeft (s.dev.core k) m.uid code n)), none) := by
  have hl : (!(frontLeft (s.dev.core k) m.uid code n).isEmpty) = true := by simpa using h
  unfold frontLeft at hl ⊢
  unfold frontStep
  dsimp only
  rw [if_pos hl, if_neg (by simp [hh])]

theorem frontStep_of_here (h : FrontHere (s.dev.core k) m.uid code n) :
    frontStep s k m code va n kind = (frontTaken s k m.uid code, some (frontBytes (s.dev.core k) m.uid code n)) := by
  have hl : ¬ (!(frontLeft (s.dev.core k) m.uid code n).isEmpty) = true := by simp [frontLeft_eq_nil_of_here h]
  have hr : (frontReqs (s.dev.core k) m.uid code).all (fun r => r.state == 1) = true := by simpa using h.2
  unfold frontLeft at hl
  unfold frontStep
  dsimp only
  rw [if_neg hl, if_pos hr]
  rfl

/-- Granules under way are waited for. -/
theorem frontStep_of_waiting (hl : frontLeft (s.dev.core k) m.uid code n = [])
    (hr : ∃ r ∈ frontReqs (s.dev.core k) m.uid code, r.state ≠ 1) : frontStep s k m code va n kind = (s, none) := by
  have hl : ¬ (!(frontLeft (s.dev.core k) m.uid code n).isEmpty) = true := by simp [hl]
  have hr : ¬ (frontReqs (s.dev.core k) m.uid code).all (fun r => r.state == 1) = true := by simpa using hr
  unfold frontLeft at hl
  unfold frontStep
  dsimp only
  rw [if_neg hl, if_neg hr]

end

/-! ## The copies of the front end -/

section
variable {m : Cmd} {t : State} {bs : List Byte}

theorem blockRead_of_pending (hm : firstCmd (s.dev.core k) (fun m => m.isWork && !m.admitted && m.block.isNone) = some m)
    (hf : frontStep s k m 18 m.work.cblock (blockBytes m) .desc = (t, none)) : blockRead s k = t := by
  simp only [blockRead, hm, hf]

theorem blockRead_of_taken (hm : firstCmd (s.dev.core k) (fun m => m.isWork && !m.admitted && m.block.isNone) = some m)
    (hf : frontStep s k m 18 m.work.cblock (blockBytes m) .desc = (t, some bs)) :
    blockRead s k = t.upd (fun d => d.modCore k (fun c =>
      { c.modCmd m.uid (fun x => { x with block := some (bytesToWords (blockBytes x / 8) bs) }) with moved := true })) := by
  simp only [blockRead, hm, hf]

theorem bundleCopy_of_pending (hm : firstCmd (s.dev.core k) (fun m => m.isWork && m.admitted && !m.copied) = some m)
    (hf : frontStep s k m 19 m.work.bundle (64 * m.work.ndesc) .desc = (t, none)) : bundleCopy s k = t := by
  simp only [bundleCopy, hm, hf]

theorem swatchCopy_of_pending {n : Nat} (hm : swatchCmd s.params (s.dev.core k) n = some m)
    (hf : frontStep s k m (20 + n) (swatchVa m.work n) 256 .read = (t, none)) : swatchCopy s n k = t := by
  simp only [swatchCopy, hm, hf]

theorem swatchCopy_of_taken {n : Nat} (hm : swatchCmd s.params (s.dev.core k) n = some m)
    (hf : frontStep s k m (20 + n) (swatchVa m.work n) 256 .read = (t, some bs)) :
    swatchCopy s n k = t.upd (fun d => d.modCore k (fun c =>
      { c.modCmd m.uid (fun m => { m with swDone := m.swDone ++ [n] }) with stores := updAt (fun _ => bs) n c.stores, moved := true })) := by
  simp only [swatchCopy, hm, hf]

end

end Sys2Proof.Machine

namespace Sys2Proof

open Machine

/-- Settles O41: a front copy stands in one of the three cases of `frontStep_of_left`, `frontStep_of_here` and `frontStep_of_waiting`, and each
command of the front is what it does with that step. -/
theorem coreFrontCommands : Obligations.CoreFrontCommands := by
  refine ⟨?admission, ?block, ?bundle, ?bundleLeft, ?swatch, ?idle⟩
  case admission =>
    intro s i k hk hs
    exact onCore_of_inService hk hs
  case block =>
    intro s i k m hk hs hm
    rw [exec_commandBlockRead, onCore_of_inService hk hs]
    refine ⟨fun h => ?_, fun hl hh => ?_, fun hl hr => ?_⟩
    · rw [blockRead_of_taken hm (frontStep_of_here h)]
    · rw [blockRead_of_pending hm (frontStep_of_left hl hh)]
    · rw [blockRead_of_pending hm (frontStep_of_waiting hl hr)]
  case bundle =>
    intro s i k m n ds s1 d1 d2 hk hs hm hn h hs1 hds hd1 hd2
    rw [exec_bundleCopy, onCore_of_inService hk hs]
    subst hn hs1 hds hd1 hd2
    simp only [bundleCopy, hm, frontStep_of_here h]
    rfl
  case bundleLeft =>
    intro s i k m hk hs hm hl hh
    rw [exec_bundleCopy, onCore_of_inService hk hs, bundleCopy_of_pending hm (frontStep_of_left hl hh)]
  case swatch =>
    intro s i n k m hk hs hm
    rw [exec_swatchCopy, onCore_of_inService hk hs]
    refine ⟨fun h => ?_, fun hl hh => ?_⟩
    · rw [swatchCopy_of_taken hm (frontStep_of_here h)]
    · rw [swatchCopy_of_pending hm (frontStep_of_left hl hh)]
  case idle =>
    intro s i h
    exact ⟨onCore_of_idle h, onCore_of_idle h, onCore_of_idle h, fun _ => onCore_of_idle h, onCore_of_idle h⟩

end Sys2Proof
end

section
/-! Completion of a command in its core and the multicast of a packet: what opens each, and what closes it. -/

namespace Sys2Proof.Machine

variable {s : State} {k : Nat}

/-! ## CORE_COMPLETION -/

section
variable {uid : Nat} {m : Cmd}

/-- A command with no statistics left to write leaves its core (R133, R257). -/
theorem coreComplete_of_done (hc : (s.dev.core k).cmd uid = some m) (hp : allParts s.params (s.dev.core k) uid = true)
    (hh : (s.dev.core k).atHead uid = true) (ha : m.acks = 0)
    (hw : m.fail.isSome = true ∨ m.statsWritten = true ∨ statsWrites ((siteIndex s.dev k).getD 0) m = []) :
    coreComplete s uid k = leaveCore s k ((siteIndex s.dev k).getD 0) m := by
  have hopen : ¬ (!allParts s.params (s.dev.core k) uid || !(s.dev.core k).atHead uid || m.acks != 0) = true := by simp [hp, hh, ha]
  have hleave : (m.fail.isSome || m.statsWritten || (statsWrites ((siteIndex s.dev k).getD 0) m).isEmpty) = true := by
    simpa [or_assoc] using hw
  unfold coreComplete
  dsimp only
  rw [hc]
  dsimp only
  rw [if_neg hopen, if_pos hleave]

theorem coreComplete_of_acks (hc : (s.dev.core k).cmd uid = some m) (ha : m.acks ≠ 0) : coreComplete s uid k = s := by
  simp [coreComplete, hc, ha]

end

/-! ## MULTICAST -/

section
variable {q : QRef} {p : Pkt} {parity : Option Nat}

theorem multicastQueue_of_none (h : ∀ p ∈ (s.dev.queue q).flight, p.stage ≠ .multicast) : multicastQueue q parity s = s := by
  have hf : (s.dev.queue q).flight.find? (fun p => p.stage == .multicast) = none := by simpa using h
  simp only [multicastQueue, hf]

/-- R256: a queue that may not go on multicasts nothing. -/
theorem multicastQueue_of_stopped (hp : (s.dev.queue q).flight.find? (fun p => p.stage == .multicast) = some p) (hq : mayGoOn s.dev q = false) :
    multicastQueue q parity s = s := by
  simp [multicastQueue, hp, hq]

theorem multicastQueue_of_room (hp : (s.dev.queue q).flight.find? (fun p => p.stage == .multicast) = some p) (hq : mayGoOn s.dev q = true)
    (hr : ∀ i ∈ mcastMembers s.dev p, ∀ k, s.dev.siteOf i = some k → queueRoom (s.dev.core k) = true) :
    multicastQueue q none s = multicastPkt s p := by
  have hall : (mcastMembers s.dev p).all (fun i => match s.dev.siteOf i with | some k => queueRoom (s.dev.core k) | none => true) = true := by
    rw [List.all_eq_true]
    intro i hi
    cases hk : s.dev.siteOf i with
    | none => rfl
    | some k => exact hr i hi k hk
  unfold multicastQueue
  rw [hp]
  dsimp only
  refine (if_neg ?_).trans rfl
  rw [hq, Bool.not_true, Bool.false_or, Bool.not_eq_true', Bool.not_eq_false]
  exact hall

end

end Sys2Proof.Machine

namespace Sys2Proof

open Machine

/-- Settles O46, by the cases of `coreComplete` and `multicastQueue` above. -/
theorem multicastAndCoreCompletion : Obligations.MulticastAndCoreCompletion := by
  refine ⟨?done, ?acks, ?stopped, ?room, ?none⟩
  case done =>
    intro s i k uid m hk hs hc hp hh ha hw
    rw [exec_coreCompletion, onCore_of_inService hk hs, coreComplete_of_done hc hp hh ha hw]
  case acks =>
    intro s i k uid m hk hc ha
    exact onCore_of_unchanged hk (coreComplete_of_acks hc ha)
  case stopped =>
    intro s q p hp hq
    rw [exec_multicast, multicastQueue_of_stopped hp hq]
  case room =>
    intro s q p hp hq hr
    rw [exec_multicast, multicastQueue_of_room hp hq hr]
  case none =>
    intro s q parity h
    rw [exec_multicast, multicastQueue_of_none h]

end Sys2Proof
end

section
/-! The steps of the outer-product unit: a load, a side read, a beat and a drain step that are due, and those that must wait. What an act
leaves when its read is clean and when it could not be corrected is `onEcc`'s. -/

namespace Sys2Proof.Machine

variable {s : State} {k : Nat} {e : Ecc}

/-! ## ACC_LOAD (R121) -/

section
variable {p : Params} {c c1 : Core} {m : Cmd} {tile it n a seg : Nat} {t : Serv} {rg : Region}

/-- The next tile's accumulator is loaded once one is FREE and the segments of its region are FULL. -/
theorem accLoadStep_of_full (ht : nextTile p c = some (m, tile)) (hi : m.work.accInit = accLoad) (hm : c.mayStart p m.uid 1 = true)
    (hl : ∀ x ∈ c.opu.accs, x.st ≠ .loading) (hit : (tileItems p m)[tile]? = some (it, t)) (hr : unitRegion m 6 = some (n, rg))
    (ha : freeAcc c.opu = some a) (hseg : servSeg m n rg it = some seg)
    (hf : segsFull c rg.key ((loadSegs p m n rg.shape it t).map (seg + ·)) = true) :
    accLoadStep p c = some (Core.sweep p { c with opu := assign c.opu a .loading (loadVals p c m n rg.shape seg it t) m tile t }) := by
  have hgo : ¬ (m.work.accInit != accLoad || !c.mayStart p m.uid 1 || c.opu.accs.any (fun a => a.st == .loading)) = true := by
    simpa [hi, hm] using hl
  unfold accLoadStep
  rw [ht]
  dsimp only
  rw [if_neg hgo, hit, hr, ha]
  dsimp only
  rw [hseg]
  dsimp only
  rw [hf]
  rfl

theorem accLoadNext_of_none (h : accLoadStep s.params (s.dev.core k) = none) : accLoadNext s e k = s := by
  simp only [accLoadNext, h]

theorem accLoadNext_of_some (h : accLoadStep s.params (s.dev.core k) = some c1) :
    accLoadNext s e k = onEcc s k e (fun s => s.upd (fun d => d.setCore k c1)) := by
  simp only [accLoadNext, h]

end

/-! ## SIDE_PORT_READ (R110, R129) -/

/-- The consumer code of each side port. -/
def sideUnit : Side → Nat
  | .a => 4
  | .b => 5
  | .drain => 8

theorem sideRead_of_ready {side : Side} {u : Nat} {m : Cmd} {j : SideJob} (hu : sideUnit side = u)
    (hj : (if u = 8 then drainJobs s.params (s.dev.core k) else feedJobs s.params (s.dev.core k) u).find? (fun e =>
      !(s.dev.core k).opu.holds e.1.uid e.2) = some (m, j)) (hr : jobReady s.params (s.dev.core k) m j = true) :
    sideRead s side e k = onEcc s k e (fun s => s.upd (fun d => d.modCore k (fun c => Core.sweep s.params
      { c with opu := c.opu.setSide u (Tbl.set (sideKey m.uid j.tile j.code) (sideBytes s.params c m j) (c.opu.sideOf u)) }))) := by
  subst hu
  unfold sideRead
  extract_lets c u jobs
  have hfind : jobs.find? (fun e => !c.opu.holds e.1.uid e.2) = some (m, j) := hj
  rw [hfind]
  exact if_neg (by simp [c, hr])

/-! ## BEAT_ISSUE (R99, R112) -/

/-- The next beat of the tile that `f` fills, of core `k` as `c`: what BEAT_ISSUE does once it has a tile. -/
def issueBeat (s : State) (e : Ecc) (k : Nat) (c : Core) (f : Fill) : State :=
  match doBeat s.params c f with
  | none => s
  | some _ => onEcc s k e (fun s => s.upd (fun d =>
      match doBeat s.params c f, c.cmd f.uid with
      | some c1, some m => countUsage (d.setCore k c1) m.ctx (fun u =>
          if (c1.cmd f.uid).any (fun m => m.fail.isSome) then u else { u with mBeats := u.mBeats + 1 })
      | _, _ => d))

section
variable {c c1 : Core} {f : Fill} {m : Cmd}

theorem issueBeat_of_none (h : doBeat s.params c f = none) : issueBeat s e k c f = s := by
  simp only [issueBeat, h]

theorem issueBeat_ok (h : doBeat s.params c f = some c1) (hm : c.cmd f.uid = some m) :
    issueBeat s .ok k c f = s.upd (fun d => countUsage (d.setCore k c1) m.ctx (fun u =>
      if (c1.cmd f.uid).any (fun m => m.fail.isSome) then u else { u with mBeats := u.mBeats + 1 })) := by
  simp only [issueBeat, onEcc, h, hm]

theorem issueBeat_double (h : doBeat s.params c f = some c1) : issueBeat s .double k c f = removeCore s k := by
  simp only [issueBeat, onEcc, h]

theorem beatStep_of_filling (hf : (s.dev.core k).opu.fill = some f) : beatStep s e k = issueBeat s e k (s.dev.core k) f := by
  simp only [beatStep, hf]
  rfl

theorem beatStep_of_wait (hf : (s.dev.core k).opu.fill = none) (hb : beginTile s.params (s.dev.core k) = .wait) : beatStep s e k = s := by
  simp only [beatStep, hf, hb]

theorem beatStep_of_fails {uid : Nat} (hf : (s.dev.core k).opu.fill = none) (hb : beginTile s.params (s.dev.core k) = .fails uid) :
    beatStep s e k = s.upd (fun d => failAt d k uid .badParam 0) := by
  simp only [beatStep, hf, hb]

theorem beatStep_of_begun {o : Opu} (hf : (s.dev.core k).opu.fill = none) (hb : beginTile s.params (s.dev.core k) = .fill o f) :
    beatStep s e k = issueBeat s e k { s.dev.core k with opu := { o with fill := some f } } f := by
  simp only [beatStep, hf, hb]
  rfl

end

/-! ## DRAIN_ROW_READ (R127) -/

theorem drainRow_of_none (h : beginDrain (s.dev.core k) = none) : drainRow s e k = s := by
  simp only [drainRow, h]

theorem drainRow_of_some {x : Drain} {c1 : Core} {ctr : Nat} (h : beginDrain (s.dev.core k) = some x)
    (hd : drainStep s.params (s.dev.core k) s.dev.freeCtr x = some (c1, ctr)) :
    drainRow s e k = onEcc s k e (fun s => s.upd (fun d => { d with freeCtr := ctr }.setCore k c1)) := by
  simp only [drainRow, h, hd]

end Sys2Proof.Machine

namespace Sys2Proof

open Machine

/-- Settles O47: each step of the unit is, in service, what its lemma above says; a clean read carries it out and an uncorrectable one
removes the core, by the cases of `onEcc`. -/
theorem opuCommands : Obligations.OpuCommands := by
  refine ⟨?load, ?loadWaits, ?side, ?beatWaits, ?beatFails, ?beat, ?beatBegun, ?beatNone, ?beatDouble, ?drain, ?drainNone⟩
  case load =>
    intro s i k m tile it t n rg a seg hk hs ht hi hm hl hit hr ha hseg hf
    have hstep := accLoadStep_of_full ht hi hm hl hit hr ha hseg hf
    simp only [exec_accLoad, onCore_of_inService hk hs, accLoadNext_of_some hstep, onEcc, and_self]
  case loadWaits =>
    intro s i k e hk h
    exact onCore_of_unchanged hk (accLoadNext_of_none h)
  case side =>
    intro s i k side u m j hk hs hu hj hr
    have hside : sideUnit side = u := by
      rcases hu with ⟨rfl, rfl⟩ | ⟨rfl, rfl⟩ | ⟨rfl, rfl⟩ <;> rfl
    simp only [exec_sidePortRead, onCore_of_inService hk hs, sideRead_of_ready hside hj hr, onEcc, and_self]
  case beatWaits =>
    intro s i k e hk hf hb
    exact onCore_of_unchanged hk (beatStep_of_wait hf hb)
  case beatFails =>
    intro s i k e uid hk hs hf hb
    rw [exec_beatIssue, onCore_of_inService hk hs, beatStep_of_fails hf hb]
  case beat =>
    intro s i k f c1 m hk hs hf hb hm
    rw [exec_beatIssue, onCore_of_inService hk hs, beatStep_of_filling hf, issueBeat_ok hb hm]
  case beatBegun =>
    intro s i k o f c c1 m hk hs hf hbegin hc hb hm
    subst hc
    rw [exec_beatIssue, onCore_of_inService hk hs, beatStep_of_begun hf hbegin, issueBeat_ok hb hm]
  case beatNone =>
    intro s i k f e hk hf hb
    exact onCore_of_unchanged hk ((beatStep_of_filling hf).trans (issueBeat_of_none hb))
  case beatDouble =>
    intro s i k f c1 hk hs hf hb
    rw [exec_beatIssue, onCore_of_inService hk hs, beatStep_of_filling hf, issueBeat_double hb]
  case drain =>
    intro s i k x c1 ctr hk hs hb hd
    simp only [exec_drainRowRead, onCore_of_inService hk hs, drainRow_of_some hb hd, onEcc, and_self]
  case drainNone =>
    intro s i k e hk hb
    exact onCore_of_unchanged hk (drainRow_of_none hb)

end Sys2Proof
end

section
/-! The vector fabric: a kernel run that begins, ticks and ends, and a load of a plane whose image is here or whose plane is active. What an
act leaves when its read is clean and when it could not be corrected is `onEcc`'s. -/

namespace Sys2Proof.Machine

variable {s : State} {k : Nat}

section
variable (s : State) (i : Nat)

theorem exec_kernelRunStart : exec (.kernelRunStart i) s =
    onCore s i (fun k => s.upd (fun d => d.modCore k (kernelStart s.params))) := rfl

theorem exec_fabricTick (rets : List ExtRet) (e : Ecc) : exec (.fabricTick i rets e) s = onCore s i (fabricTick s rets e) := rfl

theorem exec_kernelRunEnd : exec (.kernelRunEnd i) s = onCore s i (kernelEnd s) := rfl

theorem exec_fabLoadComplete : exec (.fabLoadComplete i) s = onCore s i (fabLoad s) := rfl

end

/-- Two writers that agree on the present core of a site leave the same state. -/
theorem upd_modCore_congr {f g : Core → Core} (h : f (s.dev.core k) = g (s.dev.core k)) :
    s.upd (fun d => d.modCore k f) = s.upd (fun d => d.modCore k g) := by
  simp only [State.upd, Dev.modCore_eq, h]

/-! ## KERNEL_RUN_START (R183, R186, R187) -/

section
variable {p : Params} {c : Core} {m : Cmd}

theorem kernelStart_of_due (h : nextKernel p c = some m) : kernelStart p c =
    beginRun c m m.work.plane (imgRows (BitVec.ofNat 64 (leNat (((c.fab.planes.getD m.work.plane Plane.zero).image).take 8)))) := by
  simp only [kernelStart, h]

theorem kernelStart_of_none (h : nextKernel p c = none) : kernelStart p c = c := by
  simp only [kernelStart, h]

/-- R183: a run's plane is the active one unless a later command has made another one active. -/
theorem beginRun_active (n rows : Nat) (h : c.fab.activeArr ≤ m.arr) : (beginRun c m n rows).fab.active = some n :=
  if_pos h

end

/-! ## FABRIC_TICK (R171, R191) -/

section
variable {rets : List ExtRet} {e : Ecc} {m : Cmd}

theorem fabricTick_of_noRun (h : (s.dev.core k).fab.run = none) : fabricTick s rets e k = s := by
  simp only [fabricTick, h, Option.bind_none]

/-- A tick that some port cannot serve yet is waited for. -/
theorem fabricTick_of_waiting (hm : (s.dev.core k).fab.run.bind (s.dev.core k).cmd = some m)
    (ht : fabTick s.params (if s.dev.opts.extEn then s.params.extPorts else 0) rets (s.dev.core k) m s.dev.freeCtr = none) :
    fabricTick s rets e k = s := by
  simp only [fabricTick, hm, ht, ite_self]

theorem fabricTick_of_served {c1 : Core} {ctr : Nat} (hm : (s.dev.core k).fab.run.bind (s.dev.core k).cmd = some m)
    (hf : (s.dev.core k).fab.frozen = false) (hr : (s.dev.core k).fab.tick < runTicks (s.dev.core k) m)
    (ht : fabTick s.params (if s.dev.opts.extEn then s.params.extPorts else 0) rets (s.dev.core k) m s.dev.freeCtr = some (c1, ctr)) :
    fabricTick s rets e k = onEcc s k e (fun s =>
      s.upd (fun d => countUsage ({ d with freeCtr := ctr }.setCore k c1) m.ctx (fun u => { u with vTicks := u.vTicks + 1 }))) := by
  have hruns : ¬ ((s.dev.core k).fab.frozen || decide (runTicks (s.dev.core k) m ≤ (s.dev.core k).fab.tick)) = true := by simp [hf, hr]
  simp only [fabricTick, hm, ht, if_neg hruns]

end

/-! ## KERNEL_RUN_END (R187) -/

section
variable {m : Cmd}

theorem kernelEnd_of_noRun (h : (s.dev.core k).fab.run = none) : kernelEnd s k = s := by
  simp only [kernelEnd, h, Option.bind_none]

theorem kernelEnd_of_ticksLeft (hm : (s.dev.core k).fab.run.bind (s.dev.core k).cmd = some m)
    (ht : (s.dev.core k).fab.tick < runTicks (s.dev.core k) m) : kernelEnd s k = s := by
  simp only [kernelEnd, hm, ht, decide_true, Bool.or_true, if_true]

/-- With its ticks over, its gathered blocks written and its outputs closed, a run ends. -/
theorem kernelEnd_of_closed {us : List PUse} {c1 c2 : Core} {ctr : Nat} (hm : (s.dev.core k).fab.run.bind (s.dev.core k).cmd = some m)
    (hf : (s.dev.core k).fab.frozen = false) (ht : runTicks (s.dev.core k) m ≤ (s.dev.core k).fab.tick)
    (hu : us = portUses (Img.ofBytes ((s.dev.core k).fab.planes.getD (s.dev.core k).fab.plane Plane.zero).image) m)
    (hg : us.foldl (fun (acc : Core × Nat) u => if u.out then flushGather s.params acc.1 m u acc.2 else acc) (s.dev.core k, s.dev.freeCtr)
      = (c1, ctr))
    (hc : closeOutputs s.params us m c1 = some c2) :
    kernelEnd s k = s.upd (fun d => { d with freeCtr := ctr }.setCore k
      (Core.sweep s.params { c2.modCmd m.uid (fun m => { m with kdone := m.kdone + 1 }) with fab := { c2.fab with run := none } })) := by
  subst hu
  have hover : ¬ ((s.dev.core k).fab.frozen || decide ((s.dev.core k).fab.tick < runTicks (s.dev.core k) m)) = true := by
    simpa [hf] using ht
  simp only [kernelEnd, hm, if_neg hover, hg, hc]

end

/-! ## FAB_LOAD_COMPLETE (R183 to R185) -/

section
variable {m : Cmd} {n : Nat} {q : Plane} {bs : List Byte}

/-- The checks of an image read the options alone of the device, which a front copy leaves as they are. -/
theorem imageOk_frontTaken (uid code : Nat) : imageOk s.params (frontTaken s k uid code).dev bs = imageOk s.params s.dev bs := rfl

theorem fabLoad_of_active (hm : nextLoad s.params (s.dev.core k) = some m) (hn : n = fld (wordAt m.body 1) 0 0)
    (hq : q = (s.dev.core k).fab.planes.getD n Plane.zero) (hl : q.loading ≠ some m.uid) (hp : planeBefore (s.dev.core k) m = some n) :
    fabLoad s k = s.upd (fun d => d.modCore k (fun c => c.endLoad m.uid n { q with failed := true } (some .planeBusy))) := by
  subst hq hn
  simp only [fabLoad, hm]
  exact if_pos (by simpa [hp] using hl)

/-- A load under way whose whole image is here ends by the verdict of the image's checks. -/
theorem fabLoad_of_here (hm : nextLoad s.params (s.dev.core k) = some m) (hn : n = fld (wordAt m.body 1) 0 0)
    (hl : ((s.dev.core k).fab.planes.getD n Plane.zero).loading = some m.uid)
    (hh : FrontHere (s.dev.core k) m.uid 24 (imageBytes (s.dev.core k) m.uid))
    (hb : bs = frontBytes (s.dev.core k) m.uid 24 (imageBytes (s.dev.core k) m.uid)) :
    fabLoad s k = (frontTaken s k m.uid 24).upd (fun d => d.modCore k (fun c =>
      if imageOk s.params d bs then c.endLoad m.uid n ⟨true, m.func, none, bs, false⟩ none
      else c.endLoad m.uid n { Plane.zero with failed := true } (some .badParam))) := by
  subst hb hn
  simp only [fabLoad, hm, hl, bne_self_eq_false, Bool.false_and, beq_self_eq_true, if_true, frontStep_of_here hh]
  rfl

end

end Sys2Proof.Machine

namespace Sys2Proof

open Machine

/-- Settles O43: each command of the fabric is, in service, what its lemma above says of a run or load that goes on, waits or ends; the
verdict on an image is read before or after its requests are given up alike (`imageOk_frontTaken`). -/
theorem fabricCommands : Obligations.FabricCommands := by
  refine ⟨?start, ?begun, ?startNone, ?tick, ?tickWaits, ?noRun, ?ticksLeft, ?runEnd, ?active, ?loaded⟩
  case start =>
    intro s i k m hk hs hm
    rw [exec_kernelRunStart, onCore_of_inService hk hs]
    exact congrArg Host.Outcome.next (upd_modCore_congr (kernelStart_of_due hm))
  case begun =>
    intro c m n rows
    exact ⟨rfl, rfl, rfl, rfl, rfl, beginRun_active n rows⟩
  case startNone =>
    intro s i k hk hm
    cases hs : s.dev.inService
    case true =>
      rw [exec_kernelRunStart, onCore_of_inService hk hs, upd_modCore_congr (g := id) (kernelStart_of_none hm)]
      simp only [State.upd, hs, if_true]
    case false =>
      rw [exec_kernelRunStart, onCore_of_idle (.inr hs)]
      simp only [State.upd, hs, Bool.false_eq_true, if_false]
  case tick =>
    intro s i k rets m c1 ctr hk hs hm hf hr ht
    simp only [exec_fabricTick, onCore_of_inService hk hs, fabricTick_of_served hm hf hr ht, onEcc, and_self]
  case tickWaits =>
    intro s i k rets e m hk _ hm ht
    exact onCore_of_unchanged hk (fabricTick_of_waiting hm ht)
  case noRun =>
    intro s i k rets e hk h
    exact ⟨onCore_of_unchanged hk (fabricTick_of_noRun h), onCore_of_unchanged hk (kernelEnd_of_noRun h)⟩
  case ticksLeft =>
    intro s i k m hk _ hm ht
    exact onCore_of_unchanged hk (kernelEnd_of_ticksLeft hm ht)
  case runEnd =>
    intro s i k m us c1 ctr c2 hk hs hm hf ht hu hg hc
    rw [exec_kernelRunEnd, onCore_of_inService hk hs, kernelEnd_of_closed hm hf ht hu hg hc]
  case active =>
    intro s i k m n q hk hs hm hn hq hl hp
    rw [exec_fabLoadComplete, onCore_of_inService hk hs, fabLoad_of_active hm hn hq hl hp]
    rfl
  case loaded =>
    intro s i k m n bs hk hs hm hn hl hh hb
    rw [exec_fabLoadComplete, onCore_of_inService hk hs, fabLoad_of_here hm hn hl hh hb]
    refine ⟨fun hok => ?_, fun hbad => ?_⟩
    · simp only [State.upd, imageOk_frontTaken, hok, if_true]
      rfl
    · simp only [State.upd, imageOk_frontTaken, hbad, Bool.false_eq_true, if_false]
      rfl

end Sys2Proof
end

section
/-! The stall watchdog: which commands of a core it and an abort of another core fail, and when neither acts. -/

namespace Sys2Proof.Machine

variable {s : State} {i k own src : Nat} {m : Cmd} {ws : List (Nat × Nat)} {rest : List (Cmd × List (Nat × Nat))}

theorem exec_stallWatchdog (s : State) (i : Nat) : exec (.stallWatchdog i) s = onCore s i (stallFire s) := rfl

theorem exec_watchdogAbort (s : State) (i src : Nat) : exec (.watchdogAbort i src) s = onCore s i (abortFire s src) := rfl

/-- R237: a watchdog that does not count does not fire. -/
theorem stallFire_of_stopped (h : watchdogRuns s.params s.dev k ((siteIndex s.dev k).getD 0) = false) : stallFire s k = s := by
  simp [stallFire, h]

/-- R238: the first waiting command of the core fails. -/
theorem stallFire_of_waiting (ho : own = (siteIndex s.dev k).getD 0) (hr : watchdogRuns s.params s.dev k own = true)
    (hw : waitingCmds s.params s.dev k own = (m, ws) :: rest) :
    stallFire s k = s.upd (fun d => stallFail (d.modCore k (fun c => { c with wdCount := 2 ^ 20 })) k own m ws) := by
  subst ho
  simp only [stallFire, hr, hw, Bool.not_true, Bool.false_eq_true, if_false, watchdogLimit]

/-- An abort passes a core none of whose commands waits on the aborting one. -/
theorem abortFire_of_unawaited (ho : own = (siteIndex s.dev k).getD 0)
    (hw : ∀ e ∈ waitingCmds s.params s.dev k own, ∀ w ∈ e.2, w.1 ≠ src) : abortFire s src k = s := by
  subst ho
  have hnone (f : Cmd × List (Nat × Nat) → Bool) :
      (waitingCmds s.params s.dev k ((siteIndex s.dev k).getD 0)).find? (fun e => e.2.any (fun w => w.1 == src) && f e) = none := by
    rw [List.find?_eq_none]
    intro e he
    have hany : e.2.any (fun w => w.1 == src) = false := by simpa using hw e he
    simp [hany]
  simp only [abortFire, hnone]

/-- An abort fails the first waiting command when that one waits on the aborting core, which no longer holds it. -/
theorem abortFire_of_awaited {j : Nat} (ho : own = (siteIndex s.dev k).getD 0)
    (hw : waitingCmds s.params s.dev k own = (m, ws) :: rest) (hsrc : ∃ w ∈ ws, w.1 = src) (hj : s.dev.siteOf src = some j)
    (hm : (s.dev.core j).cmd m.uid = none) : abortFire s src k = s.upd (fun d => stallFail d k own m ws) := by
  subst ho
  have hany : ws.any (fun w => w.1 == src) = true := by simpa using hsrc
  simp only [abortFire, hw, List.find?_cons, hany, hj, hm, Bool.and_self]

end Sys2Proof.Machine

namespace Sys2Proof

open Machine

/-- Settles O45, by the cases of `stallFire` and `abortFire` above. -/
theorem watchdogFailsTheWaitingCommand : Obligations.WatchdogFailsTheWaitingCommand := by
  refine ⟨?stopped, ?fires, ?unawaited, ?aborts⟩
  case stopped =>
    intro s i k hk h
    exact onCore_of_unchanged hk (stallFire_of_stopped h)
  case fires =>
    intro s i k own m ws rest hk hs ho hr hw
    rw [exec_stallWatchdog, onCore_of_inService hk hs, stallFire_of_waiting ho hr hw]
  case unawaited =>
    intro s i k src own hk ho hw
    exact onCore_of_unchanged hk (abortFire_of_unawaited ho hw)
  case aborts =>
    intro s i k src own m ws rest j hk hs ho hw hsrc hj hm
    rw [exec_watchdogAbort, onCore_of_inService hk hs, abortFire_of_awaited ho hw hsrc hj hm]

end Sys2Proof
end

section
/-! The stream engine: which command a channel works on and what its next read, write, arrival or FREE report leaves. -/

namespace Sys2Proof.Machine

variable {s : State} {i k run : Nat}

section
variable (s : State) (i run : Nat)

theorem exec_granuleIssue (two : Bool) : exec (.granuleIssue i run two) s = onCore s i (granuleIssue s run two) := rfl

theorem exec_writeUnitSend (e : Ecc) : exec (.writeUnitSend i run e) s = onCore s i (writeUnitSend s run e) := rfl

theorem exec_readDataArrival (req : Nat) : exec (.readDataArrival i req) s = onCore s i (dataArrival s req) := rfl

theorem exec_mcastFreeReport (iss : Nat) : exec (.mcastFreeReport i run iss) s = onCore s i (freeReport s run iss) := rfl

end

/-! ## GRANULE_ISSUE and WRITE_UNIT_SEND: the command at work (R214, R230) -/

section
variable {two : Bool} {e : Ecc} {m : Cmd}

theorem halted_of_haltRecord {c : Core} (h : c.halt.isSome = true ∨ c.fab.loadHalt.isSome = true) : c.halted = true := by
  simpa [Core.halted] using h

theorem granuleIssue_of_halted (h : (s.dev.core k).halted = true) : granuleIssue s run two k = s := by
  simp only [granuleIssue, h, if_true]

theorem writeUnitSend_of_halted (h : (s.dev.core k).halted = true) : writeUnitSend s run e k = s := by
  simp only [writeUnitSend, h, if_true]

theorem granuleIssue_of_channel (hh : (s.dev.core k).halted = false) (hr : run < 16)
    (hm : channelCmd s.params (s.dev.core k) run true = some m) (hc : m.copied = true)
    (ho : (s.dev.core k).mayStart s.params m.uid 0 = true) :
    granuleIssue s run two k = issueRegion s k ((siteIndex s.dev k).getD 0) m run two := by
  simp only [granuleIssue, hh, hr, hm, hc, ho, Bool.and_self, Bool.false_eq_true, if_false, if_true]

theorem granuleIssue_of_stream (hh : (s.dev.core k).halted = false) (hr : 16 ≤ run)
    (hm : streamCmd (s.dev.core k) (fun m => m.isOp rowCopy || m.isOp rowStats) = some m)
    (ho : (s.dev.core k).mayStart s.params m.uid 0 = true) :
    granuleIssue s run two k = streamIssue s k ((siteIndex s.dev k).getD 0) m := by
  simp only [granuleIssue, hh, Nat.not_lt.mpr hr, hm, ho, Bool.false_eq_true, if_false, if_true]

theorem writeUnitSend_of_channel (hh : (s.dev.core k).halted = false) (hr : run < 16)
    (hm : channelCmd s.params (s.dev.core k) run false = some m) (hc : m.copied = true)
    (ho : (s.dev.core k).mayStart s.params m.uid 0 = true) :
    writeUnitSend s run e k = unitSend s k ((siteIndex s.dev k).getD 0) m run e := by
  simp only [writeUnitSend, hh, hr, hm, hc, ho, Bool.and_self, Bool.false_eq_true, if_false, if_true]

theorem writeUnitSend_of_stream (hh : (s.dev.core k).halted = false) (hr : 16 ≤ run) :
    writeUnitSend s run e k = streamWrite s k ((siteIndex s.dev k).getD 0) := by
  simp only [writeUnitSend, hh, Nat.not_lt.mpr hr, Bool.false_eq_true, if_false]

end

/-! ## The next granule of a segment (R198, R214) -/

section
variable {m : Cmd} {n own va : Nat} {h : Chan} {two : Bool} {t : Target} {d : Dev}

/-- A unicast channel inside a segment has its next granule requested. -/
theorem issueRegion_of_inside (hc : chanOf s.params s.dev m n = some h) (hmc : h.x.mc = 0) (hi : inside (s.dev.core k) h = true) :
    issueRegion s k own m n two = issueNext s k own m.uid n two := by
  simp [issueRegion, hc, hmc, hi]

/-- A unicast run adds one request and sends it. -/
theorem addReqs_unicast (p : Params) (hmc : h.x.mc = 0) : addReqs p d k own m n h va two =
    (d.modCore k (fun c => { c with
      reqs := c.reqs ++ [memberReq c m n h h h.x va two], nextReq := c.nextReq + 1, moved := true }), [(k, (d.core k).nextReq)]) := by
  simp [addReqs, hmc, linkLine, memberReq, List.eraseDups_cons]

/-- A granule that is not the last of its segment, and that translates, is asked for alone and the channel moves one granule on. -/
theorem issueNext_of_translated (hm : (s.dev.core k).cmd m.uid = some m) (hc : chanOf s.params s.dev m n = some h) (hmc : h.x.mc = 0)
    (hva : (grans (h.pieces h.x (h.rg.segIdx - 1)))[h.rg.pos]? = some va)
    (hl : h.rg.pos + 1 < (grans (h.pieces h.x (h.rg.segIdx - 1))).length) (hk : h.x.kind = 0)
    (hx : coreXlate s.dev k m va .read = (.ok t, d)) :
    issueNext s k own m.uid n false = s.withDev (((d.modCore k (fun c => { c with
        reqs := c.reqs ++ [memberReq c m n h h h.x va false], nextReq := c.nextReq + 1, moved := true })).send s.params m.func m.ctx own t .read false
          (elemMask va ((h.pieces h.x (h.rg.segIdx - 1)).filter (fun q => gran q.va == va))) [] (.core k (d.core k).nextReq)).modCore k (fun c =>
      c.modCmd m.uid (fun m => m.modRegion n (fun r => { r with pos := r.pos + 1 })))) := by
  have hread : readKind h.x = .read := by simp [readKind, hk]
  have hopen : ¬ (grans (h.pieces h.x (h.rg.segIdx - 1))).length ≤ h.rg.pos + 1 := Nat.not_le.mpr hl
  simp [issueNext, hm, hc, hva, hread, hx, hk, hopen, addReqs_unicast s.params hmc]

end

/-! ## Stream packets (R294, R295) -/

section
variable {m : Cmd} {own va : Nat} {t : Target} {d : Dev} {e : Ecc}

/-- A COPY reads one granule a step. -/
theorem streamReads_of_copy (h : m.isOp rowStats = false) (g : Nat) : streamReads m g = [gran (wordAt m.body 0).toNat + 64 * g] := by
  simp [streamReads, h]

theorem streamIssue_of_translated (hs : m.isOp rowStats = false) (hva : va = gran (wordAt m.body 0).toNat + 64 * granAt m m.cursor)
    (hx : coreXlate s.dev k m va .read = (.ok t, d)) :
    streamIssue s k own m = s.withDev (((d.modCore k (fun c => { c with
        reqs := c.reqs ++ [⟨c.nextReq, m.uid, 16, granAt m m.cursor, 0, va, false, false, 0, [], [], [], []⟩], nextReq := c.nextReq + 1, moved := true })).send
          s.params m.func m.ctx own t .read false 0 [] (.core k (d.core k).nextReq)).modCore k (fun c =>
      c.modCmd m.uid (fun m => { m with cursor := m.cursor + 1 }))) := by
  subst hva
  simp [streamIssue, streamReads_of_copy hs, hx]

/-- The next granule that a FILL or ACC_CLEAR writes in this core: its 64-bit value throughout, or +0 in every element. -/
def packetGran (m : Cmd) : UnitGran :=
  ⟨(wordAt m.body 0).toNat + 64 * granAt m m.cursor, if m.isOp rowAccClear then 65535 else fullMask,
    if m.isOp rowAccClear then List.replicate 64 0 else wordsToBytes (List.replicate 8 (wordAt m.body 2))⟩

theorem unitTargets_singleton {d0 : Dev} {kind : Acc3} {g : UnitGran} (p : Params) (n gen what : Nat)
    (hx : coreXlate d0 k m g.va kind = (.ok t, d)) : unitTargets p d0 k m n kind gen what [g] [] = (d, some [(g, t)]) := by
  simp only [unitTargets, hx, List.nil_append]

/-- With no data of a COPY waiting, the next granule of a FILL or ACC_CLEAR that translates is sent. -/
theorem streamWrite_of_translated (hr : (s.dev.core k).reqs = [])
    (hm : streamCmd (s.dev.core k) (fun m => m.isOp rowFill || m.isOp rowAccClear) = some m)
    (ho : (s.dev.core k).mayStart s.params m.uid 0 = true)
    (hx : coreXlate s.dev k m (packetGran m).va (if m.isOp rowAccClear then .zeroRead else .write) = (.ok t, d)) :
    streamWrite s k own = s.withDev ((sendUnit s.params d k own m (if m.isOp rowAccClear then .clear else .write) 0 [(packetGran m, t)]).modCore k
      (fun c => c.modCmd m.uid (fun m => { m with cursor := m.cursor + 1 }))) := by
  have hu := unitTargets_singleton s.params 16 0 0 hx
  unfold packetGran at hu ⊢
  simp only [streamWrite, hr, List.find?_nil, hm, ho, hu, Bool.not_true, Bool.false_eq_true, if_false]

end

/-! ## READ_DATA_ARRIVAL (R199, R200) -/

section
variable {r : CoreReq} {m : Cmd} {d : Dev} {p : Params}

theorem dataArrival_of_answered {req : Nat} (h : (s.dev.core k).reqs.find? (fun r => r.id == req && mayArrive (s.dev.core k) r) = some r) :
    dataArrival s req k = s.upd (fun d => arrive s.params d k r) := by
  simp only [dataArrival, h]

/-- Bytes of a failed command are dropped. -/
theorem arrive_of_failed (hm : (d.core k).cmd r.uid = some m) (hf : m.fail.isSome = true) :
    arrive p d k r = d.modCore k (fun c => { c with reqs := c.reqs.filter (fun x => x.id != r.id), moved := true }) := by
  simp [arrive, hm, hf]

/-- Bytes of a COPY are kept for its write. -/
theorem arrive_of_copy (hm : (d.core k).cmd r.uid = some m) (hf : m.fail = none) (hst : r.state = 1) (hr : r.region = 16)
    (hs : m.isOp rowStats = false) : arrive p d k r = d.modCore k (fun c =>
      { c with reqs := c.reqs.map (fun x => if x.id == r.id then { x with state := 3 } else x), moved := true }) := by
  simp [arrive, hm, hf, hst, hr, hs]

/-- Bytes of a run are placed in its region, whose segment is FULL once nothing of it is outstanding. -/
theorem arrive_of_run {rg : Region} (hm : (d.core k).cmd r.uid = some m) (hf : m.fail = none) (hst : r.state = 1) (hr : r.region ≠ 16)
    (hrg : m.region r.region = some rg) (hp : r.pads = []) : arrive p d k r = d.modCore k (fun c => Core.sweep p (settleSeg
      (r.place.foldl (fun c q => c.put p rg.shape (m.desc ((m.descsOf r.region).headD 0)) q.1 ((r.data.drop q.2.1).take q.2.2))
        { c with reqs := c.reqs.filter (fun x => x.id != r.id), moved := true }) m.uid r.region rg.key r.seg)) := by
  simp [arrive, hm, hf, hst, hr, hrg, hp]

end

/-! ## MCAST_FREE_REPORT (R219) -/

section
variable {iss ki : Nat} {m mi : Cmd} {h : Chan}

/-- What a FREE report needs of the member at site k, its channel `h` of command `m`, and the issuer `iss` that holds the command as `mi`:
a multicast of that issuer with the member in it, neither held up, and a segment that the member can begin. -/
structure CreditDue (s : State) (k iss : Nat) (m mi : Cmd) (h : Chan) : Prop where
  multicast : h.x.mc ≠ 0
  fromOther : iss ≠ (siteIndex s.dev k).getD 0
  issuer : issuerOf h.x = iss
  member : (siteIndex s.dev k).getD 0 ∈ mcMembers h.x
  notHalted : (s.dev.core k).halted = false
  copied : m.copied = true
  issuerCopied : mi.copied = true
  issuerSound : mi.fail = none
  mayStart : (s.dev.core k).mayStart s.params m.uid 0 = true
  between : inside (s.dev.core k) h = false
  turn : (s.dev.core k).producerTurn s.params m.uid h.rg.key = true
  free : ((s.dev.core k).ring h.rg.key).canBegin = true

/-- The member begins its next segment and the issuer takes the credit. -/
theorem freeReport_of_due (hm : channelCmd s.params (s.dev.core k) run true = some m) (hki : s.dev.siteOf iss = some ki)
    (hcl : (s.dev.core ki).clearing = false) (hc : chanOf s.params s.dev m run = some h) (hmi : (s.dev.core ki).cmd m.uid = some mi)
    (hd : CreditDue s k iss m mi h) :
    freeReport s run iss k = s.upd (fun d => (d.modCore k (fun c => beginNext s.params c m run h)).modCore ki (fun c =>
      c.modCmd m.uid (fun y => y.modRegion (mi.desc h.di).region (fun r =>
        { r with credited := Tbl.set ((siteIndex s.dev k).getD 0) (Tbl.get 0 ((siteIndex s.dev k).getD 0) r.credited + 1) r.credited })))) := by
  simp [freeReport, hm, hki, hcl, hc, hmi, hd.multicast, hd.fromOther, hd.issuer, hd.member, hd.notHalted, hd.copied, hd.issuerCopied,
    hd.issuerSound, hd.mayStart, hd.between, hd.turn, hd.free]

theorem freeReport_of_idle (h : channelCmd s.params (s.dev.core k) run true = none) : freeReport s run iss k = s := by
  simp only [freeReport, h]

end

end Sys2Proof.Machine

namespace Sys2Proof

open Machine

/-- Settles O44: each command of the stream engine is, in service, what its lemma above says of the channel, stream packet or request it
works on. -/
theorem streamCommands : Obligations.StreamCommands := by
  refine ⟨?halted, ?region, ?granule, ?packet, ?copy, ?unit, ?write, ?arrival, ?report, ?idle⟩
  case halted =>
    intro s i k run two e hk h
    have hh := halted_of_haltRecord h
    exact ⟨onCore_of_unchanged hk (granuleIssue_of_halted hh), onCore_of_unchanged hk (writeUnitSend_of_halted hh)⟩
  case region =>
    intro s i k run two m hk hs hh hr hm hc ho
    rw [exec_granuleIssue, onCore_of_inService hk hs, granuleIssue_of_channel hh hr hm hc ho]
  case granule =>
    intro s k own m n h va t d hc hmc hi hm hva hl hkind hx
    rw [issueRegion_of_inside hc hmc hi, issueNext_of_translated hm hc hmc hva hl hkind hx]
  case packet =>
    intro s i k run two m hk hs hh hr hm ho
    rw [exec_granuleIssue, onCore_of_inService hk hs, granuleIssue_of_stream hh hr hm ho]
  case copy =>
    intro s k own m va t d hstats hva hx
    exact streamIssue_of_translated hstats hva hx
  case unit =>
    intro s i k run e m hk hs hh hr hm hc ho
    rw [exec_writeUnitSend, onCore_of_inService hk hs, writeUnitSend_of_channel hh hr hm hc ho]
  case write =>
    intro s i k run e m own va t d hk hs hh hr hreqs hm ho hown hva
    subst hown hva
    rw [exec_writeUnitSend, onCore_of_inService hk hs, writeUnitSend_of_stream hh hr]
    refine ⟨fun hop hx => ?_, fun hop hx => ?_⟩
    · have hg : coreXlate s.dev k m (packetGran m).va (if m.isOp rowAccClear then .zeroRead else .write) = (.ok t, d) := by
        simpa [packetGran, hop] using hx
      simp [streamWrite_of_translated hreqs hm ho hg, packetGran, hop]
    · have hg : coreXlate s.dev k m (packetGran m).va (if m.isOp rowAccClear then .zeroRead else .write) = (.ok t, d) := by
        simpa [packetGran, hop] using hx
      simp [streamWrite_of_translated hreqs hm ho hg, packetGran, hop]
  case arrival =>
    intro s i k req r m hk hs hr hm
    rw [exec_readDataArrival, onCore_of_inService hk hs, dataArrival_of_answered hr]
    refine ⟨fun hf => ?_, fun hf hst hreg hop => ?_, fun rg x hf hst hreg hrg hp hx => ?_⟩
    · simp only [State.upd, arrive_of_failed hm hf]
    · simp only [State.upd, arrive_of_copy hm hf hst hreg hop]
    · subst hx
      simp only [State.upd, arrive_of_run hm hf hst hreg hrg hp]
  case report =>
    intro s i k run iss ki m h mi hk hs hm hki hcl hc hmi hmc hne hiss hmem hh hcop hmcop hmf ho hin hturn hbegin
    have hd : CreditDue s k iss m mi h :=
      ⟨hmc, hne, hiss, List.contains_iff_mem.mp hmem, hh, hcop, hmcop, hmf, ho, hin, hturn, hbegin⟩
    rw [exec_mcastFreeReport, onCore_of_inService hk hs, freeReport_of_due hm hki hcl hc hmi hd]
  case idle =>
    intro s i k run iss hk h
    exact onCore_of_unchanged hk (freeReport_of_idle h)

end Sys2Proof
end

section
/-! The dispatch of a queue: what a stop, a refusal, a fault record and the arbiter's charge leave of a queue, and the packet that comes next. -/

namespace Sys2Proof.Machine

variable {s : State} {d : Dev} {q : QRef} {sem : OpSem} {f : Nat}

/-! ## What leaves queues alone -/

@[simp] theorem Dev.writeHeld_queue (d : Dev) (f : Nat) (q : QRef) : (d.writeHeld f).queue q = d.queue q := by
  unfold Dev.writeHeld
  split
  · rfl
  · simp only [Dev.putRecord, Dev.issueWrite, Dev.setRing, Dev.raise, Dev.issue_eq]
    split <;> simp

@[simp] theorem Dev.fault_queue (d : Dev) (f : Nat) (i : FInfo) (q : QRef) : (d.fault f i).queue q = d.queue q := by
  unfold Dev.fault
  split <;> simp

@[simp] theorem submitFault_queue (d : Dev) (f win : Nat) (st : Status) (n c tag : Nat) (q : QRef) :
    (submitFault d f win st n c tag).queue q = d.queue q := Dev.fault_queue _ _ _ _

/-- Completed packets give up what they hold; nothing else of their queue changes (R366). -/
theorem dropDone_queue (s : State) (q : QRef) :
    (dropDone s q).dev.queue q = { s.dev.queue q with flight := ((dropDone s q).dev.queue q).flight } := by
  unfold dropDone
  dsimp only
  split
  · rfl
  · rw [(dropRefs_step _ _).queue]
    simp

theorem dropDone_of_noHolds (h : ∀ p ∈ (s.dev.queue q).flight, p.done = true → p.holds = []) : dropDone s q = s := by
  have hheld : ((s.dev.queue q).flight.filter (·.done)).flatMap (·.holds) = [] := by
    rw [List.flatMap_eq_nil_iff]
    intro p hp
    obtain ⟨hm, hd⟩ := List.mem_filter.mp hp
    exact h p hm hd
  simp [dropDone, hheld]

/-! ## A queue stops (R256, R262) -/

theorem endReplay_of_none (h : (d.queue q).replay = none) : endReplay d q = d := by
  simp [endReplay, h]

/-- The end of a replay leaves all of its queue but the replay, Q_ACCEPTED and the packets in flight. -/
theorem endReplay_queue (d : Dev) (q : QRef) : (endReplay d q).queue q = { d.queue q with
    replay := ((endReplay d q).queue q).replay, accepted := ((endReplay d q).queue q).accepted, flight := ((endReplay d q).queue q).flight } := by
  unfold endReplay
  split
  · rfl
  · split <;> simp

/-- What a queue that exists is once it has stopped: FAILED where the case sets it, STOP_STATUS the status of its first stop. -/
theorem stopQueue_queue {st : Nat} {b : Bool} (h : (d.queue q).state ≠ .absent) : (stopQueue d q st b).queue q = { d.queue q with
    failed := (d.queue q).failed || b, state := .stopped
    stopStatus := if (d.queue q).state = .running then BitVec.ofNat 8 st else (d.queue q).stopStatus
    replay := ((stopQueue d q st b).queue q).replay, accepted := ((stopQueue d q st b).queue q).accepted
    flight := ((stopQueue d q st b).queue q).flight } := by
  have hs : ((d.queue q).state == .absent) = false := by simpa using h
  unfold stopQueue
  simp only [hs, Bool.false_eq_true, if_false]
  conv_lhs => rw [endReplay_queue]
  simp

/-- Outside a replay the stop is all that happens to the queue. -/
theorem stopQueue_of_noReplay {st : Nat} {b : Bool} (h : (d.queue q).state ≠ .absent) (hr : (d.queue q).replay = none) :
    stopQueue d q st b = d.setQueue q { d.queue q with
      failed := (d.queue q).failed || b, state := .stopped
      stopStatus := if (d.queue q).state = .running then BitVec.ofNat 8 st else (d.queue q).stopStatus } := by
  have hs : ((d.queue q).state == .absent) = false := by simpa using h
  simp only [stopQueue, hs, Bool.false_eq_true, if_false, beq_iff_eq]
  exact endReplay_of_none (by simpa using hr)

/-! ## A refused packet (R254, R256) -/

theorem Dev.modPkt_queue (d : Dev) (q : QRef) (uid : Nat) (g : Pkt → Pkt) :
    (d.modPkt q uid g).queue q = { d.queue q with flight := (d.queue q).flight.map (fun p => if p.uid == uid then g p else p) } := by
  simp [Dev.modPkt]

/-- The state whose queue a refusal stops has the queue as it was, but for the packet itself. -/
theorem refusePkt_dev (s : State) (q : QRef) (uid : Nat) (st : Status) (det : Word) :
    ∃ d' : Dev, (refusePkt s q uid st det).dev = stopQueue d' q st.code true ∧
      d'.queue q = { s.dev.queue q with flight := (d'.queue q).flight } := by
  unfold refusePkt
  dsimp only
  cases (s.dev.pkt q uid).bind (·.waitHold) with
  | none => exact ⟨_, State.upd_dev _ _, by rw [Dev.modPkt_queue]⟩
  | some r => exact ⟨_, State.upd_dev _ _, by rw [Dev.modPkt_queue, (dropRef_step s r).queue]⟩

theorem refusePkt_queue {uid : Nat} {st : Status} {det : Word} (h : (s.dev.queue q).state ≠ .absent) :
    (refusePkt s q uid st det).dev.queue q = { s.dev.queue q with
      failed := true, state := .stopped
      stopStatus := if (s.dev.queue q).state = .running then BitVec.ofNat 8 st.code else (s.dev.queue q).stopStatus
      replay := ((refusePkt s q uid st det).dev.queue q).replay, accepted := ((refusePkt s q uid st det).dev.queue q).accepted
      flight := ((refusePkt s q uid st det).dev.queue q).flight } := by
  obtain ⟨d', hd, hq⟩ := refusePkt_dev s q uid st det
  have hstate : (d'.queue q).state ≠ .absent := by rw [hq]; exact h
  rw [hd]
  conv_lhs => rw [stopQueue_queue hstate, hq]
  simp

/-- Outside a replay a refused packet is not counted in Q_ACCEPTED. -/
theorem refusePkt_accepted {uid : Nat} {st : Status} {det : Word} (h : (s.dev.queue q).state ≠ .absent) (hr : (s.dev.queue q).replay = none) :
    ((refusePkt s q uid st det).dev.queue q).accepted = (s.dev.queue q).accepted := by
  obtain ⟨d', hd, hq⟩ := refusePkt_dev s q uid st det
  rw [hd, stopQueue_of_noReplay (by rw [hq]; exact h) (by rw [hq]; exact hr), Dev.setQueue_queue_self, hq]

end Sys2Proof.Machine
end

section
/-! The way of a packet through R254: the arbiter's charge, the packet that comes next, and steps 1 to 9 on a control queue and at a predicate
that skips. -/

namespace Sys2Proof.Machine

variable {s : State} {d : Dev} {q : QRef} {sem : OpSem} {f : Nat} {p : Pkt}

/-! ## The charge of the dispatch arbiter (R445) -/

theorem Tbl.get_of_not_mem {α : Type} {e : α} {k : Nat} {t : List (Nat × α)} (h : k ∉ t.map (·.1)) : Tbl.get e k t = e := by
  induction t with
  | nil => rfl
  | cons x t ih =>
    simp only [List.map_cons, List.mem_cons, not_or] at h
    simp only [Tbl.get, if_neg (Ne.symm h.1), ih h.2]

/-- Keys written one after the other with values of their own. -/
theorem Tbl.get_foldl_set (w : Nat → Nat) (gs : List Nat) (g : Nat) (t : List (Nat × Nat)) :
    Tbl.get 0 g (gs.foldl (fun t h => Tbl.set h (w h) t) t) = if g ∈ gs then w g else Tbl.get 0 g t := by
  induction gs generalizing t with
  | nil => simp
  | cons h gs ih =>
    rw [List.foldl_cons, ih, Tbl.get_set]
    by_cases hg : g = h
    · simp [hg]
    · simp [hg]

theorem mem_dispWeighted {g : Nat} (h : 0 < dispWeight d g) : g ∈ dispWeighted d := by
  refine List.mem_filter.mpr ⟨?_, decide_eq_true h⟩
  by_contra hn
  have hq : (d.fn g).qosNow = 0 := congrArg FuncSt.qosNow (Tbl.get_of_not_mem hn)
  simp [dispWeight, hq, bitOf] at h

@[simp] theorem dispCharge_queue (d : Dev) (q q' : QRef) : (dispCharge d q).queue q' = d.queue q' := by
  cases q' <;> rfl

theorem dispCharge_eq (d : Dev) (q : QRef) : dispCharge d q = { d with panels := (dispCharge d q).panels } := rfl

theorem dispCharge_panel_ne {n : Nat} (h : n ≠ (d.queue q).home) : (dispCharge d q).panel n = d.panel n := Dev.setPanel_panel_ne _ _ _ h

theorem dispCharge_dispLast (d : Dev) (q : QRef) : ((dispCharge d q).panel (d.queue q).home).dispLast = (d.queue q).func := by
  simp [dispCharge]

/-- A function without weight is charged nothing. -/
theorem dispCharge_of_weightless (h : dispWeight d (d.queue q).func = 0) :
    ((dispCharge d q).panel (d.queue q).home).dispCredits = (d.panel (d.queue q).home).dispCredits := by
  simp [dispCharge, h]

theorem dispCharge_of_credit (hw : 0 < dispWeight d (d.queue q).func)
    (hc : 0 < Tbl.get 0 (d.queue q).func (d.panel (d.queue q).home).dispCredits) :
    ((dispCharge d q).panel (d.queue q).home).dispCredits =
      Tbl.set (d.queue q).func (Tbl.get 0 (d.queue q).func (d.panel (d.queue q).home).dispCredits - 1) (d.panel (d.queue q).home).dispCredits := by
  simp [dispCharge, hw, Nat.pos_iff_ne_zero.mp hc]

/-- With the credits of its function used up, the charge is taken after a reload of every weighted function's. -/
theorem dispCharge_of_reload (hw : 0 < dispWeight d (d.queue q).func)
    (hc : Tbl.get 0 (d.queue q).func (d.panel (d.queue q).home).dispCredits = 0) (g : Nat) (hg : 0 < dispWeight d g) :
    Tbl.get 0 g ((dispCharge d q).panel (d.queue q).home).dispCredits = if g = (d.queue q).func then dispWeight d g - 1 else dispWeight d g := by
  simp only [dispCharge, Dev.modPanel_eq, Dev.setPanel_panel_self, hw, hc, and_self, if_true, Tbl.get_set, Tbl.get_foldl_set,
    mem_dispWeighted hw, mem_dispWeighted hg]
  split
  · next h => rw [h]
  · rfl

/-! ## The next packet (R254, R255, R445) -/

theorem find?_inside_of_mayBegin (h : mayBegin d q = true) : (d.queue q).flight.find? Pkt.inside = none := by
  simp only [mayBegin, Bool.and_eq_true, Bool.not_eq_true', List.any_eq_false] at h
  obtain ⟨⟨-, hinside⟩, -⟩ := h
  exact List.find?_eq_none.mpr hinside

theorem mayBegin_of_stopped (h : (d.queue q).state ≠ .running) : mayBegin d q = false := by
  simp [mayBegin, mayGoOn, h]

theorem mayBegin_of_readAhead (h : (d.queue q).readAhead ≤ ((d.queue q).flight.filter Pkt.counts).length) : mayBegin d q = false := by
  simp [mayBegin, Nat.not_lt.mpr h]

theorem state_of_mayBegin (h : mayBegin d q = true) : (d.queue q).state = .running := by
  by_contra hn
  rw [mayBegin_of_stopped hn] at h
  cases h

/-- With no packet inside R254, none begins where the queue may not begin one, where another queue is granted, or where the ring is empty. -/
theorem nextPkt_of_blocked (hi : (s.dev.queue q).flight.find? Pkt.inside = none)
    (h : mayBegin s.dev q = false ∨ dispPick s.dev (s.dev.queue q).home ≠ some q ∨
      ((s.dev.queue q).replay = none ∧ (s.dev.queue q).entered = (s.dev.queue q).posted)) : nextPkt s q = .none := by
  unfold nextPkt
  dsimp only
  rw [hi]
  dsimp only
  obtain h | h | ⟨hr, he⟩ := h
  · simp [h]
  · simp [h]
  · split
    · rfl
    · simp [hr, he]

theorem acceptRow_of_none (h : nextPkt s q = .none) : acceptRow sem q s = dropDone s q :=
  acceptRow_of_out (by unfold reach; rw [h])

theorem CtlReady.mayBegin (h : CtlReady s f) : mayBegin s.dev (.ctl f) = true := by
  obtain ⟨hb, -⟩ := h
  exact hb

theorem CtlReady.noReplay (h : CtlReady s f) : (s.dev.queue (.ctl f)).replay = none := by
  obtain ⟨-, -, hr, -⟩ := h
  exact hr

/-- No packet in flight has the number that the next one takes. -/
theorem CtlReady.fresh (h : CtlReady s f) : ∀ x ∈ (s.dev.queue (.ctl f)).flight, x.uid ≠ s.dev.nextUid := by
  obtain ⟨-, -, -, -, hu⟩ := h
  exact hu

/-- The packet at the head of a control ring enters flight. -/
theorem nextPkt_of_ctlReady (h : CtlReady s f) : nextPkt s (.ctl f) = .enter (ctlNext s f) (s.dev.queue (.ctl f)).entered 0xFFFF none := by
  obtain ⟨hb, hp, hr, he, -⟩ := h
  unfold nextPkt
  dsimp only
  rw [find?_inside_of_mayBegin hb]
  dsimp only
  simp only [hb, hp, hr, Bool.not_true, bne_self_eq_false, Bool.or_self, Bool.false_eq_true, if_false, beq_iff_eq, he]
  rfl

theorem startPkt_ctl (s : State) (f : Nat) : startPkt s.dev (.ctl f) (ctlNext s f) (s.dev.queue (.ctl f)).entered 0xFFFF none =
    ((ctlWith s f (ctlPkt s f)).dev, s.dev.nextUid) := rfl

theorem nextTouch_ctl (h : (s.dev.queue (.ctl f)).replay = none) : nextTouch s (.ctl f) = s := by
  simp only [nextTouch, h, slotTouch]

/-- Step 1 refuses the packet that a control queue takes next, or passes it on with the packet in flight. -/
theorem reach_of_ctlReady (h : CtlReady s f) (ht : rowTakes sem.row (ctlPkt s f) = true) :
    reach sem (.ctl f) s = (step1For s.dev (.ctl f) (ctlPkt s f)).elim (steps2 sem (ctlWith s f (ctlPkt s f)) (.ctl f) (ctlPkt s f))
      (fun st => .out (refusePkt (ctlWith s f (ctlPkt s f)) (.ctl f) s.dev.nextUid st 0)) := by
  unfold ctlPkt at ht
  unfold reach
  rw [nextPkt_of_ctlReady h]
  dsimp only
  rw [nextTouch_ctl h.noReplay, startPkt_ctl]
  dsimp only
  rw [ht]
  unfold ctlPkt
  cases step1For s.dev (.ctl f) (newPkt (.ctl f) (s.dev.queue (.ctl f)) s.dev.nextUid (s.dev.queue (.ctl f)).entered 0xFFFF (ctlNext s f) none) <;> rfl

end Sys2Proof.Machine
end

section
/-! Steps 2 to 9 of a control packet, and a packet that its predicate skips. -/

namespace Sys2Proof.Machine

variable {s : State} {d : Dev} {q : QRef} {sem : OpSem} {f : Nat} {p : Pkt}

/-! ## Steps 2 to 9 on a control queue -/

theorem OpRow.beq_of_cls_ne {r r' : OpRow} (h : r.cls ≠ r'.cls) : (r == r') = false :=
  beq_eq_false_iff_ne.mpr fun e => h (congrArg OpRow.cls e)

theorem OpRow.work_of_control {r : OpRow} (h : r.cls = 0) : r.work = false := by
  have hne : ∀ r' : OpRow, r'.cls ≠ 0 → (r == r') = false := fun r' h' => OpRow.beq_of_cls_ne (h ▸ h'.symm)
  simp [OpRow.work, hne, rowMatmul, rowFabRun, rowChain]

theorem OpRow.multi_of_control {r : OpRow} (h : r.cls = 0) : r.multi = false := by
  have hne : ∀ r' : OpRow, r'.cls ≠ 0 → (r == r') = false := fun r' h' => OpRow.beq_of_cls_ne (h ▸ h'.symm)
  simp [OpRow.multi, OpRow.work_of_control h, hne, rowCopy, rowFill, rowAccClear, rowStats, rowFabLoad, rowBar, rowSeam, rowMark, rowFitting]

theorem checkHandles_of_noHandles {prm : Params} {row : OpRow} (h : row.handles = []) : checkHandles prm d row p = .ok [] := by
  simp only [checkHandles, namedHandles, h, List.filter_nil, List.mapM_nil]
  rfl

theorem handleWordsOk_of_noHandles {row : OpRow} (h : row.handles = []) : handleWordsOk row p = true := by
  simp [handleWordsOk, h]

theorem sigAction_of_ctl {prm : Params} (h : p.isCtl = true) : sigAction prm d p = .ok none := by
  simp [sigAction, h]

theorem step3_of_ctl {prm : Params} (h : p.isCtl = true) : step3 prm d q p = .pass d := by
  simp [step3, h]

theorem step2_of_ctl (h : p.isCtl = true) : step2 d p = true := by
  simp [step2, h]

theorem Dev.setQueue_setQueue (d : Dev) (q : QRef) (x y : Queue) : (d.setQueue q x).setQueue q y = d.setQueue q y := by
  cases q <;> simp [Dev.setQueue]

theorem Dev.nextUid_queue (d : Dev) (n : Nat) (q : QRef) : ({ d with nextUid := n } : Dev).queue q = d.queue q := by
  cases q <;> rfl

theorem Dev.nextUid_setQueue (d : Dev) (n : Nat) (q : QRef) (x : Queue) :
    ({ d with nextUid := n } : Dev).setQueue q x = { d.setQueue q x with nextUid := n } := by
  cases q <;> rfl

/-- The charge looks at the function and the home panel of the queue alone. -/
theorem dispCharge_setQueue {x : Queue} (hf : x.func = (d.queue q).func) (hh : x.home = (d.queue q).home) :
    (dispCharge d q).setQueue q x = dispCharge (d.setQueue q x) q := by
  unfold dispCharge
  dsimp only
  rw [Dev.setQueue_queue_self, hf, hh]
  cases q <;> rfl

theorem map_pkt_of_uid_ne {l : List Pkt} {uid : Nat} (h : ∀ x ∈ l, x.uid ≠ uid) (g : Pkt → Pkt) :
    l.map (fun x => if x.uid == uid then g x else x) = l := by
  conv_rhs => rw [← List.map_id l]
  exact List.map_congr_left fun x hx => by simp [h x hx]

theorem Dev.modPkt_eq (d : Dev) (q : QRef) (uid : Nat) (g : Pkt → Pkt) : d.modPkt q uid g =
    d.setQueue q { d.queue q with flight := (d.queue q).flight.map (fun x => if x.uid == uid then g x else x) } := rfl

theorem ctlWith_queue (s : State) (f : Nat) (p : Pkt) : (ctlWith s f p).dev.queue (.ctl f) = { s.dev.queue (.ctl f) with
    flight := (s.dev.queue (.ctl f)).flight ++ [p], entered := (s.dev.queue (.ctl f)).entered + 1 } := by
  unfold ctlWith
  rw [State.withDev_dev, dispCharge_queue, Dev.nextUid_queue, Dev.setQueue_queue_self]

/-- A rewrite of the packet that a control queue has just taken rewrites that packet alone. -/
theorem ctlWith_modPkt (hu : ∀ x ∈ (s.dev.queue (.ctl f)).flight, x.uid ≠ s.dev.nextUid) (hp : p.uid = s.dev.nextUid) (g : Pkt → Pkt) :
    (ctlWith s f p).upd (fun d => d.modPkt (.ctl f) s.dev.nextUid g) = ctlWith s f (g p) := by
  have hflight : ((s.dev.queue (.ctl f)).flight ++ [p]).map (fun x => if x.uid == s.dev.nextUid then g x else x) =
      (s.dev.queue (.ctl f)).flight ++ [g p] := by
    rw [List.map_append, map_pkt_of_uid_ne hu, List.map_singleton, hp, beq_self_eq_true, if_pos rfl]
  refine congrArg s.withDev (?_ : (ctlWith s f p).dev.modPkt (.ctl f) s.dev.nextUid g = _)
  rw [Dev.modPkt_eq, ctlWith_queue]
  dsimp only
  rw [hflight]
  unfold ctlWith
  rw [State.withDev_dev, dispCharge_setQueue, Dev.nextUid_setQueue, Dev.setQueue_setQueue]
  · exact (congrArg Queue.func (ctlWith_queue s f p)).symm
  · exact (congrArg Queue.home (ctlWith_queue s f p)).symm

theorem ctlWith_pkt (hu : ∀ x ∈ (s.dev.queue (.ctl f)).flight, x.uid ≠ s.dev.nextUid) (hp : p.uid = s.dev.nextUid) :
    (ctlWith s f p).dev.pkt (.ctl f) s.dev.nextUid = some p := by
  have hold : (s.dev.queue (.ctl f)).flight.find? (fun x => x.uid == s.dev.nextUid) = none :=
    List.find?_eq_none.mpr fun x hx => by simp [hu x hx]
  unfold Dev.pkt
  rw [ctlWith_queue]
  simp [List.find?_append, hold, hp]

/-- Steps 2 to 4 leave a control packet to steps 5 to 9. -/
theorem steps2_of_ctl (hst : p.stage = .entered) (hc : p.isCtl = true) :
    steps2 sem s q p = steps5 sem s q p ((s.dev.pkt q p.uid).bind (·.waitHold)) := by
  have hten : (p.stage == .atTen) = false := by rw [hst]; rfl
  simp only [steps2, hten, step2_of_ctl hc, step3_of_ctl hc, hc, Bool.not_true, Bool.false_and, Bool.false_eq_true, if_false]
  rfl

/-- A control packet as steps 5 to 9 leave it: it holds no object and acts on no tack, and its result register is noted. -/
def ctlChecked (row : OpRow) (p : Pkt) : Pkt :=
  { p with holds := [], sigTack := none, ownTack := none, push := none, pop := none, pendReg := resultReg row p, waitHold := none, waitEnded := false }

/-- A packet that has just entered R254 holds nothing, so that only its result register is new. -/
theorem ctlChecked_ctlPkt (row : OpRow) (s : State) (f : Nat) :
    ctlChecked row (ctlPkt s f) = { ctlPkt s f with pendReg := resultReg row (ctlPkt s f) } := rfl

/-- Steps 5 to 9 bring a control packet that passes its checks to step 10. -/
theorem steps5_of_ctl (hc : p.isCtl = true) (hcls : sem.row.cls = 0) (hh : sem.row.handles = [])
    (hs : s.upd (fun d => d.modPkt q p.uid (fun x => { x with words := p.words })) = s)
    (hbody : bodyOk sem.row p = true) (hres : resultOk sem.row p = true) (hchk : sem.check s p = true)
    (hf0 : sem.row.f0 = true → p.func = 0) (hown : sem.own s p = none) :
    steps5 sem s q p none = .ten (s.upd (fun d => d.modPkt q p.uid (fun _ => ctlChecked sem.row p))) (ctlChecked sem.row p) := by
  have hf : (sem.row.f0 && p.func != 0) = false := by
    cases h0 : sem.row.f0 with
    | false => rfl
    | true => simp [hf0 h0]
  have hw := OpRow.work_of_control hcls
  unfold steps5 ctlChecked
  simp only [hc, if_true, hs, OpRow.multi_of_control hcls, Bool.false_and, Bool.false_eq_true, if_false, hbody, hres, hchk,
    handleWordsOk_of_noHandles hh, checkHandles_of_noHandles hh, Bool.and_self, Bool.not_true, hf, hown, sigAction_of_ctl hc, hw]
  simp

/-- R254 on a control queue: the packet comes to step 10 with nothing but its result register noted. -/
theorem reach_ctl_ten (h : CtlReady s f) (hop : (ctlPkt s f).isOp sem.row = true) (hcls : sem.row.cls = 0) (hh : sem.row.handles = [])
    (h1 : step1For s.dev (.ctl f) (ctlPkt s f) = none) (hbody : bodyOk sem.row (ctlPkt s f) = true)
    (hres : resultOk sem.row (ctlPkt s f) = true) (hchk : sem.check (ctlWith s f (ctlPkt s f)) (ctlPkt s f) = true)
    (hf0 : sem.row.f0 = true → (ctlPkt s f).func = 0) (hown : sem.own (ctlWith s f (ctlPkt s f)) (ctlPkt s f) = none) :
    reach sem (.ctl f) s = .ten (ctlWith s f { ctlPkt s f with pendReg := resultReg sem.row (ctlPkt s f) })
      { ctlPkt s f with pendReg := resultReg sem.row (ctlPkt s f) } := by
  have hu := h.fresh
  have htakes : rowTakes sem.row (ctlPkt s f) = true := by simp [rowTakes, hop]
  have hwait : ((ctlWith s f (ctlPkt s f)).dev.pkt (.ctl f) (ctlPkt s f).uid).bind (·.waitHold) = none :=
    congrArg (·.bind (·.waitHold)) (ctlWith_pkt hu rfl)
  have hwords : (ctlWith s f (ctlPkt s f)).upd (fun d => d.modPkt (.ctl f) (ctlPkt s f).uid (fun x => { x with words := (ctlPkt s f).words })) =
      ctlWith s f (ctlPkt s f) := ctlWith_modPkt hu rfl _
  rw [reach_of_ctlReady h htakes, h1, Option.elim_none, steps2_of_ctl rfl rfl, hwait, steps5_of_ctl rfl hcls hh hwords hbody hres hchk hf0 hown,
    ← ctlChecked_ctlPkt]
  exact congrArg (Reach.ten · _) (ctlWith_modPkt hu rfl _)

/-! ## A predicate that skips (R254, step 4) -/

/-- A packet of a work queue that need not wait and whose predicate skips it leaves R254 as SKIPPED. -/
theorem steps2_of_skipped (hst : p.stage = .entered) (hc : p.isCtl = false) (h2 : step2 s.dev p = true) (hw : hWen p.w1 = false)
    (hpen : hPen p.w1 = true) (hpred : ctxPred s.dev p.ctx (hPsel p.w1) = hPneg p.w1) (hl : p.isOp rowLoop = false)
    (he : p.isOp rowEndloop = false) (hpkt : (s.dev.pkt q p.uid).bind (·.waitHold) = none) :
    steps2 sem s q p = .out (s.upd (fun _ => replayNext (skipPkt s.params s.dev q { p with waitHold := none }) q)) := by
  have hten : (p.stage == .atTen) = false := by rw [hst]; rfl
  have h3 : step3 s.params s.dev q p = .pass s.dev := by simp [step3, hw]
  have hskip : ∀ t : State, loopSkip t q p = .ok t.dev := by simp [loopSkip, hl, he]
  simp only [steps2, hten, h2, h3, hc, hpen, hpred, hl, hpkt, Bool.not_true, Bool.not_false, Bool.and_false, Bool.and_self, beq_self_eq_true,
    Bool.false_eq_true, if_false, if_true, dropWait, hskip]
  rfl

end Sys2Proof.Machine

namespace Sys2Proof

open Machine

/-- Settles O14: `reach_ctl_ten` takes the packet to step 10, and the lemmas on `dispCharge` say what its charge writes. -/
theorem controlPacketReachesStepTen : Obligations.ControlPacketReachesStepTen := by
  refine ⟨?packet, ?frame, ?credits⟩
  case packet =>
    intro sem s f p hr hp hop hcls hh h1 hbody hres hchk hf0 hown
    subst hp
    exact reach_ctl_ten hr hop hcls hh h1 hbody hres hchk hf0 hown
  case frame =>
    intro d q
    exact ⟨dispCharge_eq d q, fun n hn => dispCharge_panel_ne hn⟩
  case credits =>
    intro d q f n hf hn
    subst hf hn
    refine ⟨dispCharge_dispLast d q, dispCharge_of_weightless, dispCharge_of_credit, fun hw hc => ⟨?_, fun g hg hgw => ?_⟩⟩
    · rw [dispCharge_of_reload hw hc _ hw, if_pos rfl]
    · rw [dispCharge_of_reload hw hc g hgw, if_neg hg]

/-- Settles O15: the dispatch unit finds no packet for a blocked queue, and step 4 ends a skipped one. -/
theorem blockedAndSkippedPackets : Obligations.BlockedAndSkippedPackets := by
  refine ⟨?blocked, ?skipped⟩
  case blocked =>
    intro sem q s hi h
    have hinside : (s.dev.queue q).flight.find? Pkt.inside = none := List.find?_eq_none.mpr fun x hx => by simp [hi x hx]
    refine acceptRow_of_none (nextPkt_of_blocked hinside ?_)
    obtain h | h | h | h := h
    · exact .inl (mayBegin_of_stopped h)
    · exact .inl (mayBegin_of_readAhead h)
    · exact .inr (.inr h)
    · exact .inr (.inl h)
  case skipped =>
    intro sem q s p hst hc h2 hw hpen hpred hl he hwait hpkt
    exact ⟨_, steps2_of_skipped hst hc h2 hw hpen hpred hl he (by rw [hpkt]; exact hwait)⟩

/-- Settles O16: `refusePkt_queue` gives the queue that a refusal leaves, and step 1 of a control queue refuses with the packet in flight. -/
theorem refusalStopsTheQueue : Obligations.RefusalStopsTheQueue := by
  refine ⟨?refusal, ?control⟩
  case refusal =>
    intro s q uid st det h
    rw [refusePkt_queue h]
    exact ⟨rfl, rfl, fun hr => if_pos hr, fun hs => if_neg (by rw [hs]; decide), rfl, rfl⟩
  case control =>
    intro sem s f st h ht h1
    have hrun := state_of_mayBegin h.mayBegin
    have hq := ctlWith_queue s f (ctlPkt s f)
    have hstate : ((ctlWith s f (ctlPkt s f)).dev.queue (.ctl f)).state = .running := by rw [hq]; exact hrun
    have hlive : ((ctlWith s f (ctlPkt s f)).dev.queue (.ctl f)).state ≠ .absent := by rw [hstate]; decide
    have hacc : ((refusePkt (ctlWith s f (ctlPkt s f)) (.ctl f) s.dev.nextUid st 0).dev.queue (.ctl f)).accepted = (s.dev.queue (.ctl f)).accepted := by
      rw [refusePkt_accepted hlive (by rw [hq]; exact h.noReplay), hq]
    rw [acceptRow_of_out (by rw [reach_of_ctlReady h ht, h1, Option.elim_some]), dropDone_queue]
    refine ⟨?_, ?_, ?_, hacc⟩ <;> dsimp only <;> rw [refusePkt_queue hlive]
    exact if_pos hstate

end Sys2Proof
end

section
/-! Submission and the writes of Q_STATUS: where a granule goes, what posts a packet, and what RESTART leaves. -/

namespace Sys2Proof.Machine

variable {s : State} {d : Dev} {q : QRef} {f win off : Nat} {ws : List Word}

/-! ## Fields of a word -/

theorem fld_testBit (w : Word) (hi lo i : Nat) : (fld w hi lo).testBit i = (decide (i < hi + 1 - lo) && w.getLsbD (lo + i)) := by
  rw [fld, Nat.testBit_mod_two_pow, Nat.testBit_shiftRight, BitVec.testBit_toNat]

theorem getLsbD_setFld (w : Word) (hi lo v i : Nat) : (setFld w hi lo v).getLsbD i =
    if i < 64 ∧ lo ≤ i ∧ i < hi + 1 then v.testBit (i - lo) else w.getLsbD i := by
  have hmask : (BitVec.ofNat 64 ((2 ^ (hi + 1 - lo) - 1) <<< lo)).getLsbD i = decide (i < 64 ∧ lo ≤ i ∧ i < hi + 1) := by
    rw [BitVec.getLsbD_ofNat, Nat.testBit_shiftLeft, Nat.testBit_two_pow_sub_one, Bool.eq_iff_iff]
    simp only [Bool.and_eq_true, decide_eq_true_eq, ge_iff_le]
    omega
  simp only [setFld, BitVec.getLsbD_or, BitVec.getLsbD_and, BitVec.getLsbD_not, hmask, BitVec.getLsbD_ofNat, Nat.testBit_shiftLeft]
  by_cases h : i < 64 ∧ lo ≤ i ∧ i < hi + 1
  · simp [h]
  · rw [decide_eq_false h, if_neg h]
    simpa using BitVec.lt_of_getLsbD

theorem fld_setFld_self (w : Word) {hi lo v : Nat} (h : hi < 64) : fld (setFld w hi lo v) hi lo = v % 2 ^ (hi + 1 - lo) := by
  refine Nat.eq_of_testBit_eq fun i => ?_
  rw [fld_testBit, getLsbD_setFld, Nat.testBit_mod_two_pow]
  by_cases hi' : i < hi + 1 - lo
  · rw [if_pos (by omega), Nat.add_sub_cancel_left]
  · simp [hi']

theorem fld_setFld_of_disjoint (w : Word) {hi lo hi' lo' v : Nat} (h : hi' < lo ∨ hi < lo') :
    fld (setFld w hi lo v) hi' lo' = fld w hi' lo' := by
  refine Nat.eq_of_testBit_eq fun i => ?_
  rw [fld_testBit, fld_testBit, getLsbD_setFld]
  by_cases hi : i < hi' + 1 - lo'
  · rw [if_neg (by omega)]
  · simp [hi]

/-- R246: whatever SEQ a packet's header held is replaced; its other fields and words stay. -/
theorem withSeq_cons (w : Word) (ws : List Word) (n : BitVec 32) : withSeq (w :: ws) n = setFld w 47 16 n.toNat :: ws := rfl

/-! ## A packet posted (R246, R247, R402) -/

theorem postPacket_of_overrun (h : (s.dev.queue q).overrun = true) : postPacket s q f win ws = s := by
  simp [postPacket, h]

theorem postPacket_of_full (h : (s.dev.queue q).overrun = false)
    (hfull : ((s.dev.queue q).posted - (s.dev.queue q).retired).toNat = (s.dev.queue q).depth) :
    postPacket s q f win ws = s.upd (fun d => stopQueue (submitFault (d.modQueue q (fun x => { x with overrun := true })) f win .queueOverrun
      (qnum q) (recCtx q (s.dev.queue q)) (hTag (wordAt ws 0))) q Status.queueOverrun.code false) := by
  simp only [postPacket, h, hfull, beq_self_eq_true, Bool.false_eq_true, if_false, if_true]

/-- The ring of a control queue, in the dispatch unit, takes the packet. -/
theorem postPacket_ctl (h : (s.dev.queue (.ctl f)).overrun = false)
    (hroom : ((s.dev.queue (.ctl f)).posted - (s.dev.queue (.ctl f)).retired).toNat ≠ (s.dev.queue (.ctl f)).depth) {g : Nat} :
    postPacket s (.ctl f) g win ws = s.upd (fun d => d.modQueue (.ctl f) (fun x => { x with
      slots := Tbl.set ((s.dev.queue (.ctl f)).posted.toNat % (s.dev.queue (.ctl f)).depth) (withSeq ws (s.dev.queue (.ctl f)).posted) x.slots
      posted := x.posted + 1 })) := by
  simp only [postPacket, h, beq_eq_false_iff_ne.mpr hroom, Bool.false_eq_true, if_false]

section
variable {n va : Nat} {x : Queue} {s0 s1 : State} {e : XFault}

/-- The ring of a work queue, in memory, takes the packet. -/
theorem postPacket_work (hx : x = s.dev.queue (.work n)) (h : x.overrun = false) (hroom : (x.posted - x.retired).toNat ≠ x.depth)
    (hva : va = x.ringVa + 256 * (x.posted.toNat % x.depth))
    (hs : s0 = dTouch s x.home x.ctx va (8 * (withSeq ws x.posted).length) .write)
    (hok : dWrite s0 x.home x.ctx va (wordsToBytes (withSeq ws x.posted)) = .ok s1) :
    postPacket s (.work n) f win ws = s1.upd (fun d => d.modQueue (.work n) (fun y => { y with posted := y.posted + 1 })) := by
  subst hx hva hs
  simp only [postPacket, h, beq_eq_false_iff_ne.mpr hroom, Bool.false_eq_true, if_false, hok]

/-- A fault of the ring write stops the queue, with its record. -/
theorem postPacket_work_fault (hx : x = s.dev.queue (.work n)) (h : x.overrun = false) (hroom : (x.posted - x.retired).toNat ≠ x.depth)
    (hva : va = x.ringVa + 256 * (x.posted.toNat % x.depth))
    (hs : s0 = dTouch s x.home x.ctx va (8 * (withSeq ws x.posted).length) .write)
    (herr : dWrite s0 x.home x.ctx va (wordsToBytes (withSeq ws x.posted)) = .error e) :
    postPacket s (.work n) f win ws = s0.upd (fun d =>
      stopQueue (d.fault f { e.info with ctx := x.ctx, queue := n, tag := hTag (wordAt ws 0) }) (.work n) Status.permFault.code false) := by
  subst hx hva hs
  simp only [postPacket, h, beq_eq_false_iff_ne.mpr hroom, Bool.false_eq_true, if_false, herr, qnum]

end

/-! ## Granules (R241, R244, R245) -/

theorem submitWrite_of_unserved {data : List Byte} (h : writable s.dev f (windowOff win) = false) : submitWrite s f win off data = s := by
  simp [submitWrite, h]

/-- One granule in its place in the aperture of a control queue. -/
theorem submitWrite_ctl {data : List Byte} (hw : writable s.dev f 0x1000 = true) (hoff : aligned 64 off = true) (hlen : data.length = 64)
    (hlive : (s.dev.queue (.ctl f)).state ≠ .absent) :
    submitWrite s f 0xFFFF off data = dropDone (subGran s (.ctl f) f 0xFFFF off (bytesToWords 8 data)) (.ctl f) := by
  have hne : data.isEmpty = false := List.isEmpty_eq_false_iff.mpr (List.ne_nil_of_length_eq_add_one hlen)
  have hq : ∀ d : Dev, windowQ d f 0xFFFF = some (.ctl f) := fun d => if_pos rfl
  have hwin : writable s.dev f (windowOff 0xFFFF) = true := hw
  have hal : aligned 64 64 = true := rfl
  simp only [submitWrite, hwin, hne, hoff, hal, hq, hlen, subGrans, beq_eq_false_iff_ne.mpr hlive, Bool.not_true, Bool.or_self,
    Bool.false_eq_true, if_false]

/-- A granule at offset 0 that is a whole packet, with no packet half assembled, is posted. -/
theorem subGran_of_packet (ha : (s.dev.queue q).asm = []) (hg : hGran (wordAt ws 0) = 1) : subGran s q f win 0 ws = postPacket s q f win ws := by
  simp [subGran, ha, hg]

theorem subGran_of_misplaced (h0 : off ≠ 0) (h : off ≠ 8 * (s.dev.queue q).asm.length) :
    subGran s q f win off ws = s.upd (fun d => malformed d q f win) := by
  simp [subGran, h0, h]

/-- The queue of a malformed discard: stopped, MALFORMED, the partial packet gone, nothing posted (R245). -/
theorem malformed_queue (h : (d.queue q).state ≠ .absent) : (malformed d q f win).queue q = { d.queue q with
    asm := [], malformed := true, state := .stopped
    stopStatus := if (d.queue q).state = .running then BitVec.ofNat 8 Status.malformed.code else (d.queue q).stopStatus
    replay := ((malformed d q f win).queue q).replay, accepted := ((malformed d q f win).queue q).accepted
    flight := ((malformed d q f win).queue q).flight } := by
  have hq : ∀ n c t, (submitFault (d.modQueue q (fun x => { x with asm := [], malformed := true })) f win .malformed n c t).queue q =
      { d.queue q with asm := [], malformed := true } := by simp
  unfold malformed
  dsimp only
  conv_lhs => rw [stopQueue_queue (by rw [hq]; exact h), hq]
  simp

/-- The queue of a packet lost to a full ring: stopped, OVERRUN, nothing posted (R247). -/
theorem postPacket_queue_of_full (hlive : (s.dev.queue q).state ≠ .absent) (h : (s.dev.queue q).overrun = false)
    (hfull : ((s.dev.queue q).posted - (s.dev.queue q).retired).toNat = (s.dev.queue q).depth) :
    (postPacket s q f win ws).dev.queue q = { s.dev.queue q with
      overrun := true, state := .stopped
      stopStatus := if (s.dev.queue q).state = .running then BitVec.ofNat 8 Status.queueOverrun.code else (s.dev.queue q).stopStatus
      replay := ((postPacket s q f win ws).dev.queue q).replay, accepted := ((postPacket s q f win ws).dev.queue q).accepted
      flight := ((postPacket s q f win ws).dev.queue q).flight } := by
  have hq : ∀ n c t, (submitFault (s.dev.modQueue q (fun x => { x with overrun := true })) f win .queueOverrun n c t).queue q =
      { s.dev.queue q with overrun := true } := by simp
  rw [postPacket_of_full h hfull]
  dsimp only [State.upd]
  conv_lhs => rw [stopQueue_queue (by rw [hq]; exact hlive), hq]
  simp

/-! ## Q_STATUS (R243, R256) -/

section
variable {v : Word}

theorem exec_restart (s : State) (f win : Nat) (hr : bitOf v 4 = true) (hf : bitOf v 5 = false) :
    exec (.restart f win v) s = .next (if writable s.dev f (windowOff win) then writeQueueReg s f win 0x100 v else s) := by
  change Host.Outcome.next _ = _
  simp [hr, hf]

theorem exec_restartFlush (s : State) (f win : Nat) (hr : bitOf v 4 = true) (hf : bitOf v 5 = true) :
    exec (.restartFlush f win v) s = .next (if writable s.dev f (windowOff win) then writeQueueReg s f win 0x100 v else s) := by
  change Host.Outcome.next _ = _
  simp [hr, hf]

theorem writeQueueReg_status (h : windowQ s.dev f win = some q) : writeQueueReg s f win 0x100 v = writeStatus s q v := by
  simp [writeQueueReg, h]

theorem writeStatus_of_restart (hr : bitOf v 4 = true) (hf : bitOf v 5 = false) (h : (s.dev.queue q).state = .stopped) :
    writeStatus s q v = s.upd (fun d => d.setQueue q (restarted (s.dev.queue q))) := by
  simp [writeStatus, clearSticky, restarted, hr, hf, h]

theorem writeStatus_of_flush (hr : bitOf v 4 = true) (hf : bitOf v 5 = true) (h : (s.dev.queue q).state = .stopped) :
    writeStatus s q v = disposeRing (s.upd (fun d => d.setQueue q (restarted (s.dev.queue q)))) q .flushed .flushed (ringLeft (s.dev.queue q)) := by
  simp [writeStatus, clearSticky, restarted, ringLeft, hr, hf, h]

theorem writeStatus_of_running (h : (s.dev.queue q).state ≠ .stopped) :
    writeStatus s q v = s.upd (fun d => d.setQueue q (clearSticky (s.dev.queue q) v)) := by
  simp [writeStatus, clearSticky, h]

end

end Sys2Proof.Machine

namespace Sys2Proof

open Machine

/-- Settles O20: one whole granule is a packet, and `postPacket` puts it into a ring in the dispatch unit, into one in memory, or meets a fault. -/
theorem submissionPostsPackets : Obligations.SubmissionPostsPackets := by
  refine ⟨?control, ?work, ?fault, ?seq⟩
  case control =>
    intro s f data x hw hlen hx hlive ha ho hg hroom hhold
    subst hx
    have hpost := (subGran_of_packet (f := f) (win := 0xFFFF) ha hg).trans (postPacket_ctl ho hroom)
    refine congrArg Host.Outcome.next ?_
    rw [submitWrite_ctl hw rfl hlen hlive, hpost, dropDone_of_noHolds]
    · rfl
    · rw [State.upd_dev, Dev.modQueue_eq, Dev.setQueue_queue_self]
      exact hhold
  case work =>
    intro s s1 n f win ws x hx ho hroom hok
    exact postPacket_work hx ho hroom rfl rfl hok
  case fault =>
    intro s s0 n f win va ws x e hx ho hroom hva hs herr
    exact postPacket_work_fault hx ho hroom hva hs herr
  case seq =>
    intro w ws n
    have hw0 : wordAt (withSeq (w :: ws) n) 0 = setFld w 47 16 n.toNat := rfl
    refine ⟨?_, ?_, ?_, rfl⟩
    · rw [hw0, fld_setFld_self w (by decide), Nat.mod_eq_of_lt n.isLt]
    · rw [hw0, fld_setFld_of_disjoint w (.inl (by decide))]
    · rw [hw0, fld_setFld_of_disjoint w (.inr (by decide))]

/-- Settles O21: `malformed_queue` and `postPacket_queue_of_full` give the queue that a bad submission leaves. -/
theorem badSubmissionsAreNotPosted : Obligations.BadSubmissionsAreNotPosted := by
  refine ⟨?unserved, ?misplaced, ?full, ?overrun⟩
  case unserved =>
    intro s f win off data h
    exact congrArg Host.Outcome.next (submitWrite_of_unserved h)
  case misplaced =>
    intro s q f win off ws hrun h0 h
    rw [subGran_of_misplaced h0 h, State.upd_dev, malformed_queue (by rw [hrun]; decide)]
    exact ⟨rfl, rfl, if_pos hrun, rfl, rfl⟩
  case full =>
    intro s q f win ws hrun ho hfull
    rw [postPacket_queue_of_full (by rw [hrun]; decide) ho hfull]
    exact ⟨rfl, rfl, if_pos hrun, rfl⟩
  case overrun =>
    intro s q f win ws h
    exact postPacket_of_overrun h

/-- Settles O22: a served write of Q_STATUS with RESTART is, by the state of its queue, what the lemmas on `writeStatus` say. -/
theorem restartResumesTheQueue : Obligations.RestartResumesTheQueue := by
  refine ⟨?restart, ?running, ?flush, ?unserved⟩
  case restart =>
    intro s f win v q hw hr hf hq h
    rw [exec_restart s f win hr hf, if_pos hw, writeQueueReg_status hq, writeStatus_of_restart hr hf h]
    rfl
  case running =>
    intro s f win v q hw hr hf hq h
    rw [exec_restart s f win hr hf, if_pos hw, writeQueueReg_status hq, writeStatus_of_running h]
  case flush =>
    intro s f win v q hw hr hf hq h
    rw [exec_restartFlush s f win hr hf, if_pos hw, writeQueueReg_status hq, writeStatus_of_flush hr hf h]
    rfl
  case unserved =>
    intro s f win v h
    exact ⟨congrArg Host.Outcome.next (if_neg (by simp [h])), congrArg Host.Outcome.next (if_neg (by simp [h]))⟩

end Sys2Proof
end

section
/-! Step 10 of the pattern packets, and of the packets that cores carry out. -/

namespace Sys2Proof.Machine

variable {s s1 s0 : State} {q : QRef} {sem : OpSem} {p : Pkt}

/-! ## Pattern packets (R261 to R264) -/

theorem createTen_of_some {typ panel owner : Nat} {pay : Payload} {r : ObjRef} {d : Dev} (h : s.dev.create typ panel owner pay = some (r, d)) :
    createTen s typ panel owner pay = .done (s.withDev d) (fun p => { p with value := d.handle r }) := by
  simp only [createTen, h]

theorem patternDefineTen_of_ok (hs : s0 = patternTouch (s.dev.queue p.q).home p.ctx (p.b 1).toNat (p.b 0).toNat s)
    (h : patternOk s (s.dev.queue p.q).home p.ctx 0 0 (p.b 0).toNat (p.b 1).toNat = .ok true) :
    patternDefineTen s p = createTen s0 5 0 p.ctx (.pattern (p.b 0).toNat (p.b 1).toNat) := by
  simp only [patternDefineTen, h, hs]

theorem patternDefineTen_of_bad (hs : s0 = patternTouch (s.dev.queue p.q).home p.ctx (p.b 1).toNat (p.b 0).toNat s)
    (h : patternOk s (s.dev.queue p.q).home p.ctx 0 0 (p.b 0).toNat (p.b 1).toNat = .ok false) :
    patternDefineTen s p = .refuse s0 .badParam 0 := by
  simp only [patternDefineTen, h, hs]

theorem replayTen_of_pattern {va n : Nat} (h : (s.dev.entry (objB0 p)).payload = .pattern va n) : replayTen s p =
    .wait (s.upd (fun d => d.modQueue p.q (fun x => { x with replay := some ⟨p.uid, (objB0 p).slot, va, n, 0, va, []⟩ }))) := by
  simp only [replayTen, h]

section
variable {r : Replay} {dst : Nat × Nat} {fr : LoopFrame} {fs : List LoopFrame}

/-- The frame that a LOOP opens: its body, its count, its increments and what their registers hold now. -/
theorem loopTen_of_count (he : loopEnd s p.q = .ok (some dst)) (hr : (s.dev.queue p.q).replay = some r) (hc : 0 < (p.b 0).toNat) :
    loopTen s p = .done ((loopTouch s p.q).upd (fun d => d.modQueue p.q (fun x => { x with replay := some { r with
      loops := ⟨r.next, r.nextVa, (p.b 0).toNat, loopIncs p, (loopIncs p).map (fun e => (e.1, ctxReg s.dev p.ctx e.1))⟩ :: r.loops } }))) id := by
  simp only [loopTen, he, hr, if_neg (Nat.pos_iff_ne_zero.mp hc)]

theorem loopTen_of_zero (he : loopEnd s p.q = .ok (some dst)) (hr : (s.dev.queue p.q).replay = some r) (hc : (p.b 0).toNat = 0) :
    loopTen s p = .done ((loopTouch s p.q).upd (fun d => jump d p.q dst)) id := by
  simp only [loopTen, he, hr, if_pos hc]

theorem endloopTen_of_more (hr : (s.dev.queue p.q).replay = some r) (hl : r.loops = fr :: fs) (hn : 1 < fr.remaining) :
    endloopTen s p = .done (s.withDev
      ((fr.incs.foldl (fun d e => setReg d p.ctx e.1 (ctxReg d p.ctx e.1 + e.2)) s.dev).modQueue p.q (fun x => { x with replay := some { r with
        next := fr.body, nextVa := fr.bodyVa, loops := { fr with remaining := fr.remaining - 1 } :: fs } }))) id := by
  simp only [endloopTen, hr, hl, if_pos hn]

theorem popLoop_of_open {d : Dev} (hr : (d.queue q).replay = some r) (hl : r.loops = fr :: fs) : popLoop d q =
    (fr.saved.foldl (fun e x => setReg e (d.queue q).ctx x.1 x.2) d).modQueue q (fun x => { x with replay := some { r with loops := fs } }) := by
  simp only [popLoop, hr, hl]

theorem endloopTen_of_last (hr : (s.dev.queue p.q).replay = some r) (hl : r.loops = fr :: fs) (hn : fr.remaining ≤ 1) :
    endloopTen s p = .done (s.withDev
      ((fr.saved.foldl (fun d e => setReg d (s.dev.queue p.q).ctx e.1 e.2) s.dev).modQueue p.q (fun x => { x with replay := some { r with
        loops := fs } }))) id := by
  rw [← popLoop_of_open hr hl]
  simp only [endloopTen, hr, hl, if_neg (Nat.not_lt.mpr hn)]
  rfl

end

/-! ## Packets for the cores (R255) -/

/-- A packet whose step 10 is the cores' waits to be multicast. -/
theorem acceptRow_of_toCores (hsem : sem.exec = toCores) (h : reach sem q s = .ten s1 p) : acceptRow sem q s = toMulticast s1 q p :=
  acceptRow_of_mcast h (by rw [hsem]; rfl)

section
variable {h : Nat} {sc : Option Bool} {e : Episode}

/-- R329: a gang-scope SEAM opens an episode once none is open. -/
theorem seamTen_of_gang (hb : bitOf (p.b 1) 0 = false) (hs : seamOf s.dev (seamSlot (p.b 0)) = (h, sc, none)) : seamTen s p =
    .mcast (s.upd (fun d => setSeam d (seamSlot (p.b 0)) (some false) (some ⟨false, [], [], [], [], [p.uid]⟩))) := by
  simp only [seamTen, hb, hs, Bool.not_false, if_true]

theorem seamTen_of_gang_open (hb : bitOf (p.b 1) 0 = false) (hs : seamOf s.dev (seamSlot (p.b 0)) = (h, sc, some e)) : seamTen s p = .wait s := by
  simp only [seamTen, hb, hs, Bool.not_false, if_true]

/-- R331: a partition-scope SEAM joins the open episode. -/
theorem seamTen_of_join (hb : bitOf (p.b 1) 0 = true) (hs : seamOf s.dev (seamSlot (p.b 0)) = (h, sc, some e)) : seamTen s p =
    .mcast (s.upd (fun d => setSeam d (seamSlot (p.b 0)) (some true) (some { e with pkts := e.pkts ++ [p.uid] }))) := by
  simp only [seamTen, hb, hs, Bool.not_true, Bool.false_eq_true, if_false]

/-- R331: with none open it opens one over the partitions of its gang. -/
theorem seamTen_of_partition {cov : List Nat} (hb : bitOf (p.b 1) 0 = true) (hs : seamOf s.dev (seamSlot (p.b 0)) = (h, sc, none))
    (hc : cov = gangParts s.dev (gangOf s.dev p.q)) : seamTen s p =
    .mcast (s.upd (fun d => setSeam d (seamSlot (p.b 0)) (some true) (some ⟨true, [], [], cov, partQueues s.dev p.func cov, [p.uid]⟩))) := by
  simp only [seamTen, hb, hs, hc, Bool.not_true, Bool.false_eq_true, if_false]

end

theorem fittingTen_of_free (h : ∀ k, s.dev.siteOf (fld (p.b 0) 9 0) = some k → (s.dev.core k).fitting = none) : fittingTen s p = .mcast s := by
  have hnone : (s.dev.siteOf (fld (p.b 0) 9 0)).bind (fun k => (s.dev.core k).fitting) = none := Option.bind_eq_none_iff.mpr h
  simp only [fittingTen, hnone]

theorem fittingTen_of_armed {k : Nat} {x : Fitting} (hk : s.dev.siteOf (fld (p.b 0) 9 0) = some k) (hx : (s.dev.core k).fitting = some x) :
    fittingTen s p = .wait s := by
  simp only [fittingTen, hk, Option.bind_some, hx]

end Sys2Proof.Machine

namespace Sys2Proof

open Machine

/-- Settles O9: the ending of step 10 that the lemma above gives, carried out by `acceptRow`. -/
theorem patternPacketsComplete : Obligations.PatternPacketsComplete := by
  refine ⟨?define, ?bad, ?replay, ?loop, ?loopZero, ?more, ?last⟩
  case define =>
    intro q s s1 p s0 r d hten hs hok hc
    exact congrArg Host.Outcome.next (acceptRow_of_done hten ((patternDefineTen_of_ok hs hok).trans (createTen_of_some hc)))
  case bad =>
    intro q s s1 p s0 hten hs hbad
    exact congrArg Host.Outcome.next (acceptRow_of_refuse hten (patternDefineTen_of_bad hs hbad))
  case replay =>
    intro q s s1 p va n hten hp
    exact congrArg Host.Outcome.next (acceptRow_of_wait hten (replayTen_of_pattern hp))
  case loop =>
    intro q s s1 p dst r hten he hr hc
    exact congrArg Host.Outcome.next (acceptRow_of_done hten (loopTen_of_count he hr hc))
  case loopZero =>
    intro q s s1 p dst r hten he hr hc
    exact congrArg Host.Outcome.next (acceptRow_of_done hten (loopTen_of_zero he hr hc))
  case more =>
    intro q s s1 p r fr fs hten hr hl hn
    exact congrArg Host.Outcome.next (acceptRow_of_done hten (endloopTen_of_more hr hl hn))
  case last =>
    intro q s s1 p r fr fs hten hr hl hn
    exact congrArg Host.Outcome.next (acceptRow_of_done hten (endloopTen_of_last hr hl hn))

/-- Settles O11: step 10 of the stream, matrix, vector and chain packets, BAR and MARK is the cores'; SEAM and FITTING end as their lemmas say. -/
theorem multicastPacketsAwaitTheGang : Obligations.MulticastPacketsAwaitTheGang := by
  have hcores : ∀ sem : OpSem, sem.exec = toCores → ∀ q s s1 p, reach sem q s = .ten s1 p →
      (Host.Outcome.next (acceptRow sem q s) : Out) = .next (toMulticast s1 q p) :=
    fun sem hsem q s s1 p hten => congrArg Host.Outcome.next (acceptRow_of_toCores hsem hten)
  refine ⟨hcores semCopy rfl, hcores semFill rfl, hcores semAccClear rfl, hcores semStats rfl, hcores semMatmul rfl, hcores semFabLoad rfl,
    hcores semFabRun rfl, hcores semChain rfl, hcores semBar rfl, hcores semMark rfl, ?gang, ?gangOpen, ?join, ?partition, ?fitting, ?armed⟩
  case gang =>
    intro q s s1 p h sc hten hb hs
    exact congrArg Host.Outcome.next (acceptRow_of_mcast hten (seamTen_of_gang hb hs))
  case gangOpen =>
    intro q s s1 p h sc e hten hb hs
    exact congrArg Host.Outcome.next (acceptRow_of_wait hten (seamTen_of_gang_open hb hs))
  case join =>
    intro q s s1 p h sc e hten hb hs
    exact congrArg Host.Outcome.next (acceptRow_of_mcast hten (seamTen_of_join hb hs))
  case partition =>
    intro q s s1 p h sc cov hten hb hs hcov
    exact congrArg Host.Outcome.next (acceptRow_of_mcast hten (seamTen_of_partition hb hs hcov))
  case fitting =>
    intro q s s1 p hten hfree
    exact congrArg Host.Outcome.next (acceptRow_of_mcast hten (fittingTen_of_free hfree))
  case armed =>
    intro q s s1 p k x hten hk hx
    exact congrArg Host.Outcome.next (acceptRow_of_wait hten (fittingTen_of_armed hk hx))

end Sys2Proof
end

section
/-! What follows acceptance: waits that a tack ends, and the retirement of the oldest packet. -/

namespace Sys2Proof.Machine

variable {s : State} {d : Dev} {q : QRef} {p : Pkt} {slot : Nat}

/-! ## WAIT_TACK_RESUME (R377) -/

theorem exec_waitTackResume (slot : Nat) (s : State) : exec (.waitTackResume slot) s = .next (s.dev.queueRefs.foldl (resumeQueue slot) s) := rfl

theorem resumeQueue_of_waiting {sem : OpSem} (hp : (s.dev.queue q).flight.find? (waitsOn s.dev slot) = some p)
    (hm : workSems.find? (fun m => p.isOp m.row) = some sem) : resumeQueue slot s q = acceptRow sem q s := by
  simp only [resumeQueue, hp, hm]

theorem resumeQueue_of_none (h : ∀ p ∈ (s.dev.queue q).flight, waitsOn s.dev slot p = false) : resumeQueue slot s q = s := by
  have hf : (s.dev.queue q).flight.find? (waitsOn s.dev slot) = none := List.find?_eq_none.mpr fun p hp => by simp [h p hp]
  simp only [resumeQueue, hf]

theorem foldl_resumeQueue_of_none {qs : List QRef} (h : ∀ q ∈ qs, ∀ p ∈ (s.dev.queue q).flight, waitsOn s.dev slot p = false) :
    qs.foldl (resumeQueue slot) s = s := by
  induction qs with
  | nil => rfl
  | cons q qs ih =>
    obtain ⟨hq, hqs⟩ := List.forall_mem_cons.mp h
    rw [List.foldl_cons, resumeQueue_of_none hq, ih hqs]

/-! ## PACKET_RETIRE (R235, R257) -/

theorem exec_packetRetire_of_none (h : retireNext (s.dev.queue q) = none) : exec (.packetRetire q) s = .next s := by
  change execPacketRetire q s = _
  simp only [execPacketRetire, h]

theorem exec_packetRetire_of_some (h : retireNext (s.dev.queue q) = some p) :
    exec (.packetRetire q) s = .next (dropDone ((spoil (dropDone s q) p).upd (fun d => retirePkt d q p)) q) := by
  change execPacketRetire q s = _
  simp only [execPacketRetire, h]

theorem retireActs_of_none (hs : p.sigTack = none) (ho : p.ownTack = none) : retireActs d p = (d, false) := by
  simp [retireActs, hs, ho]

theorem retireWrites_of_none {v : Word} (hr : p.pendReg = none) (hp : p.pendPred = none) : retireWrites d p v = d := by
  simp [retireWrites, hr, hp]

/-- A packet that ended well and asks for no reply writes none. -/
theorem retireReply_of_unasked {v : Word} (h : hRply p.w0 = 0) : retireReply d p .done v = d := by
  simp [retireReply, h]

theorem tellParent_of_none {st : Status} (h : p.parent = none) : tellParent d q p st = d := by
  simp only [tellParent, h]

@[simp] theorem imageRetires_queue (d : Dev) (uid : Nat) (q : QRef) : (imageRetires d uid).queue q = d.queue q := by
  cases q <;> rfl

/-- A packet of a ring that ended well, with no tack action, result or reply, only leaves its queue, which counts it. -/
theorem retirePkt_queue (hst : p.status = .done) (hpar : p.parent = none) (hsig : p.sigTack = none) (hown : p.ownTack = none)
    (hreg : p.pendReg = none) (hpred : p.pendPred = none) (hrply : hRply p.w0 = 0) : (retirePkt d q p).queue q = { d.queue q with
      flight := (d.queue q).flight.filter (fun y => y.uid != p.uid), retired := (d.queue q).retired + 1 } := by
  have hnostop : Status.done.stops = false := rfl
  simp only [retirePkt, retireActs_of_none hsig hown, retireWrites_of_none hreg hpred, hst, hpar, retireReply_of_unasked hrply,
    tellParent_of_none hpar, hnostop, Bool.and_false, Bool.false_eq_true, if_false, imageRetires_queue, Dev.modQueue_eq,
    Dev.setQueue_queue_self, Option.isNone_none, if_true]

end Sys2Proof.Machine

namespace Sys2Proof

open Machine

/-- Settles O18: the lemmas on `resumeQueue` say which packet goes on, those on `retirePkt` what retires with it. -/
theorem acceptedPacketsGoOnAndRetire : Obligations.AcceptedPacketsGoOnAndRetire := by
  refine ⟨exec_waitTackResume, ?waiting, ?noWait, ?noneOldest, ?oldest, ?spoil, ?leaves⟩
  case waiting =>
    intro slot s q p sem hp hm
    exact resumeQueue_of_waiting hp hm
  case noWait =>
    intro slot s h
    rw [exec_waitTackResume, foldl_resumeQueue_of_none h]
  case noneOldest =>
    intro q s h
    exact exec_packetRetire_of_none h
  case oldest =>
    intro q s p h
    exact exec_packetRetire_of_some h
  case spoil =>
    intro s p
    exact ⟨fun h => if_neg (by simp [h]), fun h => if_pos h⟩
  case leaves =>
    intro d q p _ hst hpar hsig hown hreg hpred hrply
    exact retirePkt_queue hst hpar hsig hown hreg hpred hrply

end Sys2Proof
end

section
/-! Writes of a function's registers: rings, interrupt configuration, the places that nothing can write, and the fault records held back. -/

namespace Sys2Proof.Machine

variable {s : State} {d : Dev} {f off c : Nat} {v : Word}

/-! ## Where a register lies (R240) -/

theorem areaOf_ctxRing {o : Nat} (hc : c < 1024) (ho : o < 32) : areaOf (0xF4000 + 32 * c + o) = .ctxRing c o := by
  have hdiv : (0xF4000 + 32 * c + o - 0xF4000) / 32 = c := by omega
  have hmod : (0xF4000 + 32 * c + o) % 32 = o := by omega
  simp only [areaOf, hdiv, hmod]
  repeat rw [if_neg (by omega)]
  rw [if_pos (by omega)]

theorem writeReg_of_unserved (h : writable s.dev f off = false) : writeReg s f off v = s := by
  simp [writeReg, h]

/-- A served write of an aligned register is that of its part of the window. -/
theorem writeReg_of_area {a : Area} (hw : writable s.dev f off = true) (hoff : off % 8 = 0) (ha : areaOf off = a) :
    writeReg s f off v = writeArea s f v a := by
  simp [writeReg, hw, aligned, hoff, ha]

theorem writeReg_of_reserved (h : areaOf off = .reserved) : writeReg s f off v = s := by
  simp [writeReg, h, writeArea]

/-! ## Rings (R265, R268) -/

theorem exec_ringCfgWrite_control : exec (.ringCfgWrite f .control v) s = .next (writeReg s f 0xF0020 v) := rfl
theorem exec_ringCfgWrite_fault : exec (.ringCfgWrite f .fault v) s = .next (writeReg s f 0xF0000 v) := rfl
theorem exec_ringHeadWrite_control : exec (.ringHeadWrite f .control v) s = .next (writeReg s f 0xF0028 v) := rfl
theorem exec_ringHeadWrite_fault : exec (.ringHeadWrite f .fault v) s = .next (writeReg s f 0xF0008 v) := rfl

theorem exec_ringCfgWrite_context (hc : c < 1024) : exec (.ringCfgWrite f (.context c) v) s = .next (writeReg s f (0xF4000 + 32 * c) v) :=
  congrArg Host.Outcome.next (if_pos (decide_eq_true hc))

theorem exec_ringHeadWrite_context (hc : c < 1024) : exec (.ringHeadWrite f (.context c) v) s = .next (writeReg s f (0xF4000 + 32 * c + 8) v) :=
  congrArg Host.Outcome.next (if_pos (decide_eq_true hc))

/-- A register of the ring of a context that the function owns. -/
theorem writeReg_ctxRing {o : Nat} (hc : c < 1024) (ho : o < 32) (h8 : o % 8 = 0) (hw : writable s.dev f (0xF4000 + 32 * c + o) = true)
    (howns : ownsCtx s.dev f c = true) : writeReg s f (0xF4000 + 32 * c + o) v =
      s.upd (fun d => d.modCtx c (fun x => { x with ring := writeRing x.ring true o v })) := by
  rw [writeReg_of_area hw (by omega) (areaOf_ctxRing hc ho)]
  exact if_pos howns

theorem writeRings_fault_reserved (h : 11 ≤ fld v 11 8) : writeRings d f 0 v = d.modFn f (fun x => x) := by
  simp [writeRings, writeRing, ringCfg, h, Nat.not_lt.mpr h]

theorem writeRings_fault_cfg (h : fld v 11 8 < 11) : writeRings d f 0 v = refault (d.modFn f (fun x => { x with
    faultRing := { x.faultRing with cfg := v &&& 0xFFFFFFFFFFFFFF01#64, head := 0, tail := 0 } })) f := by
  simp [writeRings, writeRing, ringCfg, ringCfgFields, h, Nat.not_le.mpr h]

/-! ## Held and refused fault records (R268, R513) -/

theorem writeHeld_of_closed (h : (d.fn f).faultRing.open_ = false) : d.writeHeld f = d := by
  unfold Dev.writeHeld
  split
  · rfl
  · simp [h]

/-- A cause leaves all of a function but its pending bits. -/
theorem raiseByte_eq (x : FuncSt) (b : Nat) : x.raiseByte b = { x with intPend := (x.raiseByte b).intPend } := by
  unfold FuncSt.raiseByte
  split <;> rfl

theorem writeHeld_of_open {r : FaultRec} {rs : List FaultRec} (h : (d.fn f).held = r :: rs) (ho : (d.fn f).faultRing.open_ = true) :
    ((d.writeHeld f).fn f).held = rs ∧ ((d.writeHeld f).fn f).faultRing.tail = (d.fn f).faultRing.tail + 1 ∧
    (d.writeHeld f).host.reqs.length = d.host.reqs.length + 1 := by
  simp only [Dev.writeHeld, h, ho, if_true, Dev.putRecord, Dev.setRing, Dev.ring, Dev.issueWrite, Dev.raise, Dev.issue_eq, Dev.modFn_eq]
  rw [Dev.setFn_fn_self, raiseByte_eq]
  refine ⟨?_, ?_, ?_⟩
  · simp
  · simp
  · simp [Dev.issueFor]

theorem recordRetry_of_some {e : Nat × Nat × List Word} (h : d.host.retry.find? (fun x => x.1 == f) = some e) : recordRetry d f =
    ({ d with host := { d.host with retry := d.host.retry.erase e } }).issueWrite f e.2.1 (wordsToBytes e.2.2) (.faultRec f e.2.2) := by
  simp only [recordRetry, h]

theorem recordRetry_of_none (h : d.host.retry.find? (fun x => x.1 == f) = none) : recordRetry d f = d := by
  simp only [recordRetry, h]

end Sys2Proof.Machine

namespace Sys2Proof

open Machine

/-- Settles O23: each register write is that of its part of the window, and `writeHeld` and `recordRetry` send the records held back. -/
theorem ringRegistersAndHeldRecords : Obligations.RingRegistersAndHeldRecords := by
  refine ⟨?ctlCfg, ?faultReserved, ?faultCfg, ?ctlHead, ?faultHead, ?ctxCfg, ?ctxHead, ?held, ?closed, ?open_, ?retry, ?noRetry⟩
  case ctlCfg =>
    intro s f v hw
    rw [exec_ringCfgWrite_control, writeReg_of_area hw rfl (a := .rings 0x20) rfl]
    rfl
  case faultReserved =>
    intro s f v hw h
    rw [exec_ringCfgWrite_fault, writeReg_of_area hw rfl (a := .rings 0) rfl]
    exact congrArg (fun d => Host.Outcome.next (s.withDev d)) (writeRings_fault_reserved h)
  case faultCfg =>
    intro s f v hw h
    rw [exec_ringCfgWrite_fault, writeReg_of_area hw rfl (a := .rings 0) rfl]
    exact congrArg (fun d => Host.Outcome.next (s.withDev d)) (writeRings_fault_cfg h)
  case ctlHead =>
    intro s f v hw
    rw [exec_ringHeadWrite_control, writeReg_of_area hw rfl (a := .rings 0x28) rfl]
    rfl
  case faultHead =>
    intro s f v hw
    rw [exec_ringHeadWrite_fault, writeReg_of_area hw rfl (a := .rings 8) rfl]
    rfl
  case ctxCfg =>
    intro s f c v hc hw ho
    rw [exec_ringCfgWrite_context hc]
    exact congrArg Host.Outcome.next (writeReg_ctxRing (o := 0) hc (by decide) rfl hw ho)
  case ctxHead =>
    intro s f c v hc hw ho
    rw [exec_ringHeadWrite_context hc]
    exact congrArg Host.Outcome.next (writeReg_ctxRing (o := 8) hc (by decide) rfl hw ho)
  case held => exact fun s f => rfl
  case closed =>
    intro d f h
    exact writeHeld_of_closed h
  case open_ =>
    intro d f r rs h ho
    exact writeHeld_of_open h ho
  case retry =>
    intro s f e h
    exact congrArg (fun d => Host.Outcome.next (s.withDev d)) (recordRetry_of_some h)
  case noRetry =>
    intro s f h
    exact congrArg (fun d => Host.Outcome.next (s.withDev d)) (recordRetry_of_none h)

/-- Settles O25: a write without effect is ignored by `writeReg` or has no register to write; CAUSE_VEC and FUNC_STATUS are registers of the
interrupt configuration page. -/
theorem registerWritesFollowTheFieldMap : Obligations.RegisterWritesFollowTheFieldMap := by
  refine ⟨?unserved, ?ident, ?reserved, ?causeVec, ?funcStatus⟩
  case unserved =>
    intro s f off v h
    exact congrArg Host.Outcome.next (writeReg_of_unserved h)
  case ident =>
    intro s f off v o hw h8 ha
    exact congrArg Host.Outcome.next (writeReg_of_area hw h8 ha)
  case reserved =>
    intro s f off v h
    exact congrArg Host.Outcome.next (writeReg_of_reserved h)
  case causeVec =>
    intro s f v hw
    exact congrArg Host.Outcome.next (writeReg_of_area hw rfl (a := .intr 0x18) rfl)
  case funcStatus =>
    intro s f v hw
    exact congrArg Host.Outcome.next (writeReg_of_area hw rfl (a := .intr 0x20) rfl)

end Sys2Proof
end

section
/-! Step 10 of the control packets that dispatch executes: contexts, queues and gangs. CTX_CREATE and QUEUE_CREATE are spoken of as the `exec` of
their row, so that a use of their lemmas need not compare the row with its step 10 by computing the search for a free number. -/

namespace Sys2Proof.Machine

variable {s : State} {p : Pkt} {n : Nat}

/-! ## Contexts (R290, R355, R358, R405) -/

theorem semCtxCreate_exec_of_lowest {c : Nat} (h : IsLowest 1024 (fun k => !(s.dev.ctx k).live) c) : semCtxCreate.exec s p =
    .done (s.upd (fun d => d.setCtx c { Ctx.none with
      live := true, owner := p.func, root := (p.b 0).toNat, spoolBase := (p.b 1).toNat, spoolSize := (p.b 2).toNat }))
      (fun x => { x with value := BitVec.ofNat 64 c }) := by
  unfold semCtxCreate ctxCreateTen
  dsimp only
  rw [lowest_some h]

theorem semCtxCreate_exec_of_full (h : NoneBelow 1024 (fun k => !(s.dev.ctx k).live)) : semCtxCreate.exec s p = .fail s .tableFull := by
  unfold semCtxCreate ctxCreateTen
  dsimp only
  rw [lowest_none h]

/-- A rewrite of the device under a condition is one rewrite of the device. -/
theorem State.ite_upd (s : State) (b : Bool) (g : Dev → Dev) : (if b then s.upd g else s) = s.withDev (if b then g s.dev else s.dev) := by
  cases b <;> rfl

@[simp] theorem State.withDev_withDev (s : State) (d e : Dev) : (s.withDev d).withDev e = s.withDev e := rfl

/-- CTX_CONFIG: `d1` after SET_ROOT, `d2` after SET_SPOOL and `d3` after RESET_TOP; SET_ROOT waits for the requests of the context. -/
theorem ctxConfigTen_eq {c : Nat} {d1 d2 d3 : Dev} (hc : fld (p.b 0) 9 0 = c)
    (h1 : d1 = if bitOf (p.b 0) 16 then (s.dev.modCtx c (fun x => { x with root := (p.b 1).toNat })).purge c 0 0 else s.dev)
    (h2 : d2 = if bitOf (p.b 0) 17 then d1.modCtx c (fun x => { x with spoolBase := (p.b 2).toNat, spoolSize := (p.b 3).toNat }) else d1)
    (h3 : d3 = if bitOf (p.b 0) 18 then d2.modCtx c (fun x => { x with spool := [], spoolPeak := 0 }) else d2) :
    ctxConfigTen s p = if bitOf (p.b 0) 16 && ctxRequests d1 c then .wait (s.withDev d1) else .done (s.withDev d3) id := by
  simp only [ctxConfigTen, State.ite_upd, State.withDev_dev, State.withDev_withDev, hc, ← h1, ← h2, ← h3]

@[simp] theorem Dev.purge_ctx (d : Dev) (c va n k : Nat) : (d.purge c va n).ctx k = d.ctx k := rfl

/-- The slot of a destroyed context is free. -/
theorem destroyCtx_ctx_self (s : State) (c : Nat) : (destroyCtx s c).dev.ctx c = Ctx.none := by
  simp only [destroyCtx, State.upd_dev, Dev.purge_ctx, Dev.setCtx_ctx_self]

/-! ## Queues (R291, R292, R479) -/

theorem semQueueCreate_exec_of_refetch (hr : refetches s.dev (s.dev.gang (fld (p.b 0) 45 44) (fld (p.b 0) 43 38)).mask = true) :
    semQueueCreate.exec s p = .wait s := by
  unfold semQueueCreate queueCreateTen
  dsimp only
  rw [if_pos hr]

section
variable (hr : refetches s.dev (s.dev.gang (fld (p.b 0) 45 44) (fld (p.b 0) 43 38)).mask = false)
include hr

theorem semQueueCreate_exec_of_lowest (h : IsLowest 4096 (fun k => !(s.dev.queue (.work k)).live) n) : semQueueCreate.exec s p =
    .done (s.upd (fun d => ((leaveEpisodes d n).setQueue (.work n) (newQueue d p.func (p.b 0) (p.b 1))).modFn p.func (fun x =>
        { x with windows := Tbl.set (fld (p.b 0) 63 56) (n + 1) x.windows, asm := Tbl.del (fld (p.b 0) 63 56) x.asm })))
      (fun x => { x with value := BitVec.ofNat 64 n }) := by
  unfold semQueueCreate queueCreateTen
  dsimp only
  rw [if_neg (Bool.eq_false_iff.mp hr), lowest_some h]

theorem semQueueCreate_exec_of_full (h : NoneBelow 4096 (fun k => !(s.dev.queue (.work k)).live)) :
    semQueueCreate.exec s p = .fail s .tableFull := by
  unfold semQueueCreate queueCreateTen
  dsimp only
  rw [if_neg (Bool.eq_false_iff.mp hr), lowest_none h]

end

/-- The state once QUEUE_DESTROY has made queue `n` ABSENT and disposed of its ring, which it does once (R292). -/
def queueClosing (s : State) (n : Nat) : State :=
  if (s.dev.queue (.work n)).state == .absent then s
  else dropDone (disposeRing (s.upd (fun d => endReplay (d.modQueue (.work n) (fun x => { x with state := .absent, asm := [] })) (.work n)))
    (.work n) .queueClosed .closed (ringLeft (s.dev.queue (.work n)))) (.work n)

theorem destroyed_of_window (h : Tbl.get 0 (fld (p.b 0) 7 0) (s.dev.fn p.func).windows = n + 1) : destroyed s p = some (.work n) := by
  simp only [destroyed, h]

/-- QUEUE_DESTROY frees the number once the last packet of the closing queue has retired, and waits before that. -/
theorem queueDestroyTen_of_window (h : Tbl.get 0 (fld (p.b 0) 7 0) (s.dev.fn p.func).windows = n + 1) : queueDestroyTen s p =
    if ((queueClosing s n).dev.queue (.work n)).flight.isEmpty then
      .done ((queueClosing s n).upd (fun d => applyIdle s.params ((d.setQueue (.work n) Queue.none).modFn p.func (fun x =>
        { x with windows := Tbl.del (fld (p.b 0) 7 0) x.windows })))) id
    else .wait (queueClosing s n) := by
  rw [queueDestroyTen, destroyed_of_window h]
  rfl

/-! ## Gangs (R18, R423) -/

section
variable (hr : refetches s.dev (gangMask p) = false)
include hr

theorem gangCreateTen_of_lowest {g : Nat} (hp : ∀ pl ∈ maskPanels s.dev (gangMask p), gangsIn s.dev pl < 64)
    (h : IsLowest 64 (fun k => !(s.dev.gang (fld (p.b 0) 1 0) k).live) g) : gangCreateTen s p =
    .done (s.upd (fun d => d.setGang (fld (p.b 0) 1 0) g ⟨true, p.func, fld (p.b 0) 1 0, gangMask p⟩))
      (fun x => { x with value := BitVec.ofNat 64 g }) := by
  have hroom : (maskPanels s.dev (gangMask p)).any (fun pl => decide (64 ≤ gangsIn s.dev pl)) = false :=
    List.any_eq_false.mpr fun pl hpl => by simpa using hp pl hpl
  unfold gangCreateTen
  dsimp only
  rw [if_neg (Bool.eq_false_iff.mp hr), if_neg (Bool.eq_false_iff.mp hroom), lowest_some h]

theorem gangCreateTen_of_full
    (h : NoneBelow 64 (fun k => !(s.dev.gang (fld (p.b 0) 1 0) k).live) ∨ ∃ pl ∈ maskPanels s.dev (gangMask p), 64 ≤ gangsIn s.dev pl) :
    gangCreateTen s p = .fail s .tableFull := by
  unfold gangCreateTen
  dsimp only
  rw [if_neg (Bool.eq_false_iff.mp hr)]
  split
  case isTrue => rfl
  case isFalse hroom =>
    rcases h with hn | ⟨pl, hpl, hfull⟩
    · rw [lowest_none hn]
    · exact absurd (List.any_eq_true.mpr ⟨pl, hpl, decide_eq_true hfull⟩) hroom

end

end Sys2Proof.Machine

namespace Sys2Proof

open Machine

/-- Settles O1: the ending of step 10 that the lemma above gives, carried out by `acceptRow`; CTX_CONFIG ends or waits by `ctxConfigTen_eq`. -/
theorem contextPacketsComplete : Obligations.ContextPacketsComplete := by
  refine ⟨?create, ?full, ?config, ?destroy⟩
  case create =>
    intro q s s1 p c hten hc
    exact congrArg Host.Outcome.next (acceptRow_of_done hten (semCtxCreate_exec_of_lowest hc))
  case full =>
    intro q s s1 p hten hfull
    exact congrArg Host.Outcome.next (acceptRow_of_fail hten (semCtxCreate_exec_of_full hfull))
  case config =>
    intro q s s1 p c d1 d2 d3 hten hc h1 h2 h3
    have hcfg := ctxConfigTen_eq hc h1 h2 h3
    split
    case isTrue hwait => exact congrArg Host.Outcome.next (acceptRow_of_wait hten (hcfg.trans (if_pos hwait)))
    case isFalse hdone => exact congrArg Host.Outcome.next (acceptRow_of_done hten (hcfg.trans (if_neg hdone)))
  case destroy =>
    intro q s s1 p hten
    exact ⟨congrArg Host.Outcome.next (acceptRow_of_done hten rfl), destroyCtx_ctx_self s1 _⟩

/-- Settles O2: the ending of step 10 that the lemma above gives, carried out by `acceptRow`; the state in which QUEUE_DESTROY finds the queue
empty or waits is `queueClosing`. -/
theorem queueAndGangPacketsComplete : Obligations.QueueAndGangPacketsComplete := by
  refine ⟨?queue, ?noQueue, ?refetch, ?destroy, ?gang, ?noGang, ?gangDestroy⟩
  case queue =>
    intro q s s1 p n hten hr hn
    exact congrArg Host.Outcome.next (acceptRow_of_done hten (semQueueCreate_exec_of_lowest hr hn))
  case noQueue =>
    intro q s s1 p hten hr hfull
    exact congrArg Host.Outcome.next (acceptRow_of_fail hten (semQueueCreate_exec_of_full hr hfull))
  case refetch =>
    intro q s s1 p hten hr
    exact congrArg Host.Outcome.next (acceptRow_of_wait hten (semQueueCreate_exec_of_refetch hr))
  case destroy =>
    intro q s s1 p n s2 hten hw hs2
    obtain rfl : s2 = queueClosing s1 n := hs2.trans (if_congr beq_iff_eq.symm rfl rfl)
    have hdes := queueDestroyTen_of_window hw
    split
    case isTrue hempty => exact congrArg Host.Outcome.next (acceptRow_of_done hten (hdes.trans (if_pos hempty)))
    case isFalse hleft => exact congrArg Host.Outcome.next (acceptRow_of_wait hten (hdes.trans (if_neg hleft)))
  case gang =>
    intro q s s1 p g hten hr hp hg
    exact congrArg Host.Outcome.next (acceptRow_of_done hten (gangCreateTen_of_lowest hr hp hg))
  case noGang =>
    intro q s s1 p hten hr hfull
    exact congrArg Host.Outcome.next (acceptRow_of_fail hten (gangCreateTen_of_full hr hfull))
  case gangDestroy =>
    intro q s s1 p hten
    exact congrArg Host.Outcome.next (acceptRow_of_done hten rfl)

end Sys2Proof
end

section
/-! Step 10 of the packets on tacks, bobbins, registers, predicates and descriptors. -/

namespace Sys2Proof.Machine

variable {s s2 : State} {d : Dev} {p : Pkt} {c : Word}

/-! ## Tacks (R299, R372, R375, R382) -/

theorem tackWaitTen_of_ended (h : p.waitEnded = true ∨ p.b 0 = 0) : tackWaitTen s p = .done s id := by
  have hend : (p.waitEnded || p.b 0 == 0) = true := by simpa using h
  simp only [tackWaitTen, hend, if_true]

section
variable (hw : p.waitEnded = false) (h0 : p.b 0 ≠ 0)
include hw h0

/-- A wait that has not ended and names a tack ends step 10 by the tack's value. -/
theorem tackWaitTen_of_value {b : Bool} (ht : tackVal s.dev (objB0 p) = (c, b)) : tackWaitTen s p =
    if b then .refuse s .tackBroken 0 else if reached c (p.b 1) then .done s id else .wait s := by
  have hopen : (p.waitEnded || p.b 0 == 0) = false := Bool.or_eq_false_iff.mpr ⟨hw, beq_eq_false_iff_ne.mpr h0⟩
  simp only [tackWaitTen, ht, hopen, Bool.false_eq_true, if_false]

theorem tackWaitTen_of_reached (ht : tackVal s.dev (objB0 p) = (c, false)) (h : 0 ≤ (c - p.b 1).toInt) : tackWaitTen s p = .done s id := by
  have hreach : reached c (p.b 1) = true := decide_eq_true h
  rw [tackWaitTen_of_value hw h0 ht, if_neg Bool.false_ne_true, if_pos hreach]

theorem tackWaitTen_of_short (ht : tackVal s.dev (objB0 p) = (c, false)) (h : (c - p.b 1).toInt < 0) : tackWaitTen s p = .wait s := by
  have hshort : ¬ reached c (p.b 1) = true := fun hr => Int.not_le.mpr h (of_decide_eq_true hr)
  rw [tackWaitTen_of_value hw h0 ht, if_neg Bool.false_ne_true, if_neg hshort]

theorem tackWaitTen_of_broken (ht : tackVal s.dev (objB0 p) = (c, true)) : tackWaitTen s p = .refuse s .tackBroken 0 := by
  rw [tackWaitTen_of_value hw h0 ht, if_pos rfl]

end

/-! ## Bobbins (R300, R320) -/

theorem bobbinFree_iff {r : ObjRef} :
    bobbinFree d p r = true ↔ ∀ x ∈ (d.queue p.q).flight, x.uid = p.uid ∨ x.done = true ∨ r ∉ x.holds := by
  simp [bobbinFree, or_assoc]

theorem bobbinSetTen_of_free (h : bobbinFree s.dev p (objB0 p) = true) : bobbinSetTen s p =
    .done (s.upd (fun d => d.modEntry (objB0 p) (fun e =>
      { e with payload := .bobbin (BitVec.ofNat 32 (fld (p.b 1) 31 0)) (BitVec.ofNat 32 (fld (p.b 2) 31 0)) }))) id := by
  simp only [bobbinSetTen, h, if_true]

theorem bobbinSetTen_of_named (h : bobbinFree s.dev p (objB0 p) = false) : bobbinSetTen s p = .wait s := by
  simp only [bobbinSetTen, h, Bool.false_eq_true, if_false]

/-! ## Predicates and descriptors (R94, R296, R304, R305) -/

/-- The codes of R304: equal, not equal, below and at most, read unsigned and then signed. -/
theorem predCond_codes (a b : Word) : predCond 0 a b = (a == b) ∧ predCond 1 a b = (a != b) ∧ predCond 2 a b = BitVec.ult a b ∧
    predCond 3 a b = BitVec.ule a b ∧ predCond 4 a b = BitVec.slt a b ∧ predCond 5 a b = BitVec.sle a b := ⟨rfl, rfl, rfl, rfl, rfl, rfl⟩

theorem predCmp_check_of_reserved (h : 6 ≤ fld (p.b 0) 10 8) : semPredCmp.check s p = false := decide_eq_false (Nat.not_lt.mpr h)

theorem predClipTen_of_wait (h : alone s.dev p = false) : predClipTen s p = .wait s := by
  simp only [predClipTen, h, Bool.not_false, if_true]

theorem predClipTen_of_read {va n : Nat} {bs : List Byte} (h : alone s.dev p = true) (hva : va = (p.b 0).toNat + 192 * (p.b 1).toNat)
    (hn : n = 192 * (p.b 2).toNat) (hbs : dRead s (s.dev.queue p.q).home p.ctx va n = .ok bs) : predClipTen s p =
    .done (dTouch s (s.dev.queue p.q).home p.ctx va n .read) (fun x => { x with
      pendPred := some (fld (p.b 3) 20 16), predVal := clipExceeds (mergeRecords (p.b 2).toNat bs) (fld (p.b 3) 15 0) }) := by
  subst hva hn
  simp only [predClipTen, h, hbs, Bool.not_true, Bool.false_eq_true, if_false]

theorem descWriteTen_of_wait (h : copiesDone s.dev p = false) : descWriteTen s p = .wait s := by
  simp only [descWriteTen, h, Bool.not_false, if_true]

theorem descWriteTen_of_written (h : copiesDone s.dev p = true) (hw : writeDescs s (s.dev.queue p.q).home p.ctx (p.b 0).toNat
    ((List.range (p.b 1).toNat).map (fun i => (List.range 8).map (fun j => p.b (2 + 8 * i + j)))) = (s2, none)) :
    descWriteTen s p = .done s2 id := by
  simp only [descWriteTen, h, hw, Bool.not_true, Bool.false_eq_true, if_false]

end Sys2Proof.Machine

namespace Sys2Proof

open Machine

/-- Settles O6: the ending of step 10 that the lemma above gives, carried out by `acceptRow`; `bobbinFree_iff` says when BOBBIN_SET waits. -/
theorem tackAndBobbinPacketsComplete : Obligations.TackAndBobbinPacketsComplete := by
  refine ⟨?ended, ?reached, ?short, ?broken, ?signal, ?add, ?set, ?named⟩
  case ended =>
    intro q s s1 p hten hend
    exact congrArg Host.Outcome.next (acceptRow_of_done hten (tackWaitTen_of_ended hend))
  case reached =>
    intro q s s1 p c hten hw h0 ht hc
    exact congrArg Host.Outcome.next (acceptRow_of_done hten (tackWaitTen_of_reached hw h0 ht hc))
  case short =>
    intro q s s1 p c hten hw h0 ht hc
    exact congrArg Host.Outcome.next (acceptRow_of_wait hten (tackWaitTen_of_short hw h0 ht hc))
  case broken =>
    intro q s s1 p c hten hw h0 ht
    exact congrArg Host.Outcome.next (acceptRow_of_refuse hten (tackWaitTen_of_broken hw h0 ht))
  case signal => exact fun q s s1 p hten => congrArg Host.Outcome.next (acceptRow_of_done hten rfl)
  case add => exact fun q s s1 p hten => congrArg Host.Outcome.next (acceptRow_of_done hten rfl)
  case set =>
    intro q s s1 p hten hall
    exact congrArg Host.Outcome.next (acceptRow_of_done hten (bobbinSetTen_of_free (bobbinFree_iff.mpr hall)))
  case named =>
    intro q s s1 p x hten hx hu hd hh
    have hbusy : ¬ bobbinFree s1.dev p (objB0 p) = true := fun hfree => by
      rcases bobbinFree_iff.mp hfree x hx with hself | hdone | hother
      · exact hu hself
      · exact Bool.false_ne_true (hd.symm.trans hdone)
      · exact hother hh
    exact congrArg Host.Outcome.next (acceptRow_of_wait hten (bobbinSetTen_of_named (Bool.eq_false_iff.mpr hbusy)))

/-- Settles O10: PATCH and PRED_CMP complete as they stand; the others end step 10 by the lemmas above, carried out by `acceptRow`. -/
theorem registerPacketsComplete : Obligations.RegisterPacketsComplete := by
  refine ⟨?patch, ?cmp, predCond_codes, ?reserved, ?clip, ?clipWait, ?desc, ?descWait⟩
  case patch => exact fun q s s1 p hten => congrArg Host.Outcome.next (acceptRow_of_done hten rfl)
  case cmp => exact fun q s s1 p hten => congrArg Host.Outcome.next (acceptRow_of_done hten rfl)
  case reserved => exact fun s p hcode => predCmp_check_of_reserved hcode
  case clip =>
    intro q s s1 p va n bs hten ha hva hn hbs
    exact congrArg Host.Outcome.next (acceptRow_of_done hten (predClipTen_of_read ha hva hn hbs))
  case clipWait =>
    intro q s s1 p hten ha
    exact congrArg Host.Outcome.next (acceptRow_of_wait hten (predClipTen_of_wait ha))
  case desc =>
    intro q s s1 p s2 hten hc hw
    exact congrArg Host.Outcome.next (acceptRow_of_done hten (descWriteTen_of_written hc hw))
  case descWait =>
    intro q s s1 p hten hc
    exact congrArg Host.Outcome.next (acceptRow_of_wait hten (descWriteTen_of_wait hc))

end Sys2Proof
end

section
/-! The bobbin unit: what a take gives and leaves, and a take of a core's command served by the unit. -/

namespace Sys2Proof.Machine

variable {s : State} {k : Nat}

/-! ## Takes (R320, R321) -/

section
variable {n r n' r' : BitVec 32} {c : Nat} {vs : List Nat}

theorem takeFrom_zero : takeFrom n 0 c = none := rfl

theorem takeFrom_of_ne_zero (h : r ≠ 0) : takeFrom n r c =
    some ((List.range (min c r.toNat)).map (fun i => (n + BitVec.ofNat 32 i).toNat),
      n + BitVec.ofNat 32 (min c r.toNat), r - BitVec.ofNat 32 (min c r.toNat)) := if_neg h

/-- A bobbin that gives a range is not empty, and the range and the rest are those of `takeFrom_of_ne_zero`. -/
theorem takeFrom_eq_some (h : takeFrom n r c = some (vs, n', r')) :
    vs = (List.range (min c r.toNat)).map (fun i => (n + BitVec.ofNat 32 i).toNat) ∧
      n' = n + BitVec.ofNat 32 (min c r.toNat) ∧ r' = r - BitVec.ofNat 32 (min c r.toNat) := by
  have hr : r ≠ 0 := by
    rintro rfl
    cases h
  rw [takeFrom_of_ne_zero hr] at h
  cases h
  exact ⟨rfl, rfl, rfl⟩

end

/-- Positions of a bobbin count modulo 2^32. -/
theorem toNat_add_ofNat32 (n : BitVec 32) (j : Nat) : (n + BitVec.ofNat 32 j).toNat = (n.toNat + j) % 2 ^ 32 := by
  simp

theorem toNat_sub_ofNat32 {r : BitVec 32} {j : Nat} (h : j ≤ r.toNat) : (r - BitVec.ofNat 32 j).toNat = r.toNat - j := by
  have hj : (BitVec.ofNat 32 j).toNat = j := (BitVec.toNat_ofNat j 32).trans (Nat.mod_eq_of_lt (h.trans_lt r.isLt))
  rw [BitVec.toNat_sub_of_le (BitVec.le_def.mpr (hj.le.trans h)), hj]

/-! ## BOBBIN_TAKE (R321, R322) -/

section
variable {m : Cmd} {nx rm : BitVec 32}
variable (hm : firstCmd (s.dev.core k) (fun m => m.takePending) = some m)
variable (hb : (s.dev.entry ⟨3, m.work.bobbin % 2 ^ 20⟩).payload = .bobbin nx rm)
include hm hb

theorem bobbinTake_of_taken {vs : List Nat} {nx' rm' : BitVec 32}
    (ht : takeFrom nx rm (2 ^ (Tiling.ofWord m.work.tiling).take) = some (vs, nx', rm')) : bobbinTake s k =
    s.withDev (((s.dev.won (m.work.bobbin % 2 ^ 20 / 1024) arbBobbin ((siteIndex s.dev k).getD 0)).modEntry ⟨3, m.work.bobbin % 2 ^ 20⟩
      (fun e => { e with payload := .bobbin nx' rm' })).modCore k (fun c => (c.modCmd m.uid (fun y => { y with
        items := y.items ++ vs, takePending := !vs.any (fun v => decide (v < itemCount s.params.opuDim m.work)) })).sweep s.params)) := by
  simp only [bobbinTake, hm, hb, ht]

theorem bobbinTake_of_empty (hrm : rm = 0) : bobbinTake s k =
    s.withDev ((s.dev.won (m.work.bobbin % 2 ^ 20 / 1024) arbBobbin ((siteIndex s.dev k).getD 0)).modCore k (fun c =>
      (c.modCmd m.uid (fun m => { m with takePending := false, empty := true })).sweep s.params)) := by
  subst hrm
  simp only [bobbinTake, hm, hb, takeFrom_zero]

end

/-! ## The pointer of the unit (R29) -/

section
variable (d : Dev) (pl code i : Nat)

theorem Dev.won_panel_self : (d.won pl code i).panel pl = { d.panel pl with lasts := Tbl.set code i (d.panel pl).lasts } :=
  Dev.setPanel_panel_self d pl _

theorem Dev.won_panel_ne {q : Nat} (h : q ≠ pl) : (d.won pl code i).panel q = d.panel q := Dev.setPanel_panel_ne d pl _ h

end

end Sys2Proof.Machine

namespace Sys2Proof

open Machine

/-- Settles O42: what a take gives is `takeFrom_eq_some`, counted by the two lemmas on 32-bit counters; the command is one of the two cases of
`bobbinTake`. -/
theorem bobbinTakesInOrder : Obligations.BobbinTakesInOrder := by
  refine ⟨?empty, ?range, ?taken, ?none, ?pointer⟩
  case empty =>
    rintro n r c rfl
    exact takeFrom_zero
  case range =>
    intro n r c vs n' r' h
    obtain ⟨rfl, rfl, rfl⟩ := takeFrom_eq_some h
    refine ⟨by simp, fun j hj => ?_, toNat_add_ofNat32 n _, toNat_sub_ofNat32 (Nat.min_le_right c r.toNat)⟩
    rw [List.length_map] at hj
    rw [List.getElem?_map, List.getElem?_eq_getElem hj, List.getElem_range, Option.map_some, toNat_add_ofNat32]
  case taken =>
    rintro s i k m nx rm vs nx' rm' d hk hs hm hb ht rfl
    rw [exec_bobbinTake, onCore_of_inService hk hs, bobbinTake_of_taken hm hb ht]
  case none =>
    rintro s i k m nx rm d hk hs hm hb hrm rfl
    rw [exec_bobbinTake, onCore_of_inService hk hs, bobbinTake_of_empty hm hb hrm]
  case pointer =>
    intro d pl code i
    refine ⟨rfl, ?_, fun q hq => Dev.won_panel_ne d pl code i hq⟩
    rw [Dev.won_panel_self, Tbl.get_set_self]

end Sys2Proof
end

section
/-! Seam episodes: the start of a SEAM, and what each of the two kinds of episode waits for before it ends. -/

namespace Sys2Proof.Machine

variable {s : State} {slot : Nat} {e : Episode}

theorem exec_seamStart (i : Nat) : exec (.seamStart i) s = onCore s i (seamStart s) := rfl

theorem exec_seamRelease : exec (.seamRelease slot) s = .next (seamRelease slot s) := rfl

theorem exec_partitionEpisodeComplete : exec (.partitionEpisodeComplete slot) s = .next (partitionEpisode slot s) := rfl

/-! ## SEAM_START (R329, R331) -/

theorem seamStart_of_head {k : Nat} {m : Cmd} {d1 : Dev}
    (hm : firstCmd (s.dev.core k) (fun m => m.isOp rowSeam && !m.started && (s.dev.core k).atHead m.uid) = some m)
    (hd : d1 = s.dev.modCore k (fun c =>
      { c.modCmd m.uid (fun m => { m with started := true, released := m.seamPart }) with moved := true })) :
    seamStart s k = s.withDev (if m.seamPart then d1 else setSeam d1 m.seamSlot (seamOf d1 m.seamSlot).2.1
      ((seamOf d1 m.seamSlot).2.2.map (fun e => { e with started := e.started ++ [(siteIndex s.dev k).getD 0] }))) := by
  subst hd
  simp only [seamStart, hm]
  exact (apply_ite s.withDev _ _ _).symm

/-! ## SEAM_RELEASE (R329) -/

section
variable {h : Nat} {sc : Option Bool} (he : seamOf s.dev slot = (h, sc, some e))
include he

theorem seamRelease_of_started (hs : s.dev.inService = true) (hp : e.partScope = false) (hc : e.cores ≠ [])
    (hall : ∀ c ∈ e.cores, c ∈ e.started) : seamRelease slot s =
    s.upd (fun d => setSeam { d with cores := Tbl.mapv (releaseSeam e.pkts) d.cores } slot sc none) := by
  have hdue : ¬ (!s.dev.inService || e.partScope || e.cores.isEmpty || !e.cores.all e.started.contains) = true := by
    simpa [hs, hp, hc] using hall
  simp only [seamRelease, he]
  rw [if_neg hdue]

/-- A participant that has not started holds back every other. -/
theorem seamRelease_of_missing {c : Nat} (hc : c ∈ e.cores) (hn : c ∉ e.started) : seamRelease slot s = s := by
  have hall : e.cores.all e.started.contains = false := List.all_eq_false.mpr ⟨c, hc, by simpa using hn⟩
  simp only [seamRelease, he, hall, Bool.not_false, Bool.or_true, if_true]

end

/-! ## PARTITION_EPISODE_COMPLETE (R331, R334) -/

section
variable (he : (seamOf s.dev slot).2.2 = some e)
include he

theorem partitionEpisode_of_arrived (hs : s.dev.inService = true) (hp : e.partScope = true) (hall : ∀ n ∈ e.queues, arrivedQueue s.dev e n = true) :
    partitionEpisode slot s = endEpisode (applyCovered s e.covered) slot e := by
  have hall : e.queues.all (arrivedQueue s.dev e) = true := List.all_eq_true.mpr hall
  simp only [partitionEpisode, he, hs, hp, hall, Bool.not_true, Bool.or_false, Bool.false_eq_true, if_false]

/-- A participating queue that has not arrived holds back the episode and its staged changes. -/
theorem partitionEpisode_of_missing {n : Nat} (hn : n ∈ e.queues) (ha : arrivedQueue s.dev e n = false) : partitionEpisode slot s = s := by
  have hall : e.queues.all (arrivedQueue s.dev e) = false := List.all_eq_false.mpr ⟨n, hn, by simp [ha]⟩
  simp only [partitionEpisode, he, hall, Bool.not_false, Bool.or_true, if_true]

end

end Sys2Proof.Machine

namespace Sys2Proof

open Machine

/-- Settles O48: a SEAM at the head of its core, and for each kind of episode the case that ends it and the case that waits. -/
theorem seamEpisodes : Obligations.SeamEpisodes := by
  refine ⟨?start, ?release, ?missing, ?complete, ?away⟩
  case start =>
    rintro s i k m own d1 hk hs hm rfl hd
    rw [exec_seamStart, onCore_of_inService hk hs, seamStart_of_head hm hd]
  case release =>
    intro s slot h sc e he hs hp hc hall
    rw [exec_seamRelease, seamRelease_of_started he hs hp hc hall]
  case missing =>
    intro s slot h sc e c he hc hn
    rw [exec_seamRelease, seamRelease_of_missing he hc hn]
  case complete =>
    intro s slot e he hs hp hall
    rw [exec_partitionEpisodeComplete, partitionEpisode_of_arrived he hs hp hall]
  case away =>
    intro s slot e n he hn ha
    rw [exec_partitionEpisodeComplete, partitionEpisode_of_missing he hn ha]

end Sys2Proof
end

section
/-! Objects at step 10: free entries, creating packets, exports, invalidation and QUERY. -/

namespace Sys2Proof.Machine

variable {s s2 : State} {d : Dev} {p : Pkt} {x : XFault}

/-! ## Free entries (R361, R363) -/

section
variable {t t' : Table} {i : Nat}

/-- A take changes the free queue alone. -/
theorem Table.take_get (h : t.take = some (i, t')) (j : Nat) : t'.get j = t.get j := by
  unfold Table.take at h
  split at h
  · cases h; rfl
  · split at h
    · cases h
    · cases h; rfl

/-- While a number has never been given out, a take gives the lowest of these. -/
theorem Table.take_of_fresh (h : t.take = some (i, t')) (hf : t.fresh < t.size) : i = t.fresh ∧ t'.fresh = t.fresh + 1 ∧ t'.freed = t.freed := by
  rw [Table.take, if_pos hf] at h
  cases h
  exact ⟨rfl, rfl, rfl⟩

/-- Once every number has been given out, a take gives the one freed first. -/
theorem Table.take_of_freed (h : t.take = some (i, t')) (hf : t.size ≤ t.fresh) : t.freed = i :: t'.freed ∧ t'.fresh = t.fresh := by
  rw [Table.take, if_neg (Nat.not_lt.mpr hf)] at h
  split at h
  case h_1 => cases h
  case h_2 heq => cases h; exact ⟨heq, rfl⟩

end

/-! ## Entries rewritten -/

/-- A rewrite of an entry depends on what it makes of the entry that stands there. -/
theorem Dev.modEntry_congr {r : ObjRef} {f g : Entry → Entry} (h : f (d.entry r) = g (d.entry r)) : d.modEntry r f = d.modEntry r g := by
  unfold Dev.entry at h
  unfold Dev.modEntry
  dsimp only at h ⊢
  rw [h]

/-! ## Creating packets (R301, R371, R380, R389) -/

theorem createTen_of_none {typ panel owner : Nat} {pay : Payload} (h : s.dev.create typ panel owner pay = none) :
    createTen s typ panel owner pay = .fail s .tableFull := by
  simp only [createTen, h]

section
variable {h : Nat} {r : ObjRef}

theorem objCreateTen_of_plain (hb : backingHeap s p.ctx (p.b 0).toNat (p.b 1).toNat = none)
    (hc : s.dev.create 1 0 p.ctx (.memObj (p.b 0).toNat (p.b 1).toNat none) = some (r, d)) :
    objCreateTen s p = .done (s.withDev d) (fun x => { x with value := d.handle r }) := by
  simp only [objCreateTen, hb, hc]

/-- R389: an object whose range is an allocation of a heap holds that heap. -/
theorem objCreateTen_of_backed (hb : backingHeap s p.ctx (p.b 0).toNat (p.b 1).toNat = some h)
    (hc : s.dev.create 1 0 p.ctx (.memObj (p.b 0).toNat (p.b 1).toNat (some h)) = some (r, d)) :
    objCreateTen s p = .done (s.withDev (addRef d ⟨6, h⟩)) (fun x => { x with value := d.handle r }) := by
  simp only [objCreateTen, hb, hc]

theorem objCreateTen_of_full {b : Option Nat} (hb : backingHeap s p.ctx (p.b 0).toNat (p.b 1).toNat = b)
    (hc : s.dev.create 1 0 p.ctx (.memObj (p.b 0).toNat (p.b 1).toNat b) = none) : objCreateTen s p = .fail s .tableFull := by
  simp only [objCreateTen, hb, hc]

/-- R381: an import entry holds its tack. -/
theorem tackImportTen_of_some (hc : s.dev.create 7 0 p.func (.imported (fld (p.b 1) 19 0)) = some (r, d)) :
    tackImportTen s p = .done (s.withDev (addRef d ⟨2, fld (p.b 1) 19 0⟩)) (fun x => { x with value := d.handle r }) := by
  simp only [tackImportTen, hc]

theorem tackImportTen_of_full (hc : s.dev.create 7 0 p.func (.imported (fld (p.b 1) 19 0)) = none) :
    tackImportTen s p = .fail s .tableFull := by
  simp only [tackImportTen, hc]

end

/-! ## Exports (R379) -/

theorem grantList_of_tack {r : ObjRef} {v : Word} {g : List Nat} {b : Bool} (h : (d.entry r).payload = .tack v g b) : grantList d r = g := by
  simp only [grantList, h]

theorem tackExportTen_of_self (hf : fld (p.b 1) 7 0 = p.func) : tackExportTen s p = .refuse s .badParam 0 := by
  simp only [tackExportTen, if_pos hf]

section
variable (hf : fld (p.b 1) 7 0 ≠ p.func)
include hf

theorem tackExportTen_of_granted (hg : fld (p.b 1) 7 0 ∈ grantList s.dev (objB0 p)) : tackExportTen s p = .done s id := by
  simp only [tackExportTen, if_neg hf, if_pos (List.contains_iff_mem.mpr hg)]

theorem tackExportTen_of_full (hg : fld (p.b 1) 7 0 ∉ grantList s.dev (objB0 p)) (hn : 4 ≤ (grantList s.dev (objB0 p)).length) :
    tackExportTen s p = .refuse s .badParam 0 := by
  simp only [tackExportTen, if_neg hf, if_neg (mt List.contains_iff_mem.mp hg), if_pos hn]

theorem tackExportTen_of_room {v : Word} {g : List Nat} {b : Bool} (hp : (s.dev.entry (objB0 p)).payload = .tack v g b)
    (hg : fld (p.b 1) 7 0 ∉ g) (hn : g.length < 4) : tackExportTen s p =
    .done (s.upd (fun d => d.modEntry (objB0 p) (fun e => { e with payload := .tack v (g ++ [fld (p.b 1) 7 0]) b }))) id := by
  simp only [tackExportTen, if_neg hf, grantList_of_tack hp, if_neg (mt List.contains_iff_mem.mp hg), if_neg (Nat.not_le.mpr hn)]
  refine congrArg (fun d => Ten.done (s.withDev d) id) (Dev.modEntry_congr ?_)
  simp only [hp]

end

/-! ## Invalidation (R405) and QUERY (R391) -/

theorem xlateInvalTen_eq (hd : d = s.dev.purge p.ctx (p.b 0).toNat (p.b 1).toNat) :
    xlateInvalTen s p = if ctxRequests d p.ctx then .wait (s.withDev d) else .done (s.withDev d) id := by
  subst hd
  rfl

theorem queryTen_of_written
    (h : dWrite (queryTouch s p) (s.dev.queue p.q).home p.ctx (p.b 0).toNat (wordsToBytes (queryRecord s p.ctx)) = .ok s2) :
    queryTen s p = .done s2 id := by
  simp only [queryTen, h]

theorem queryTen_of_fault
    (h : dWrite (queryTouch s p) (s.dev.queue p.q).home p.ctx (p.b 0).toNat (wordsToBytes (queryRecord s p.ctx)) = .error x) :
    queryTen s p = heapFault (queryTouch s p) p x := by
  simp only [queryTen, h]

/-- R388: a fault of the allocator's metadata or of QUERY's record refuses the packet and leaves a record of KIND 2. -/
theorem acceptRow_of_heapFault {sem : OpSem} {q : QRef} {s1 : State} (hten : reach sem q s = .ten s1 p)
    (h : sem.exec s1 p = heapFault s2 p x) :
    acceptRow sem q s = refused10 (s2.upd (fun d => dFault d p.q p { x with perm := true })) q p .permFault 0 :=
  acceptRow_of_refuse hten h

end Sys2Proof.Machine

namespace Sys2Proof

open Machine

/-- Settles O4: a take changes the free queue alone, and the entry is written into the table it leaves. -/
theorem createTakesAFreeEntry : Obligations.CreateTakesAFreeEntry := by
  intro t i owner pay t' h
  refine ⟨?_, fun j hj => ?_, Table.take_of_fresh h, Table.take_of_freed h⟩
  · rw [Table.make, Table.put_get_self, Table.take_get h]
  · rw [Table.make, Table.put_get_ne _ _ hj, Table.take_get h]

/-- Settles O3: the ending of step 10 that the lemma above gives, carried out by `acceptRow`. -/
theorem objectCreationCompletes : Obligations.ObjectCreationCompletes := by
  refine ⟨?tack, ?bobbin, ?seam, ?plain, ?backed, ?imported, ?noTack, ?noBobbin, ?noSeam, ?noObj, ?noImport⟩
  case tack => exact fun q s s1 p r d hten hc => congrArg Host.Outcome.next (acceptRow_of_done hten (createTen_of_some hc))
  case bobbin => exact fun q s s1 p r d hten hc => congrArg Host.Outcome.next (acceptRow_of_done hten (createTen_of_some hc))
  case seam => exact fun q s s1 p r d hten hc => congrArg Host.Outcome.next (acceptRow_of_done hten (createTen_of_some hc))
  case plain =>
    intro q s s1 p r d hten hb hc
    exact congrArg Host.Outcome.next (acceptRow_of_done hten (objCreateTen_of_plain hb hc))
  case backed =>
    intro q s s1 p h r d hten hb hc
    exact congrArg Host.Outcome.next (acceptRow_of_done hten (objCreateTen_of_backed hb hc))
  case imported => exact fun q s s1 p r d hten hc => congrArg Host.Outcome.next (acceptRow_of_done hten (tackImportTen_of_some hc))
  case noTack => exact fun q s s1 p hten hc => congrArg Host.Outcome.next (acceptRow_of_fail hten (createTen_of_none hc))
  case noBobbin => exact fun q s s1 p hten hc => congrArg Host.Outcome.next (acceptRow_of_fail hten (createTen_of_none hc))
  case noSeam => exact fun q s s1 p hten hc => congrArg Host.Outcome.next (acceptRow_of_fail hten (createTen_of_none hc))
  case noObj => exact fun q s s1 p h hten hb hc => congrArg Host.Outcome.next (acceptRow_of_fail hten (objCreateTen_of_full hb hc))
  case noImport => exact fun q s s1 p hten hc => congrArg Host.Outcome.next (acceptRow_of_fail hten (tackImportTen_of_full hc))

/-- Settles O5: the ending of step 10 that the lemma above gives, carried out by `acceptRow`. -/
theorem releaseExportInvalidationQueryComplete : Obligations.ReleaseExportInvalidationQueryComplete := by
  refine ⟨?release, ?granted, ?room, ?refused, ?inval, ?awaits, ?written, ?fault⟩
  case release => exact fun q s s1 p hten => congrArg Host.Outcome.next (acceptRow_of_done hten rfl)
  case granted =>
    intro q s s1 p hten hf hg
    exact congrArg Host.Outcome.next (acceptRow_of_done hten (tackExportTen_of_granted hf hg))
  case room =>
    intro q s s1 p v g b hten hf hp hg hn
    exact congrArg Host.Outcome.next (acceptRow_of_done hten (tackExportTen_of_room hf hp hg hn))
  case refused =>
    intro q s s1 p hten hbad
    have href : tackExportTen s1 p = .refuse s1 .badParam 0 := by
      by_cases hf : fld (p.b 1) 7 0 = p.func
      case pos => exact tackExportTen_of_self hf
      case neg =>
        obtain ⟨hg, hn⟩ := hbad.resolve_left hf
        exact tackExportTen_of_full hf hg hn
    exact congrArg Host.Outcome.next (acceptRow_of_refuse hten href)
  case inval =>
    intro q s s1 p d hten hd hr
    exact congrArg Host.Outcome.next (acceptRow_of_done hten ((xlateInvalTen_eq hd).trans (if_neg (Bool.eq_false_iff.mp hr))))
  case awaits =>
    intro q s s1 p d hten hd hr
    exact congrArg Host.Outcome.next (acceptRow_of_wait hten ((xlateInvalTen_eq hd).trans (if_pos hr)))
  case written =>
    intro q s s1 p s2 hten hw
    exact congrArg Host.Outcome.next (acceptRow_of_done hten (queryTen_of_written hw))
  case fault =>
    intro q s s1 p x hten hw
    exact congrArg Host.Outcome.next (acceptRow_of_heapFault hten (queryTen_of_fault hw))

end Sys2Proof
end

section
/-! What the actions on tacks do to the value of a tack. -/

namespace Sys2Proof.Machine

variable {d : Dev} {r : ObjRef} {v c : Word} {g : List Nat}

/-- R382: a broken tack keeps its value. -/
theorem tackAct_of_broken {add : Bool} (h : (d.entry r).payload = .tack c g true) : tackAct d r add v = (d, false) := by
  simp only [tackAct, tackVal_of_payload h, if_true]

section
variable (h : (d.entry r).payload = .tack c g false)
include h

/-- R374: an ADD sets the sum modulo 2^64 and ends the waits that it reaches. -/
theorem tackAct_add : tackAct d r true v = (endWaits (setTack d r (c + v)) (tackOf d r).slot (c + v), false) := by
  simp only [tackAct, tackVal_of_payload h, Bool.false_eq_true, if_false, if_true]

/-- R373: a SIGNAL of a value ahead sets it and ends the waits that it reaches. -/
theorem tackAct_signal_of_ahead (hv : 0 < (v - c).toInt) : tackAct d r false v = (endWaits (setTack d r v) (tackOf d r).slot v, false) := by
  have hahead : decide (0 < signedDiff v c) = true := decide_eq_true hv
  simp only [tackAct, tackVal_of_payload h, hahead, Bool.false_eq_true, if_false, if_true]

/-- R373: a SIGNAL of a value that is not ahead is a regression and changes nothing. -/
theorem tackAct_signal_of_behind (hv : (v - c).toInt ≤ 0) : tackAct d r false v = (d, true) := by
  have hbehind : decide (0 < signedDiff v c) = false := decide_eq_false (Int.not_lt.mpr hv)
  simp only [tackAct, tackVal_of_payload h, hbehind, Bool.false_eq_true, if_false]

end

end Sys2Proof.Machine

namespace Sys2Proof

open Machine

/-- Settles O19: an action on a tack that is not broken sets its value or is a regression, and a value set reads back. -/
theorem tackActionsFollowTheRules : Obligations.TackActionsFollowTheRules := by
  refine ⟨fun d r v c g h => ⟨fun hv => ?ahead, tackAct_signal_of_behind h, ?noRegress, ?add⟩, fun d r v c g add h => tackAct_of_broken h⟩
  case ahead =>
    rw [tackAct_signal_of_ahead h hv, tackVal_endWaits]
    exact ⟨tackVal_setTack h v, rfl⟩
  case noRegress => rw [tackAct_add h]
  case add => rw [tackAct_add h, tackVal_endWaits, tackVal_setTack h]

end Sys2Proof
end

section
/-! The device allocator: its search for a run of free blocks, and step 10 of the heap packets. -/

namespace Sys2Proof.Machine

/-! ## First fit (R385) -/

section
variable {bm : List Byte} {n start len next : Nat}

/-- The `n` blocks from block `i` on are coded free. -/
def RunFree (bm : List Byte) (n i : Nat) : Prop := ∀ k, k < n → blockCode bm (i + k) = 0

/-- One of the `n` blocks from block `i` on is not coded free. -/
def RunTaken (bm : List Byte) (n i : Nat) : Prop := ∃ k, k < n ∧ blockCode bm (i + k) ≠ 0

/-- What the search of `freeRun` knows before block `next`: the present run is free and still short, and no run begins below it. -/
structure RunSearch (bm : List Byte) (n start len next : Nat) : Prop where
  next_eq : start + len = next
  short : len < n
  free : RunFree bm len start
  below : ∀ j, j < start → RunTaken bm n j

theorem RunSearch.init (hn : 0 < n) : RunSearch bm n 0 0 0 :=
  ⟨rfl, hn, fun _ hk => absurd hk (Nat.not_lt_zero _), fun _ hj => absurd hj (Nat.not_lt_zero _)⟩

/-- A free block lengthens the present run. -/
theorem RunSearch.runFree_succ (h : RunSearch bm n start len next) (hb : blockCode bm next = 0) : RunFree bm (len + 1) start := by
  intro k hk
  rcases Nat.lt_succ_iff_lt_or_eq.mp hk with hlt | rfl
  · exact h.free k hlt
  · rw [h.next_eq, hb]

theorem RunSearch.extend (h : RunSearch bm n start len next) (hb : blockCode bm next = 0) (hl : len + 1 < n) :
    RunSearch bm n start (len + 1) (next + 1) :=
  ⟨congrArg Nat.succ h.next_eq, hl, h.runFree_succ hb, h.below⟩

/-- A block that is not free lies in every run of `n` blocks that begins in the present one. -/
theorem RunSearch.restart (h : RunSearch bm n start len next) (hb : blockCode bm next ≠ 0) : RunSearch bm n (next + 1) 0 (next + 1) := by
  obtain ⟨hnext, hshort, -, hbelow⟩ := h
  refine ⟨rfl, Nat.zero_lt_of_lt hshort, fun k hk => absurd hk (Nat.not_lt_zero k), fun j hj => ?_⟩
  by_cases hjs : j < start
  case pos => exact hbelow j hjs
  case neg =>
    refine ⟨next - j, by omega, ?_⟩
    rwa [Nat.add_sub_cancel' (Nat.le_of_lt_succ hj)]

/-- The run found from a search under way is free, ends before the blocks do, and is the lowest. -/
theorem RunSearch.freeRun_some {fuel i : Nat} (h : RunSearch bm n start len next) (hr : freeRun bm n start len next fuel = some i) :
    i + n ≤ next + fuel ∧ RunFree bm n i ∧ ∀ j, j < i → RunTaken bm n j := by
  induction fuel generalizing start len next with
  | zero => cases hr
  | succ fuel ih =>
    have hend : next + (fuel + 1) = next + 1 + fuel := by omega
    rw [hend]
    rw [freeRun] at hr
    split at hr
    case isTrue hb =>
      split at hr
      case isTrue hl =>
        obtain rfl : start = i := Option.some.inj hr
        obtain rfl : n = len + 1 := Nat.le_antisymm hl h.short
        have hnext := h.next_eq
        exact ⟨by omega, h.runFree_succ hb, h.below⟩
      case isFalse hl => exact ih (h.extend hb (Nat.not_le.mp hl)) hr
    case isFalse hb => exact ih (h.restart hb) hr

end

/-! ## Heap packets (R383 to R388) -/

section
variable {s s0 s2 : State} {d : Dev} {p : Pkt} {x : XFault} {b l n : Nat}

section
variable {r : ObjRef} (hl : l = Nat.log2 (p.b 2).toNat) (hn : n = (p.b 1).toNat / (p.b 2).toNat)
include hl hn

theorem heapSetupTen_of_full (hc : s.dev.create 6 0 p.ctx (.heap (p.b 0).toNat l n) = none) : heapSetupTen s p = .fail s .tableFull := by
  subst hl hn
  simp only [heapSetupTen, hc]

theorem heapSetupTen_of_written (hs : s0 = heapStart s p (p.b 0).toNat n)
    (hc : s.dev.create 6 0 p.ctx (.heap (p.b 0).toNat l n) = some (r, d))
    (hw : dWrite s0 heapPanel p.ctx (p.b 0).toNat (heapMeta l n) = .ok s2) :
    heapSetupTen s p = .done (s2.upd (fun e => { e with objs := d.objs })) (fun x => { x with value := d.handle r }) := by
  subst hl hn hs
  simp only [heapSetupTen, hc, hw]

theorem heapSetupTen_of_fault (hs : s0 = heapStart s p (p.b 0).toNat n)
    (hc : s.dev.create 6 0 p.ctx (.heap (p.b 0).toNat l n) = some (r, d))
    (hw : dWrite s0 heapPanel p.ctx (p.b 0).toNat (heapMeta l n) = .error x) : heapSetupTen s p = heapFault s0 p x := by
  subst hl hn hs
  simp only [heapSetupTen, hc, hw]

end

theorem heapB0_of_heap (h : (d.entry (objB0 p)).payload = .heap b l n) : heapB0 d p = some (b, l, n) := by
  simp only [heapB0, h]

theorem heapB0_of_other (h : ∀ b l n, (d.entry (objB0 p)).payload ≠ .heap b l n) : heapB0 d p = none := by
  unfold heapB0
  split
  case h_1 heq => exact absurd heq (h _ _ _)
  case h_2 => rfl

theorem allocTen_of_no_heap (h : heapB0 s.dev p = none) : allocTen s p = .fail s .outOfHeap := by
  simp only [allocTen, h]

/-- The ending of step 10 that an answer of the allocator gives: `nothing` where it finds nothing, `found` of what it finds (R385, R386, R388). -/
def heapTen {α : Type} (s : State) (p : Pkt) (nothing : Ten) (found : α → Ten) : HeapRes α → Ten
  | .fault x => heapFault s p x
  | .bad => .refuse s .badParam 0
  | .none => nothing
  | .ok a => found a

theorem allocTen_of_heap (h : (s.dev.entry (objB0 p)).payload = .heap b l n) {a : HeapRes (State × Nat)}
    (ha : heapAlloc (heapStart s p b n) p.ctx b l n (ceilDiv (p.b 1).toNat (2 ^ l)) = a) : allocTen s p =
    heapTen (heapStart s p b n) p (.fail (heapStart s p b n) .outOfHeap)
      (fun y => .done y.1 (fun x => { x with value := BitVec.ofNat 64 y.2 })) a := by
  simp only [allocTen, heapB0_of_heap h, ha]
  cases a <;> rfl

theorem freeTen_of_heap (h : (s.dev.entry (objB0 p)).payload = .heap b l n)
    (hb : backedAt s.dev (objB0 p).slot (p.b 1).toNat = false) {a : HeapRes State}
    (ha : heapFree (heapStart s p b n) p.ctx b l n (p.b 1).toNat = a) : freeTen s p =
    heapTen (heapStart s p b n) p (.refuse (heapStart s p b n) .badParam 0) (fun y => .done y id) a := by
  simp only [freeTen, heapB0_of_heap h, hb, ha, Bool.false_eq_true, if_false]
  cases a <;> rfl

theorem freeTen_of_backed (hb : backedAt s.dev (objB0 p).slot (p.b 1).toNat = true) : freeTen s p = .refuse s .badParam 0 := by
  unfold freeTen
  split
  · rfl
  · rw [if_pos hb]

end

end Sys2Proof.Machine

namespace Sys2Proof

open Machine

/-- Settles O8: the search of `freeRun` begins at block 0 with nothing seen. -/
theorem allocTakesTheLowestRun : Obligations.AllocTakesTheLowestRun := by
  intro bm n nblock i hn hr
  obtain ⟨hend, hfree, hlow⟩ := (RunSearch.init hn).freeRun_some hr
  exact ⟨hend.trans_eq (Nat.zero_add nblock), hfree, hlow⟩

/-- Settles O7: the ending of step 10 that the lemma above gives, carried out by `acceptRow`. -/
theorem heapPacketsComplete : Obligations.HeapPacketsComplete := by
  refine ⟨?setup, ?noHeap, ?setupFault, ?alloc, ?noRun, ?unnamed, ?allocBad, ?allocFault, ?free, ?freeBad, ?freeFault, ?backed⟩
  case setup =>
    intro q s s1 p l n s0 r d s2 hten hl hn hs hc hw
    exact congrArg Host.Outcome.next (acceptRow_of_done hten (heapSetupTen_of_written hl hn hs hc hw))
  case noHeap =>
    intro q s s1 p l n hten hl hn hc
    exact congrArg Host.Outcome.next (acceptRow_of_fail hten (heapSetupTen_of_full hl hn hc))
  case setupFault =>
    intro q s s1 p l n s0 r d x hten hl hn hs hc hw
    exact congrArg Host.Outcome.next (acceptRow_of_heapFault hten (heapSetupTen_of_fault hl hn hs hc hw))
  case alloc =>
    intro q s s1 p b l n s2 a hten hp ha
    exact congrArg Host.Outcome.next (acceptRow_of_done hten (allocTen_of_heap hp ha))
  case noRun =>
    intro q s s1 p b l n hten hp ha
    exact congrArg Host.Outcome.next (acceptRow_of_fail hten (allocTen_of_heap hp ha))
  case unnamed =>
    intro q s s1 p hten hp
    exact congrArg Host.Outcome.next (acceptRow_of_fail hten (allocTen_of_no_heap (heapB0_of_other hp)))
  case allocBad =>
    intro q s s1 p b l n hten hp ha
    exact congrArg Host.Outcome.next (acceptRow_of_refuse hten (allocTen_of_heap hp ha))
  case allocFault =>
    intro q s s1 p b l n x hten hp ha
    exact congrArg Host.Outcome.next (acceptRow_of_heapFault hten (allocTen_of_heap hp ha))
  case free =>
    intro q s s1 p b l n s2 hten hp hb ha
    exact congrArg Host.Outcome.next (acceptRow_of_done hten (freeTen_of_heap hp hb ha))
  case freeBad =>
    intro q s s1 p b l n hten hp hb ha
    rcases ha with ha | ha
    · exact congrArg Host.Outcome.next (acceptRow_of_refuse hten (freeTen_of_heap hp hb ha))
    · exact congrArg Host.Outcome.next (acceptRow_of_refuse hten (freeTen_of_heap hp hb ha))
  case freeFault =>
    intro q s s1 p b l n x hten hp hb ha
    exact congrArg Host.Outcome.next (acceptRow_of_heapFault hten (freeTen_of_heap hp hb ha))
  case backed =>
    intro q s s1 p hten hb
    exact congrArg Host.Outcome.next (acceptRow_of_refuse hten (freeTen_of_backed hb))

end Sys2Proof
end

section
/-! The invariant of memory along a step: a command keeps the canonical form by `exec_ends`, and an idle cycle touches no memory. -/

namespace Sys2Proof.Machine

theorem step_keeps_canonical {s t : State} (hc : MemoryCanonical s) (h : step s = .next t) : MemoryCanonical t := by
  unfold step at h
  split at h
  case h_1 =>
    cases h
    exact hc
  case h_2 c rest hp =>
    obtain ⟨u, hu, hf⟩ := exec_ends c { s with pending := rest }
    rw [hu] at h
    cases h
    exact hf.canon hc

end Sys2Proof.Machine

namespace Sys2Proof

open Machine

/-- Settles O58, by `step_keeps_canonical`. -/
theorem memoryStaysCanonical : Obligations.MemoryStaysCanonical := fun _ _ => step_keeps_canonical

end Sys2Proof
end

section
/-! The 32-bit elements of a granule: what the accumulate unit's read-modify-write leaves in each (R81, R407). -/

namespace Sys2Proof.Machine

@[simp] theorem leBytes_length (n v : Nat) : (leBytes n v).length = n := by
  induction n generalizing v with
  | zero => rfl
  | succ n ih => simp only [leBytes, List.length_cons, ih]

/-- The low-order bytes of a number spell its value below their range. -/
theorem leNat_leBytes (n v : Nat) : leNat (leBytes n v) = v % 256 ^ n := by
  induction n generalizing v with
  | zero => exact (Nat.mod_one v).symm
  | succ n ih =>
    have hb : (BitVec.ofNat 8 v).toNat = v % 256 := BitVec.toNat_ofNat v 8
    rw [leBytes, leNat, ih, hb, Nat.pow_succ', Nat.mod_mul]

/-- A list laid out in blocks of one size: the block at an index. -/
theorem take_drop_flatMap {α β : Type} {f : α → List β} {n : Nat} (hf : ∀ a, (f a).length = n) (l : List α) {i : Nat} (hi : i < l.length) :
    ((l.flatMap f).drop (n * i)).take n = f l[i] := by
  induction l generalizing i with
  | nil => exact absurd hi (Nat.not_lt_zero i)
  | cons a l ih =>
    cases i with
    | zero => simp [List.take_left' (hf a)]
    | succ i =>
      have hlen : (f a).length + n * i = n * (i + 1) := by rw [hf, Nat.mul_succ, Nat.add_comm]
      rw [List.flatMap_cons, ← hlen, List.drop_append, List.drop_of_length_le (Nat.le_add_right _ _), Nat.add_sub_cancel_left]
      exact ih (Nat.lt_of_succ_lt_succ hi)

/-- A granule laid out from its sixteen elements. -/
def elemsGran (f : Nat → F32) : List Byte := (List.range 16).flatMap (fun i => leBytes 4 (f i).toNat)

theorem elemsGran_length (f : Nat → F32) : (elemsGran f).length = 64 := by
  simp only [elemsGran, List.length_flatMap, leBytes_length, List.map_const', List.sum_replicate, List.length_range, smul_eq_mul]

theorem elemAt_elemsGran (f : Nat → F32) {i : Nat} (hi : i < 16) : elemAt (elemsGran f) i = f i := by
  have hb : ((elemsGran f).drop (4 * i)).take 4 = leBytes 4 (f i).toNat := by
    rw [elemsGran, take_drop_flatMap (fun _ => leBytes_length 4 _) _ (by rwa [List.length_range]), List.getElem_range]
  have hv : (f i).toNat < 256 ^ 4 := (f i).isLt
  rw [elemAt, hb, leNat_leBytes, Nat.mod_eq_of_lt hv, BitVec.ofNat_toNat, BitVec.setWidth_eq]

theorem accGran_eq (old data : List Byte) (mask : Nat) :
    accGran old data mask = elemsGran (fun i => if mask.testBit i then fadd (elemAt old i) (elemAt data i) else elemAt old i) := rfl

theorem zeroGran_eq (old : List Byte) (mask : Nat) : zeroGran old mask = elemsGran (fun i => if mask.testBit i then 0 else elemAt old i) := rfl

end Sys2Proof.Machine

namespace Sys2Proof

open Machine

/-- Settles O38: both granules are laid out from their elements, and each element reads back as it was laid out. -/
theorem accumulateChangesMaskedElements : Obligations.AccumulateChangesMaskedElements := by
  intro old data mask i _ hi
  rw [accGran_eq, zeroGran_eq]
  exact ⟨elemAt_elemsGran _ hi, elemAt_elemsGran _ hi, elemsGran_length _, elemsGran_length _⟩

end Sys2Proof
end

section
/-! Walks and grants: a leaf that a walk answers is checked against the grants of the context's owner, so its page lies inside them (R396,
R397, R426, R427). -/

namespace Sys2Proof.Machine

variable {s : State} {d : Dev} {own ctx root va pa n : Nat} {acc : Acc3} {w : Word}

/-! ## Coverage by grants (R426) -/

/-- Every address below the first one that no range covers lies in a range. -/
theorem exists_range_of_lt_coveredTo {rs : List (Nat × Nat)} {a x fuel : Nat} (ha : a ≤ x) (hx : x < coveredTo rs a fuel) :
    ∃ r ∈ rs, r.1 ≤ x ∧ x < r.1 + r.2 := by
  induction fuel generalizing a with
  | zero => exact absurd hx (Nat.not_lt.mpr ha)
  | succ fuel ih =>
    unfold coveredTo at hx
    split at hx
    case h_1 r hr =>
      have hc := List.find?_some hr
      simp only [Bool.and_eq_true, decide_eq_true_eq] at hc
      by_cases hin : x < r.1 + r.2
      · exact ⟨r, List.mem_of_find?_eq_some hr, hc.1.trans ha, hin⟩
      · exact ih (Nat.le_of_not_lt hin) hx
    case h_2 => exact absurd hx (Nat.not_lt.mpr ha)

/-- A function other than 0 is granted each byte of a range that lies inside its grants. -/
theorem granted_of_inGrants {f a x : Nat} (hf : f ≠ 0) (h : inGrants d f a n = true) (ha : a ≤ x) (hx : x < a + n) : granted d f x = true := by
  simp only [inGrants, if_neg hf, decide_eq_true_eq] at h
  obtain ⟨r, hr, hlo, hhi⟩ := exists_range_of_lt_coveredTo ha (hx.trans_le h)
  simp only [granted, List.any_eq_true, Bool.and_eq_true, decide_eq_true_eq]
  exact ⟨r, hr, hlo, hhi⟩

/-! ## The leaf that a walk answers (R397, R400) -/

/-- A leaf of span 2^n is of host memory, or its page lies inside the grants of function `own`. -/
def LeafGranted (d : Dev) (own n : Nat) (w : Word) : Prop := pteTarget w = 1 ∨ inGrants d own (pteAddr w) (2 ^ n) = true

/-- A leaf that is not malformed is of device or of host memory (R397). -/
theorem pteTarget_le_of_wellFormed {p : Params} {l : Level} (hl : pteLeaf w = true) (h : ¬ pteMalformed p d l w = true) : pteTarget w ≤ 1 := by
  refine Nat.le_of_not_lt fun ht => h ?_
  simp only [pteMalformed, hl, if_true, ht, decide_true, Bool.or_true, Bool.true_or]

theorem leafGranted_of_readLevel {p : Params} {l : Level} {e : Option Word} (h : readLevel p d own l e = .inl (.leaf n w)) :
    LeafGranted d own n w := by
  unfold readLevel at h
  split at h
  case h_1 => cases h
  case h_2 v =>
    split at h
    · cases h
    split at h
    · cases h
    rename_i hok
    split at h
    · rename_i hl
      split at h
      · cases h
      · rename_i hg
        cases h
        have ht := pteTarget_le_of_wellFormed hl hok
        simp only [Bool.and_eq_true, beq_iff_eq, Bool.not_eq_true', not_and, Bool.not_eq_false] at hg
        exact (Nat.le_one_iff_eq_zero_or_eq_one.mp ht).symm.imp_right hg
    · cases h

theorem leafGranted_of_walkLevels {wc ptrs : List TlbEntry} {ls : List Level} {tbl : Nat}
    (h : (walkLevels s wc own ctx root va ls tbl ptrs).fin = .leaf n w) : LeafGranted s.dev own n w := by
  induction ls generalizing tbl ptrs with
  | nil => cases h
  | cons l ls ih =>
    unfold walkLevels at h
    split at h
    · exact ih h
    split at h
    · cases h
    split at h
    · rename_i hr
      exact leafGranted_of_readLevel (hr.trans (congrArg Sum.inl h))
    · exact ih h

theorem leafGranted_of_walk {wc : List TlbEntry} (h : (walk s wc ctx root va).fin = .leaf n w) :
    LeafGranted s.dev (s.dev.ctx ctx).owner n w := by
  unfold walk at h
  split at h
  · exact leafGranted_of_walkLevels h
  · cases h

/-! ## Targets -/

theorem useLeaf_phys (h : useLeaf w n va acc = .ok (.phys pa)) : pteTarget w ≠ 1 ∧ pa = pteAddr w + va % 2 ^ n := by
  unfold useLeaf targetOf at h
  split at h
  · dsimp only at h
    split at h
    · cases h
    · rename_i ht
      cases h
      exact ⟨ht, rfl⟩
  · cases h

theorem granted_of_useLeaf (hown : own ≠ 0) (hl : LeafGranted d own n w) (h : useLeaf w n va acc = .ok (.phys pa)) : granted d own pa = true := by
  obtain ⟨ht, rfl⟩ := useLeaf_phys h
  exact granted_of_inGrants hown (hl.resolve_left ht) (Nat.le_add_right _ _) (Nat.add_lt_add_left (Nat.mod_lt _ (Nat.two_pow_pos n)) _)

theorem granted_of_translate {wc : List TlbEntry} (hown : (s.dev.ctx ctx).owner ≠ 0) (h : translate s wc ctx root va acc = .ok (.phys pa)) :
    granted s.dev (s.dev.ctx ctx).owner pa = true := by
  unfold translate at h
  split at h
  case h_1 hw => exact granted_of_useLeaf hown (leafGranted_of_walk hw) h
  case h_2 => cases h
  case h_3 => cases h

end Sys2Proof.Machine

namespace Sys2Proof

open Machine

/-- Settles O60: the leaf that a walk answers was checked against the owner's grants, and dispatch walks where it holds no leaf. -/
theorem translationsStayInGrants : Obligations.TranslationsStayInGrants := by
  refine ⟨fun s wc ctx root va pa acc hown h => granted_of_translate hown h, fun s panel ctx va pa acc hown hleaf h => ?_⟩
  rw [dXlate, hleaf] at h
  exact granted_of_translate hown h

end Sys2Proof
end

section
/-! Faults of the accesses that step 10 makes: the record of what was found, and the refusal (R388, R402). -/

namespace Sys2Proof.Machine

variable {s t : State} {p : Pkt} {x : XFault}

/-- R402: the packet is refused with PERM_FAULT over the state that holds the fault record. -/
theorem acceptRow_of_tenFault {sem : OpSem} {q : QRef} {s1 : State} (hten : reach sem q s = .ten s1 p) (h : sem.exec s1 p = tenFault t p x) :
    acceptRow sem q s = refused10 (t.upd (fun d => dFault d p.q p x)) q p .permFault 0 :=
  acceptRow_of_refuse hten h

theorem patternDefineTen_of_fault
    (h : patternOk s (s.dev.queue p.q).home p.ctx 0 0 (p.b 0).toNat (p.b 1).toNat = .error x) : patternDefineTen s p =
    tenFault (patternTouch (s.dev.queue p.q).home p.ctx (p.b 1).toNat (p.b 0).toNat s) p x := by
  simp only [patternDefineTen, h]

theorem loopTen_of_fault (h : loopEnd s p.q = .error x) : loopTen s p = tenFault (loopTouch s p.q) p x := by
  simp only [loopTen, h]

theorem predClipTen_of_fault {va n : Nat} (ha : alone s.dev p = true) (hva : va = (p.b 0).toNat + 192 * (p.b 1).toNat)
    (hn : n = 192 * (p.b 2).toNat) (h : dRead s (s.dev.queue p.q).home p.ctx va n = .error x) :
    predClipTen s p = tenFault (dTouch s (s.dev.queue p.q).home p.ctx va n .read) p x := by
  subst hva hn
  simp only [predClipTen, ha, Bool.not_true, Bool.false_eq_true, if_false, h]

theorem descWriteTen_of_fault (hc : copiesDone s.dev p = true)
    (h : writeDescs s (s.dev.queue p.q).home p.ctx (p.b 0).toNat
      ((List.range (p.b 1).toNat).map (fun i => (List.range 8).map (fun j => p.b (2 + 8 * i + j)))) = (t, some x)) :
    descWriteTen s p = tenFault t p x := by
  simp only [descWriteTen, hc, Bool.not_true, Bool.false_eq_true, if_false, h]

end Sys2Proof.Machine

namespace Sys2Proof

open Machine

/-- Settles O17: each row ends step 10 in a fault, by its lemma above or of the allocator, and a fault refuses the packet. -/
theorem faultsAtStepTenRefuse : Obligations.FaultsAtStepTenRefuse := by
  refine ⟨?pattern, ?loop, ?predClip, ?descWrite, ?alloc, ?free⟩
  case pattern =>
    intro q s s1 p s0 x hten hs h
    subst hs
    exact congrArg Host.Outcome.next (acceptRow_of_tenFault hten (patternDefineTen_of_fault h))
  case loop =>
    intro q s s1 p x hten h
    exact congrArg Host.Outcome.next (acceptRow_of_tenFault hten (loopTen_of_fault h))
  case predClip =>
    intro q s s1 p va n x hten ha hva hn h
    exact congrArg Host.Outcome.next (acceptRow_of_tenFault hten (predClipTen_of_fault ha hva hn h))
  case descWrite =>
    intro q s s1 p s2 x hten hc h
    exact congrArg Host.Outcome.next (acceptRow_of_tenFault hten (descWriteTen_of_fault hc h))
  case alloc =>
    intro q s s1 p b l n x hten hp ha
    exact congrArg Host.Outcome.next (acceptRow_of_heapFault hten (allocTen_of_heap hp ha))
  case free =>
    intro q s s1 p b l n x hten hp hb ha
    exact congrArg Host.Outcome.next (acceptRow_of_heapFault hten (freeTen_of_heap hp hb ha))

end Sys2Proof
end

section
/-! The frame of memory: acts of a core, of its front end and engines, of queues and of the aperture's reads that rewrite the device alone, so
that no byte and no poison mark changes (R406, R410, R522). -/

namespace Sys2Proof.Machine

variable {s t : State} {k : Nat}

theorem ite_mem {c : Prop} [Decidable c] {u : State} (ht : t.mem = s.mem) (hu : u.mem = s.mem) : (if c then t else u).mem = s.mem := by
  split
  · exact ht
  · exact hu

/-! ## The records an access leaves, and the packets of a ring (R256, R402) -/

@[simp] theorem touchAll_mem (panel ctx : Nat) (a : Acc3) (l : List (Nat × Nat)) (s : State) : (touchAll panel ctx a l s).mem = s.mem := by
  induction l generalizing s with
  | nil => rfl
  | cons pc rest ih =>
    unfold touchAll
    exact ite_mem (ih _) rfl

@[simp] theorem dTouch_mem (s : State) (panel ctx va n : Nat) (a : Acc3) : (dTouch s panel ctx va n a).mem = s.mem := touchAll_mem _ _ _ _ _

@[simp] theorem packetTouch_mem (s : State) (panel ctx va : Nat) : (packetTouch s panel ctx va).mem = s.mem := by
  unfold packetTouch
  dsimp only
  split
  · exact dTouch_mem _ _ _ _ _ _
  · exact (dTouch_mem _ _ _ _ _ _).trans (dTouch_mem _ _ _ _ _ _)

@[simp] theorem slotTouch_mem (s : State) (q : QRef) (x : Queue) (i : BitVec 32) : (slotTouch s q x i).mem = s.mem := by
  cases q with
  | ctl _ => rfl
  | work _ => exact packetTouch_mem _ _ _ _

@[simp] theorem disposeRing_mem (q : QRef) (st : Status) (fate : Fate) (n : Nat) (s : State) : (disposeRing s q st fate n).mem = s.mem := by
  induction n generalizing s with
  | zero => rfl
  | succ n ih =>
    unfold disposeRing
    exact ite_mem rfl ((ih _).trans (slotTouch_mem _ _ _ _))

@[simp] theorem writeStatus_mem (s : State) (q : QRef) (v : Word) : (writeStatus s q v).mem = s.mem :=
  ite_mem (ite_mem (disposeRing_mem _ _ _ _ _) rfl) rfl

@[simp] theorem writeQueueReg_mem (s : State) (f win o : Nat) (v : Word) : (writeQueueReg s f win o v).mem = s.mem := by
  unfold writeQueueReg
  split
  · exact ite_mem (writeStatus_mem _ _ _) rfl
  · rfl

/-! ## The aperture's reads (R415) -/

@[simp] theorem apTouch_mem (s : State) (f addr n : Nat) (a : Acc3) : (apTouch s f addr n a).mem = s.mem := by
  unfold apTouch
  split
  · rfl
  split
  · rfl
  · exact List.foldlRecOn (motive := fun u : State => u.mem = s.mem) _ _ rfl fun _ h _ _ => h

@[simp] theorem apertureRead_mem (s : State) (f addr nw : Nat) : (apertureRead s f addr nw).mem = s.mem := by
  unfold apertureRead
  refine ite_mem rfl (ite_mem rfl ?_)
  split
  · rfl
  · exact apTouch_mem _ _ _ _ _

/-! ## The copies of the front end (R210, R282, R401) -/

@[simp] theorem frontStep_mem (s : State) (k : Nat) (m : Cmd) (code va n : Nat) (a : Acc3) : (frontStep s k m code va n a).1.mem = s.mem := by
  unfold frontStep
  dsimp only
  split
  · exact ite_mem rfl rfl
  split
  · rfl
  · rfl

/-- Memory after a front copy whose answer a match has taken apart. -/
theorem frontStep_mem_of_eq {m : Cmd} {code va n : Nat} {a : Acc3} {o : Option (List Byte)} (h : frontStep s k m code va n a = (t, o)) :
    t.mem = s.mem := by
  rw [← frontStep_mem s k m code va n a, h]

@[simp] theorem blockRead_mem (s : State) (k : Nat) : (blockRead s k).mem = s.mem := by
  unfold blockRead
  dsimp only
  split
  · rfl
  split
  case h_1 hf => exact frontStep_mem_of_eq hf
  case h_2 hf => exact (State.upd_mem _ _).trans (frontStep_mem_of_eq hf)

@[simp] theorem bundleCopy_mem (s : State) (k : Nat) : (bundleCopy s k).mem = s.mem := by
  unfold bundleCopy
  dsimp only
  split
  · rfl
  split
  case h_1 hf => exact frontStep_mem_of_eq hf
  case h_2 hf => exact (State.withDev_mem _ _).trans (frontStep_mem_of_eq hf)

@[simp] theorem swatchCopy_mem (s : State) (n k : Nat) : (swatchCopy s n k).mem = s.mem := by
  unfold swatchCopy
  dsimp only
  split
  · rfl
  split
  case h_1 hf => exact frontStep_mem_of_eq hf
  case h_2 hf => exact (State.upd_mem _ _).trans (frontStep_mem_of_eq hf)

@[simp] theorem fabLoad_mem (s : State) (k : Nat) : (fabLoad s k).mem = s.mem := by
  unfold fabLoad
  dsimp only
  split
  · rfl
  refine ite_mem rfl ?_
  split
  case h_1 hf => exact (frontStep_mem_of_eq hf).trans (ite_mem rfl rfl)
  case h_2 hf => exact (State.upd_mem _ _).trans ((frontStep_mem_of_eq hf).trans (ite_mem rfl rfl))

@[simp] theorem bobbinTake_mem (s : State) (k : Nat) : (bobbinTake s k).mem = s.mem := by
  unfold bobbinTake
  dsimp only
  split
  · rfl
  split
  · split
    · rfl
    · rfl
  · rfl

/-! ## Streams (R198 to R219) and the watchdog -/

@[simp] theorem issueNext_mem (s : State) (k own uid n : Nat) (two : Bool) : (issueNext s k own uid n two).mem = s.mem := by
  unfold issueNext
  split
  · rfl
  split
  · rfl
  dsimp only
  split
  · rfl
  split
  · rfl
  · rfl
  · rfl

@[simp] theorem issueRegion_mem (s : State) (k own : Nat) (m : Cmd) (n : Nat) (two : Bool) : (issueRegion s k own m n two).mem = s.mem := by
  unfold issueRegion
  dsimp only
  split
  · rfl
  · exact ite_mem rfl (ite_mem rfl (ite_mem (issueNext_mem _ _ _ _ _ _) (ite_mem rfl (ite_mem rfl (issueNext_mem _ _ _ _ _ _)))))

@[simp] theorem streamIssue_mem (s : State) (k own : Nat) (m : Cmd) : (streamIssue s k own m).mem = s.mem := by
  unfold streamIssue
  dsimp only
  split
  · rfl
  · rfl

@[simp] theorem granuleIssue_mem (s : State) (run : Nat) (two : Bool) (k : Nat) : (granuleIssue s run two k).mem = s.mem := by
  unfold granuleIssue
  refine ite_mem rfl (ite_mem ?_ ?_)
  · split
    · exact ite_mem (issueRegion_mem _ _ _ _ _ _) rfl
    · rfl
  · split
    · exact ite_mem (streamIssue_mem _ _ _ _) rfl
    · rfl

@[simp] theorem dataArrival_mem (s : State) (req k : Nat) : (dataArrival s req k).mem = s.mem := by
  unfold dataArrival
  split
  · rfl
  · rfl

@[simp] theorem freeReport_mem (s : State) (run issuer k : Nat) : (freeReport s run issuer k).mem = s.mem := by
  unfold freeReport
  dsimp only
  split
  · refine ite_mem rfl ?_
    split
    · exact ite_mem rfl rfl
    · rfl
  · rfl

@[simp] theorem stallFire_mem (s : State) (k : Nat) : (stallFire s k).mem = s.mem := by
  unfold stallFire
  refine ite_mem rfl ?_
  split
  · rfl
  · rfl

@[simp] theorem abortFire_mem (s : State) (source k : Nat) : (abortFire s source k).mem = s.mem := by
  unfold abortFire
  dsimp only
  split
  · rfl
  · rfl

/-! ## The engines and the fabric, where the arrays read without error (R505) -/

theorem onEcc_ok (s : State) (k : Nat) (go : State → State) : onEcc s k .ok go = go s := rfl

@[simp] theorem sideRead_ok_mem (s : State) (side : Side) (k : Nat) : (sideRead s side .ok k).mem = s.mem := by
  unfold sideRead
  simp only [onEcc_ok]
  split
  · rfl
  · exact ite_mem rfl rfl

@[simp] theorem accLoadNext_ok_mem (s : State) (k : Nat) : (accLoadNext s .ok k).mem = s.mem := by
  unfold accLoadNext
  split
  · rfl
  · rfl

theorem issueBeat_ok_mem (s : State) (k : Nat) (c : Core) (f : Fill) : (issueBeat s .ok k c f).mem = s.mem := by
  unfold issueBeat
  split
  · rfl
  · rfl

@[simp] theorem beatStep_ok_mem (s : State) (k : Nat) : (beatStep s .ok k).mem = s.mem := by
  unfold beatStep
  dsimp only
  split
  · exact issueBeat_ok_mem s k _ _
  split
  · rfl
  · rfl
  · exact issueBeat_ok_mem s k _ _

@[simp] theorem drainRow_ok_mem (s : State) (k : Nat) : (drainRow s .ok k).mem = s.mem := by
  unfold drainRow
  dsimp only
  split
  · rfl
  split
  · rfl
  · rfl

@[simp] theorem fabricTick_ok_mem (s : State) (rets : List ExtRet) (k : Nat) : (fabricTick s rets .ok k).mem = s.mem := by
  unfold fabricTick
  dsimp only
  split
  · rfl
  refine ite_mem rfl ?_
  split
  · rfl
  · rfl

@[simp] theorem kernelEnd_mem (s : State) (k : Nat) : (kernelEnd s k).mem = s.mem := by
  unfold kernelEnd
  dsimp only
  split
  · rfl
  refine ite_mem rfl ?_
  split
  · rfl
  · rfl

/-! ## Seams, grants and walks -/

@[simp] theorem seamStart_mem (s : State) (k : Nat) : (seamStart s k).mem = s.mem := by
  unfold seamStart
  dsimp only
  split
  · rfl
  · exact ite_mem rfl rfl

@[simp] theorem seamRelease_mem (s : State) (slot : Nat) : (seamRelease slot s).mem = s.mem := by
  unfold seamRelease
  dsimp only
  split
  · rfl
  · exact ite_mem rfl rfl

@[simp] theorem purgeDone_mem (s : State) (g : Nat) : (purgeDone s g).mem = s.mem := ite_mem rfl rfl

@[simp] theorem walkComplete_mem (s : State) (panel idx : Nat) : (walkComplete s panel idx).mem = s.mem := by
  unfold walkComplete
  dsimp only
  split
  · rfl
  split
  · rfl
  split
  · exact State.withDev_mem _ _
  split
  · exact State.withDev_mem _ _
  · exact State.withDev_mem _ _
  · exact State.withDev_mem _ _

/-! ## The commands -/

/-- A command's answer has the memory of `s`. -/
def KeepsMem (s : State) (o : Out) : Prop := ∀ t, o = .next t → t.mem = s.mem

theorem keepsMem_next (h : t.mem = s.mem) : KeepsMem s (.next t) := by
  rintro _ ⟨⟩
  exact h

theorem keepsMem_onCore {idx : Nat} {f : Nat → State} (hf : ∀ k, (f k).mem = s.mem) : KeepsMem s (onCore s idx f) := by
  refine keepsMem_next ?_
  split
  · exact ite_mem (hf _) rfl
  · rfl

theorem exec_keepsMem (c : Instr) (s : State) (hc : keepsMemory c = true) : KeepsMem s (exec c s) := by
  cases c with
  | restart func win value => exact keepsMem_next (ite_mem (writeQueueReg_mem _ _ _ _ _) rfl)
  | restartFlush func win value => exact keepsMem_next (ite_mem (writeQueueReg_mem _ _ _ _ _) rfl)
  | heldFaultRecordWrite func => exact keepsMem_next (ite_mem rfl rfl)
  | grantPurgeDone g => exact keepsMem_next (purgeDone_mem _ _)
  | apertureRead func addr nw => exact keepsMem_next (apertureRead_mem _ _ _ _)
  | pageWalkComplete panel idx => exact keepsMem_next (walkComplete_mem _ _ _)
  | admission core => exact keepsMem_onCore fun _ => rfl
  | commandBlockRead core => exact keepsMem_onCore (blockRead_mem s)
  | bundleCopy core => exact keepsMem_onCore (bundleCopy_mem s)
  | swatchCopy core store => exact keepsMem_onCore (swatchCopy_mem s store)
  | bobbinTake core => exact keepsMem_onCore (bobbinTake_mem s)
  | granuleIssue core run two => exact keepsMem_onCore (granuleIssue_mem s run two)
  | readDataArrival core req => exact keepsMem_onCore (dataArrival_mem s req)
  | mcastFreeReport member run issuer => exact keepsMem_onCore (freeReport_mem s run issuer)
  | stallWatchdog core => exact keepsMem_onCore (stallFire_mem s)
  | watchdogAbort core source => exact keepsMem_onCore (abortFire_mem s source)
  | sidePortRead core side ecc =>
    cases ecc with
    | ok => exact keepsMem_onCore (sideRead_ok_mem s side)
    | _ => cases hc
  | accLoad core ecc =>
    cases ecc with
    | ok => exact keepsMem_onCore (accLoadNext_ok_mem s)
    | _ => cases hc
  | beatIssue core ecc =>
    cases ecc with
    | ok => exact keepsMem_onCore (beatStep_ok_mem s)
    | _ => cases hc
  | drainRowRead core ecc =>
    cases ecc with
    | ok => exact keepsMem_onCore (drainRow_ok_mem s)
    | _ => cases hc
  | fabricTick core rets ecc =>
    cases ecc with
    | ok => exact keepsMem_onCore (fabricTick_ok_mem s rets)
    | _ => cases hc
  | kernelRunStart core => exact keepsMem_onCore fun _ => rfl
  | kernelRunEnd core => exact keepsMem_onCore (kernelEnd_mem s)
  | fabLoadComplete core => exact keepsMem_onCore (fabLoad_mem s)
  | seamStart core => exact keepsMem_onCore (seamStart_mem s)
  | seamRelease slot => exact keepsMem_next (seamRelease_mem _ _)
  | targetChannelReady => exact keepsMem_next (ite_mem rfl rfl)
  | faultRecordRetry func | interruptSend func vector | resetKeyTimeout | qosWindowStart | resetHoldExpire | resetRelease
  | pwrAlertAssert panel | pwrAlertDeassert panel | pkgpwrSample watts | powerWindow | healthWindowEnd
  | stackReadyRise panel port cap retained | flitReceive link up module rxd | laneRepair link up module clkStopped
  | optionLoad copyA copyB | optRdyTimeout | logicBist | sramBist fails shared | stackTrainingTimeout | linkTraining results
  | bootImageVerify mc uc svcA svcB cert | testCapture panel sel pins | testShift panel sel si | testUpdate panel sel
  | testReset panel trstLow | testModeChange panel mode | backupSupplyFailure =>
    exact keepsMem_next rfl
  | _ => cases hc

end Sys2Proof.Machine

namespace Sys2Proof

open Machine

/-- Settles O57: row by row of `exec`, a command of the list rewrites the device alone. -/
theorem frameOfMemory : Obligations.FrameOfMemory := fun c s t hc => exec_keepsMem c s hc t

end Sys2Proof
end

section
/-! Remap copies and the end of page walks: which granule a copy moves, and what a walk leaves by how it ended (R400, R403, R417). -/

namespace Sys2Proof.Machine

variable {s : State} {key panel idx a b n : Nat} {r : Remap} {w : Walk} {m : Cmd}

/-! ## REMAP_GRANULE_COPY (R417) -/

/-- The state once the granule at the pointer of `r` has been moved between places `a` and `b` of a port. -/
def copiedGran (s : State) (key : Nat) (r : Remap) (a b : Nat) : State :=
  { s with mem := moveGran s.mem (placeOf key a) (placeOf key b), dev := s.dev.modPort key (advanceRemap r) }

theorem remapCopy_of_copying (hr : (s.dev.port key).remaps.find? (·.copying) = some r) (he : remapEnds s.params s.dev key r = (a, b)) :
    remapCopy s key = if unitBytes r.coarse ≤ r.ptr + 64 then completePkt (copiedGran s key r a b) (.ctl 0) r.uid else copiedGran s key r a b := by
  simp only [remapCopy, hr, he, copiedGran]

theorem remapCopy_of_none (h : ∀ r ∈ (s.dev.port key).remaps, r.copying = false) : remapCopy s key = s := by
  have hn : (s.dev.port key).remaps.find? (·.copying) = none := List.find?_eq_none.mpr fun r hr => by simp [h r hr]
  simp only [remapCopy, hn]

/-! ## PAGE_WALK_COMPLETE (R400, R403, R404) -/

/-- The device once the walk has left the walker of its panel. -/
def walkLeft (d : Dev) (panel idx : Nat) : Dev := d.setPanel panel { d.panel panel with walks := (d.panel panel).walks.eraseIdx idx }

/-- What the core that asked records when it halts on an absent page (R230). -/
def walkHalt (m : Cmd) (w : Walk) : Halt :=
  ⟨m.uid, w.region, w.va, w.access, w.gen, haltWhat w.region, match m.region w.region with | some r => r.credited.map (·.1) | none => []⟩

theorem walkComplete_of_absent (h : (s.dev.panel panel).walks[idx]? = none) : walkComplete s panel idx = s := by
  simp only [walkComplete, h]

theorem walkComplete_of_reading (h : (s.dev.panel panel).walks[idx]? = some w) (hw : w.res = none) : walkComplete s panel idx = s := by
  simp only [walkComplete, h, hw]

section
variable (h : (s.dev.panel panel).walks[idx]? = some w)
include h

theorem walkComplete_of_leaf {pte : Word} (hw : w.res = some (.leaf n pte)) : walkComplete s panel idx =
    s.withDev (cacheWalk (walkLeft s.dev panel idx) panel w.site (some (leafEntry w.ctx w.root w.va n pte)) w.ptrs) := by
  simp only [walkComplete, h, hw]
  split
  · rfl
  · rfl

theorem walkComplete_of_noPage (hw : w.res = some (.absent n)) (hm : (s.dev.core w.site).cmd w.uid = some m)
    (hh : (s.dev.core w.site).halted = false) (hf : m.fail = none) : walkComplete s panel idx =
    s.withDev (xlateHalt (cacheWalk (walkLeft s.dev panel idx) panel w.site none w.ptrs) w.site m (walkHalt m w) (BitVec.ofNat 64 n)) := by
  simp only [walkComplete, h, hw, hm, hh, hf, Option.isSome_none, Bool.or_false, Bool.false_eq_true, if_false]
  rfl

theorem walkComplete_of_bad {w4 : Word} (hw : w.res = some (.bad w4)) (hm : (s.dev.core w.site).cmd w.uid = some m) : walkComplete s panel idx =
    s.withDev (permFail (cacheWalk (walkLeft s.dev panel idx) panel w.site none w.ptrs) w.site m w.va w.access w.gen w4) := by
  simp only [walkComplete, h, hw, hm, walkLeft]

end

end Sys2Proof.Machine

namespace Sys2Proof

open Machine

/-- Settles O40: a copy moves one granule, the last of its unit completing the RETIRE, and a walk ends by its result. -/
theorem remapCopiesAndWalks : Obligations.RemapCopiesAndWalks := by
  refine ⟨?copies, ?ends, ?idle, ?leaf, ?noPage, ?bad, ?reading, ?absent⟩
  case copies =>
    intro s pl pt r a b hr he hlt
    exact congrArg Host.Outcome.next ((remapCopy_of_copying hr he).trans (if_neg (Nat.not_le.mpr hlt)))
  case ends =>
    intro s pl pt r a b hr he hle
    exact congrArg Host.Outcome.next ((remapCopy_of_copying hr he).trans (if_pos hle))
  case idle => exact fun s pl pt h => congrArg Host.Outcome.next (remapCopy_of_none h)
  case leaf => exact fun s pl i w n pte h hw => congrArg Host.Outcome.next (walkComplete_of_leaf h hw)
  case noPage => exact fun s pl i w m n h hw hm hh hf => congrArg Host.Outcome.next (walkComplete_of_noPage h hw hm hh hf)
  case bad => exact fun s pl i w m w4 h hw hm => congrArg Host.Outcome.next (walkComplete_of_bad h hw hm)
  case reading => exact fun s pl i w h hw => congrArg Host.Outcome.next (walkComplete_of_reading h hw)
  case absent => exact fun s pl i h => congrArg Host.Outcome.next (walkComplete_of_absent h)

end Sys2Proof
end

section
/-! Responses of a stack port: what a read response and a write acknowledgement leave, by status and by who asked (R406, R505, R521). -/

namespace Sys2Proof.Machine

variable {s : State} {key sub tag st : Nat} {r : PortReq}

/-- The port's request with a tag is no longer outstanding among its reads. -/
def readEnded (d : Dev) (key sub tag : Nat) : Dev :=
  d.modPort key (fun q => { q with outR := q.outR.filter (fun x => !(x.sub == sub && x.tag == tag)) })

theorem readResponse_of_none (h : (s.dev.port key).outR.find? (fun x => x.sub == sub && x.tag == tag) = none) :
    readResponse s key sub tag st = s := by
  simp only [readResponse, h]

/-- A good status stands where the read brought data, whatever the poison marks say. -/
theorem statusOf_of_data {addr : Nat} (h : r.data ≠ []) : statusOf s key r addr st = st := by
  simp [statusOf, h]

theorem statusOf_of_failed {addr : Nat} (h : 2 ≤ st) : statusOf s key r addr st = st :=
  if_neg fun hc => Nat.not_lt.mpr h hc.1

section
variable (h : (s.dev.port key).outR.find? (fun x => x.sub == sub && x.tag == tag) = some r) (hp : r.part = 0) (ht : r.two = false)
include h hp ht

/-- The response to an unsplit read of one granule: its status is noted and counted, and the read is answered. -/
theorem readResponse_of_single (hs : statusOf s key r r.addr (st % 4) = st % 4) : readResponse s key sub tag st =
    advanceResets (answerRead ((takeStatus s key r.addr (st % 4)).upd (fun d => readEnded d key sub tag)) key r
      (if 2 ≤ st % 4 then [] else r.data)) := by
  have hsib : sibling (s.dev.port key) r = none := if_pos hp
  simp only [readResponse, h, ht, hs, hsib, Bool.false_eq_true, if_false, show ¬ 2 ≤ 0 by decide, or_false]
  rfl

theorem readResponse_of_read (hst : st % 4 < 2) (hd : r.data ≠ []) (hu : r.src ≠ .unit) : readResponse s key sub tag st =
    advanceResets ((noteStatus s key r.addr (st % 4)).upd (fun d =>
      reqDone s.params (readEnded (if st % 4 = 1 then countPort d key r.addr else d) key sub tag) r (some r.data))) := by
  have hc : ∀ d, countStatus s.params d key r.addr (st % 4) = if st % 4 = 1 then countPort d key r.addr else d := fun d => by
    simp only [countStatus, Nat.not_le.mpr hst, if_false]
  rw [readResponse_of_single h hp ht (statusOf_of_data hd), if_neg (Nat.not_le.mpr hst), answerRead, if_neg (by simpa using hu)]
  simp only [takeStatus, hc, List.isEmpty_iff, hd, if_false]
  rfl

theorem readResponse_of_error (hst : 2 ≤ st % 4) (hu : r.src ≠ .unit) : readResponse s key sub tag st =
    advanceResets ((noteStatus s key r.addr (st % 4)).upd (fun d =>
      reqDone s.params (readEnded (countUe s.params d key r.addr) key sub tag) r none)) := by
  have hc : ∀ d, countStatus s.params d key r.addr (st % 4) = countUe s.params d key r.addr := fun d => by
    simp only [countStatus, hst, if_true, (Nat.lt_of_succ_le hst).ne', if_false]
  rw [readResponse_of_single h hp ht (statusOf_of_failed hst), if_pos hst, answerRead, if_neg (by simpa using hu)]
  simp only [takeStatus, hc, List.isEmpty_nil, if_true]
  rfl

theorem readResponse_of_fill {s1 : State} (hst : st % 4 = 0) (hd : r.data ≠ []) (hu : r.src = .unit)
    (hs : s1 = (noteStatus s key r.addr 0).upd (fun d => readEnded d key sub tag)) : readResponse s key sub tag st =
    advanceResets (s1.upd (fun d => d.modPort key (fun q => { q with buf := q.buf ++ [⟨r.addr, stackGran s1 key r.addr⟩] }))) := by
  subst hs
  rw [readResponse_of_single h hp ht (statusOf_of_data hd), hst, if_neg (show ¬ 2 ≤ 0 by decide), answerRead, if_pos (by simp [hu]), unitFill,
    if_pos (by simp [hd])]
  rfl

end

/-! ## STACK_WRITE_ACK -/

/-- The port's request with a tag is no longer outstanding among its writes. -/
def writeEnded (d : Dev) (key sub tag : Nat) : Dev :=
  d.modPort key (fun q => { q with outW := q.outW.filter (fun x => !(x.sub == sub && x.tag == tag)) })

theorem writeAck_of_none (h : (s.dev.port key).outW.find? (fun x => x.sub == sub && x.tag == tag) = none) : writeAck s key sub tag st = s := by
  simp only [writeAck, h]

section
variable (h : (s.dev.port key).outW.find? (fun x => x.sub == sub && x.tag == tag) = some r)
include h

theorem writeAck_of_stored (hst : st ≠ 2) : writeAck s key sub tag st =
    advanceResets (s.withDev (reqDone s.params (writeEnded s.dev key sub tag) r (some []))) := by
  simp only [writeAck, h, hst, if_false, writeEnded]

theorem writeAck_of_failed {s1 : State}
    (hs : s1 = { s with mem := { s.mem with poison := Tbl.set (granKey s key r.addr) () s.mem.poison } }) : writeAck s key sub tag 2 =
    advanceResets (s1.withDev (reqDone s.params (countUe s.params (writeEnded s.dev key sub tag) key r.addr) r none)) := by
  subst hs
  simp only [writeAck, h, if_true, writeEnded]

end

end Sys2Proof.Machine

namespace Sys2Proof

open Machine

/-- Settles O36: a read response by its status and its reader, and a write acknowledgement by its code. -/
theorem stackPortResponses : Obligations.StackPortResponses := by
  refine ⟨?read, ?error, ?fill, ?noRead, ?stored, ?failed, ?noWrite⟩
  case read => exact fun s pl pt sub tag st r h hp ht hst hd hu => congrArg Host.Outcome.next (readResponse_of_read h hp ht hst hd hu)
  case error => exact fun s pl pt sub tag st r h hp ht hst hu => congrArg Host.Outcome.next (readResponse_of_error h hp ht hst hu)
  case fill =>
    exact fun s pl pt sub tag st r s1 h hp ht hst hd hu hs => congrArg Host.Outcome.next (readResponse_of_fill h hp ht hst hd hu hs)
  case noRead => exact fun s pl pt sub tag st h => congrArg Host.Outcome.next (readResponse_of_none h)
  case stored => exact fun s pl pt sub tag st r h hst => congrArg Host.Outcome.next (writeAck_of_stored h hst)
  case failed => exact fun s pl pt sub tag r s1 h hs => congrArg Host.Outcome.next (writeAck_of_failed h hs)
  case noWrite => exact fun s pl pt sub tag st h => congrArg Host.Outcome.next (writeAck_of_none h)

end Sys2Proof
end

section
/-! The accumulate units: an operation on granules that the unit holds, a granule that it lacks, and a granule written back (R407, R409, R412). -/

namespace Sys2Proof.Machine

variable {s : State} {key a : Nat} {as : List Nat} {r : PortReq} {rest : List PortReq}

theorem execAccumulateOp_port {pl pt : Nat} (h : ¬ (pl = 0 ∧ pt = hostUnit)) :
    execAccumulateOp pl pt s = .next (accumulateOp s (portKey pl pt)) :=
  congrArg Host.Outcome.next (if_neg h)

theorem execAccumulateOp_host : execAccumulateOp 0 hostUnit s = .next (hostAccOp s) := congrArg Host.Outcome.next (if_pos ⟨rfl, rfl⟩)

/-- The granules of an operation on one granule. -/
theorem granules_of_single (hr : r.two = false) : (List.range (reqGrans r)).map (fun i => r.addr + 64 * i) = [r.addr] := by
  simp only [reqGrans, hr, Bool.false_eq_true, if_false, List.range_one, List.map_cons, List.map_nil, Nat.mul_zero, Nat.add_zero]

/-! ## ACCUMULATE_OP of a stack port: granules held -/

/-- The state once the first operation has left the unit's queue. -/
def accTaken (s : State) (key : Nat) (rest : List PortReq) : State := s.upd (fun d => d.modPort key (fun q => { q with accq := rest }))

theorem accTaken_buffered {g : BufGran} (rest : List PortReq) (hg : (s.dev.port key).buf.find? (fun x => x.addr == a) = some g) :
    buffered (accTaken s key rest).dev key a = some g.data := by
  simp only [buffered, accTaken, State.upd_dev, Dev.modPort, Dev.setPort_port_self, hg, Option.map_some]

section
variable {old : List Byte} (mask : Nat) (data : List Byte) (h : buffered s.dev key a = some old)
include h

theorem unitOp_accum : unitOp s key .accum a mask data = (s.upd (fun d => bufferPut d key a (accGran old data mask)), old) := by
  simp only [unitOp, h, Option.getD_some]
  rfl

theorem unitOp_zeroRead : unitOp s key .zeroRead a mask data = (s.upd (fun d => bufferPut d key a (zeroGran old mask)), old) := by
  simp only [unitOp, h, Option.getD_some]
  rfl

theorem unitOp_clear : unitOp s key .clear a mask data =
    ({ s with mem := s.mem.clean (granKey s key a) }.upd (fun d => bufferPut d key a (List.replicate 64 0)), old) := by
  simp only [unitOp, h, Option.getD_some]
  rfl

end

theorem accumulateOp_of_empty (h : (s.dev.port key).accq = []) : accumulateOp s key = s := by
  simp only [accumulateOp, h]

section
variable {g : BufGran} (h : (s.dev.port key).accq = r :: rest)
include h

theorem accumulateOp_of_held (hop : r.op = .accum ∨ r.op = .zeroRead ∨ r.op = .clear) (hu : unbuffered (s.dev.port key) r = []) :
    accumulateOp s key = applyOp (accTaken s key rest) key r := by
  rcases hop with hop | hop | hop
  · simp only [accumulateOp, h, hop, hu, accTaken]
  · simp only [accumulateOp, h, hop, hu, accTaken]
  · simp only [accumulateOp, h, hop, hu, accTaken]

/-- An operation on one granule that the unit holds: what the granule was answers the request. -/
theorem accumulateOp_of_single {op : PortOp} {s1 : State} {x : List Byte} (hop : r.op = op) (hk : op = .accum ∨ op = .zeroRead ∨ op = .clear)
    (h2 : r.two = false) (hg : (s.dev.port key).buf.find? (fun x => x.addr == r.addr) = some g)
    (ho : unitOp (accTaken s key rest) key op r.addr (r.mask % 65536) r.data = (s1, x)) : accumulateOp s key =
    advanceResets (s1.upd (fun d => reqDone s.params d r (some (x ++ [])))) := by
  have hany : (s.dev.port key).buf.any (fun x => x.addr == r.addr) = true :=
    List.any_eq_true.mpr ⟨g, List.mem_of_find?_eq_some hg, List.find?_some (p := fun x : BufGran => x.addr == r.addr) hg⟩
  have hu : unbuffered (s.dev.port key) r = [] := by
    rw [unbuffered, granules_of_single h2]
    simp [hany]
  subst hop
  rw [accumulateOp_of_held h hk hu, applyOp]
  simp only [ho, h2, Bool.false_eq_true, if_false]
  rfl

end

/-! ## ACCUMULATE_OP of a stack port: a granule that the unit lacks -/

theorem makeRoom_of_room (hroom : unitHolds (s.dev.port key) < 64) : makeRoom s key r = some s := if_pos hroom

section
variable (h : (s.dev.port key).accq = r :: rest) (hu : unbuffered (s.dev.port key) r = a :: as) (hroom : unitHolds (s.dev.port key) < 64)
include h hu hroom

theorem accumulateOp_of_unread (hop : r.op = .accum ∨ r.op = .zeroRead)
    (hn : ∀ x ∈ (s.dev.port key).outR, x.src = .unit → x.addr ≠ a) : accumulateOp s key =
    (wireRead s key (unitReq .read a 0 [])).getD s := by
  have hany : (s.dev.port key).outR.any (fun x => x.src == .unit && x.addr == a) = false := by
    simpa using hn
  rcases hop with hop | hop
  · simp only [accumulateOp, h, hop, hu, hany, makeRoom_of_room hroom, Bool.false_eq_true, if_false, Option.bind_some]
  · simp only [accumulateOp, h, hop, hu, hany, makeRoom_of_room hroom, Bool.false_eq_true, if_false, Option.bind_some]

theorem accumulateOp_of_cleared (hop : r.op = .clear) : accumulateOp s key = s.upd (fun d => bufferPut d key a (List.replicate 64 0)) := by
  simp only [accumulateOp, h, hop, hu, makeRoom_of_room hroom, Option.map_some, Option.getD_some]

end

/-! ## ACC_WRITEBACK of a stack port (R409, R520) -/

/-- No operation of the unit's queue touches a granule. -/
theorem any_overlaps_eq_false {q : List PortReq} {addr : Nat} (h : ∀ r ∈ q, overlaps r.addr (64 * reqGrans r) addr 64 = false) :
    q.any (fun r => overlaps r.addr (64 * reqGrans r) addr 64) = false := by
  simpa using h

theorem wireWrite_of_tag {t : Nat} (ht : freeTag (s.dev.port key).outW (subOf (served s.params s.dev key r.addr)) = some t) :
    wireWrite s key r = some ((putGran s key r.addr r.data r.mask).upd (fun d => d.modPort key (fun q =>
      { q with outW := q.outW ++ [{ r with data := [], sub := subOf (served s.params s.dev key r.addr), tag := t }] }))) := by
  simp only [wireWrite, ht, Option.map_some]

theorem accWriteback_of_buffered {g : BufGran} {s1 : State} {t : Nat} (hg : (s.dev.port key).buf.find? (fun x => x.addr == gran a) = some g)
    (hq : ∀ r ∈ (s.dev.port key).accq, overlaps r.addr (64 * reqGrans r) g.addr 64 = false)
    (hs : s1 = s.upd (fun d => d.modPort key (fun q => { q with buf := q.buf.filter (fun x => x.addr != g.addr) })))
    (ht : freeTag (s1.dev.port key).outW (subOf (served s.params s1.dev key g.addr)) = some t) : accWriteback s key a =
    (putGran s1 key g.addr g.data fullMask).upd (fun d => d.modPort key (fun q => { q with
      outW := q.outW ++ [{ unitReq .write g.addr fullMask [] with sub := subOf (served s.params s1.dev key g.addr), tag := t }] })) := by
  have hp : s1.params = s.params := by rw [hs, State.upd_params]
  have hb : writeBack s key g = wireWrite s1 key (unitReq .write g.addr fullMask g.data) := by rw [hs, writeBack]
  rw [← hp] at ht ⊢
  simp only [accWriteback, hg, any_overlaps_eq_false hq, Bool.false_eq_true, if_false, hb]
  rw [wireWrite_of_tag (r := unitReq .write g.addr fullMask g.data) ht]
  rfl

/-! ## The host port's unit (R412) -/

theorem not_plain (hop : r.op = .accum ∨ r.op = .zeroRead ∨ r.op = .clear) : (r.op == .read || r.op == .write) = false := by
  rcases hop with hop | hop | hop
  · rw [hop]; rfl
  · rw [hop]; rfl
  · rw [hop]; rfl

section
variable (h : s.dev.host.accq = r :: rest) (hop : r.op = .accum ∨ r.op = .zeroRead ∨ r.op = .clear)
include h hop

theorem hostAccOp_of_held {d1 : Dev} {x : List Byte} (hm : missing s.dev r = []) (h2 : r.two = false)
    (ho : hostOp { s.dev with host := { s.dev.host with accq := rest } } r.op r.func r.addr (r.mask % 65536) r.data = (d1, x)) :
    hostAccOp s = advanceResets (s.withDev (reqDone s.params d1 r (some (x ++ [])))) := by
  simp only [hostAccOp, h, not_plain hop, hm, h2, Bool.false_eq_true, if_false, State.upd_dev, ho]

theorem hostAccOp_of_missing (hm : missing s.dev r = a :: as) (hn : ∀ x ∈ s.dev.host.reqs, x.use = .accRead a → x.abandoned = true)
    (hroom : s.dev.host.accBuf.length < 16) :
    hostAccOp s = s.upd (fun d => d.issueFor r.func r.ctx 4 a [] (List.replicate 64 true) (.accRead a)) := by
  have hany : s.dev.host.reqs.any (fun x => x.use == .accRead a && !x.abandoned) = false := by
    simpa using hn
  have hfull : ¬ hostBufSize ≤ s.dev.host.accBuf.length := Nat.not_le.mpr hroom
  simp only [hostAccOp, h, not_plain hop, hm, hany, hfull, Bool.false_eq_true, if_false]
  split
  · rfl
  · rfl

end

theorem hostAccOp_of_empty (h : s.dev.host.accq = []) : hostAccOp s = s := by
  simp only [hostAccOp, h]

/-- An operation answers the granule as the unit held it. -/
theorem hostOp_answer {d : Dev} (op : PortOp) (f mask : Nat) (data : List Byte) {g : HeldGran} (ha : a % 64 = 0)
    (hg : d.host.accBuf.find? (fun x => x.addr == a) = some g) : (hostOp d op f a mask data).2 = g.data := by
  have hgran : gran a = a := Nat.div_mul_cancel (Nat.dvd_of_mod_eq_zero ha)
  simp only [hostOp, heldGran, hgran, hg, Option.map_some, Option.getD_some]

theorem execAccWriteback_host {g : HeldGran} (hg : s.dev.host.accBuf.find? (fun x => x.addr == gran a) = some g)
    (hq : ∀ r ∈ s.dev.host.accq, overlaps r.addr (64 * reqGrans r) g.addr 64 = false) : execAccWriteback 0 hostUnit a s = .next (wrOwn s g) := by
  simp only [execAccWriteback, and_self, if_true, hg, any_overlaps_eq_false hq, Bool.false_eq_true, if_false]

end Sys2Proof.Machine

namespace Sys2Proof

open Machine

/-- Settles O39: each operation of a unit by what it holds, through the lemmas on `accumulateOp`, `accWriteback` and `hostAccOp`. -/
theorem accumulateUnitOperations : Obligations.AccumulateUnitOperations := by
  refine ⟨?held, ?lacking, ?empty, ?writeback, ?hostHeld, ?hostMissing, ?answer, ?hostEmpty, ?hostWriteback⟩
  case held =>
    intro s pl pt r rest g s0 hport h h2 hg hs
    subst hs
    have hb := accTaken_buffered rest hg
    refine ⟨fun hop => ?_, fun hop => ?_, fun hop => ?_⟩
    · exact (execAccumulateOp_port hport).trans (congrArg Host.Outcome.next
        (accumulateOp_of_single h hop (.inl rfl) h2 hg (unitOp_accum _ _ hb)))
    · exact (execAccumulateOp_port hport).trans (congrArg Host.Outcome.next
        (accumulateOp_of_single h hop (.inr (.inl rfl)) h2 hg (unitOp_zeroRead _ _ hb)))
    · exact (execAccumulateOp_port hport).trans (congrArg Host.Outcome.next
        (accumulateOp_of_single h hop (.inr (.inr rfl)) h2 hg (unitOp_clear _ _ hb)))
  case lacking =>
    intro s pl pt r rest a as hport h hu hroom
    refine ⟨fun hop hn => ?_, fun hop => ?_⟩
    · exact (execAccumulateOp_port hport).trans (congrArg Host.Outcome.next (accumulateOp_of_unread h hu hroom hop hn))
    · exact (execAccumulateOp_port hport).trans (congrArg Host.Outcome.next (accumulateOp_of_cleared h hu hroom hop))
  case empty => exact fun s pl pt hport h => (execAccumulateOp_port hport).trans (congrArg Host.Outcome.next (accumulateOp_of_empty h))
  case writeback =>
    intro s pl pt a g k s1 t hport hk hg hq hs ht
    subst hk
    exact congrArg Host.Outcome.next ((if_neg hport).trans (accWriteback_of_buffered hg hq hs ht))
  case hostHeld =>
    exact fun s r rest d1 x h hop hm h2 ho => execAccumulateOp_host.trans (congrArg Host.Outcome.next (hostAccOp_of_held h hop hm h2 ho))
  case hostMissing =>
    exact fun s r rest a as h hop hm hn hroom => execAccumulateOp_host.trans (congrArg Host.Outcome.next (hostAccOp_of_missing h hop hm hn hroom))
  case answer => exact fun d op f a mask data g ha hg => hostOp_answer op f mask data ha hg
  case hostEmpty => exact fun s h => execAccumulateOp_host.trans (congrArg Host.Outcome.next (hostAccOp_of_empty h))
  case hostWriteback => exact fun s a g hg hq => execAccWriteback_host hg hq

end Sys2Proof
end

section
/-! The aperture and the bridge: what an access that is served, refused or not served leaves (R415, R511), what a response does (R513, R514),
and the events the bridge raises (R437, R516, R517). -/

namespace Sys2Proof.Machine

variable {s : State} {f a n nw tag : Nat} {data : List Byte} {be : List Bool} {ts : List (Target × Nat)} {err : Bool} {r : HostReq}

/-! ## The aperture -/

section
variable (hsh : apShape s.dev f a (8 * (nw + 1)) = true) (ha : a % 8 = 0)
include hsh ha

theorem apertureRead_of_unserved (hs : apServed s.dev f = false) : apertureRead s f a nw =
    s.upd (fun d => { d with host := { d.host with response := some (false, List.replicate (8 * (nw + 1)) 0) } }) := by
  have hal : aligned 8 a = true := beq_iff_eq.mpr ha
  simp only [apertureRead, hsh, hal, hs, Bool.not_true, Bool.not_false, Bool.or_false, Bool.false_eq_true, if_false, if_true]

theorem apertureRead_of_refused (hs : apServed s.dev f = true) (ht : apTargets s f a (8 * (nw + 1)) .read = none) : apertureRead s f a nw =
    s.upd (fun d => { d with host := { d.host with response := some (true, List.replicate (8 * (nw + 1)) 0) } }) := by
  have hal : aligned 8 a = true := beq_iff_eq.mpr ha
  simp only [apertureRead, hsh, hal, hs, ht, Bool.not_true, Bool.or_false, Bool.false_eq_true, if_false]

theorem apertureRead_of_served (hs : apServed s.dev f = true) (ht : apTargets s f a (8 * (nw + 1)) .read = some ts) : apertureRead s f a nw =
    (apTouch s f a (8 * (nw + 1)) .read).upd (fun d => { d with
      host := { d.host with response := some (false, apRead s ts) }, freeCtr := d.freeCtr + 8 * (nw + 1) }) := by
  have hal : aligned 8 a = true := beq_iff_eq.mpr ha
  simp only [apertureRead, hsh, hal, hs, ht, Bool.not_true, Bool.or_false, Bool.false_eq_true, if_false]
  rfl

end

theorem apRead_cons {t : Target} {bs : List Byte} (h : readTarget s t n = some bs) : apRead s ((t, n) :: ts) = bs ++ apRead s ts := by
  simp only [apRead, List.flatMap_cons, h, Option.getD_some]

theorem apertureWrite_of_served (hsh : apShape s.dev f a data.length = true) (hbe : be.length = data.length) (hs : apServed s.dev f = true)
    (ht : apTargets s f a data.length .write = some ts) : apertureWrite s f a data be =
    apWrite f (apCtx s.dev f a data.length) (apTouch s f a data.length .write) data be ts := by
  simp only [apertureWrite, hsh, hbe, hs, ht, bne_self_eq_false, Bool.not_true, Bool.or_self, Bool.false_eq_true, if_false]

theorem apertureWrite_of_refused (ht : apTargets s f a data.length .write = none) : apertureWrite s f a data be = s := by
  simp only [apertureWrite, ht, ite_self]

/-! ## HOST_RESPONSE (R513, R514) -/

theorem hostResponse_of_none (h : s.dev.host.reqs.find? (fun x => x.tag == tag && tag != noTag) = none) : hostResponse s tag err data = s := by
  simp only [hostResponse, h]

section
variable (h : s.dev.host.reqs.find? (fun x => x.tag == tag && tag != noTag) = some r)
include h

theorem hostResponse_of_awaited (hr : r.abandoned = false) : hostResponse s tag err data =
    advanceResets (landLate ((hostAnswer (noteHost s r err) r err data).upd (fun d => pump (d.retireReq tag)))) := by
  simp only [hostResponse, h, hr, Bool.false_eq_true, if_false]

theorem hostResponse_of_abandoned (hr : r.abandoned = true) : hostResponse s tag err data =
    advanceResets (landLate (s.upd (fun d => pump (d.retireReq tag)))) := by
  simp only [hostResponse, h, hr, if_true]

end

/-- The answer to a write of the block's own units: kept for its turn, or dropped with an error. -/
theorem hostAnswer_of_write (hu : r.use = .unitWrite ∨ r.use = .mcWrite ∨ ∃ a, r.use = .accWrite a) :
    hostAnswer s r err data = if err then s else s.upd (fun d => keepLate d r) := by
  rcases hu with hu | hu | ⟨a, hu⟩
  · simp only [hostAnswer, hu]
  · simp only [hostAnswer, hu]
  · simp only [hostAnswer, hu]

theorem hostAnswer_of_accRead (hu : r.use = .accRead a) : hostAnswer s r false data =
    s.upd (fun d => { d with host := { d.host with accBuf := d.host.accBuf ++ [⟨a, lanes r data, false, r.func⟩] } }) := by
  simp only [hostAnswer, hu, Bool.false_eq_true, if_false]

/-! ## HOST_REQUEST_ABANDON (R437) and FLR_REQUEST (R516) -/

theorem hostAbandon_of_none (h : ∀ r ∈ s.dev.host.reqs, r.tag = tag → r.abandoned = true ∨ mayAbandon s.dev r = false) :
    hostAbandon s tag = s := by
  have hn : s.dev.host.reqs.find? (fun r => r.tag == tag && !r.abandoned && mayAbandon s.dev r) = none := by
    refine List.find?_eq_none.mpr fun r hr => ?_
    simp only [Bool.and_eq_true, beq_iff_eq, Bool.not_eq_true', not_and, and_imp, Bool.not_eq_true]
    intro ht ha
    exact (h r hr ht).resolve_left (by simp [ha])
  simp only [hostAbandon, hn]

theorem hostAbandon_of_tagged (ht : tag ≠ noTag)
    (h : s.dev.host.reqs.find? (fun x => x.tag == tag && !x.abandoned && mayAbandon s.dev x) = some r) (hu : ∀ a, r.use ≠ .accRead a) :
    hostAbandon s tag = advanceResets (s.upd (fun d => { d with
      host := { d.host with reqs := d.host.reqs.map (fun x => if x == r then { x with abandoned := true } else x) }
      resets := d.resets.map (fun x => if (resetFns x).contains r.func then { x with abandoned := true } else x) })) := by
  simp only [hostAbandon, h, ht, if_false]

theorem mayAbandon_of_inReset {d : Dev} (hu : ∀ u, r.use ≠ .mcRead u) (hr : (d.fn r.func).inReset = true) : mayAbandon d r = true := by
  unfold mayAbandon
  split
  case h_1 u hm => exact absurd hm (hu u)
  case h_2 => rw [hr, Bool.true_or]

theorem execFlrRequest_of_served (hr : s.dev.boot.inReset = false) (ht : s.dev.boot.targetReady = true) (hf : f < 256) :
    execFlrRequest f s = .next (startReset (s.upd (fun d => { d with host := { d.host with flrAcks := [] } })) f true [f] []) := by
  simp only [execFlrRequest, hr, ht, Nat.not_le.mpr hf, decide_false, Bool.not_true, Bool.or_self, Bool.false_eq_true, if_false]

theorem execFlrRequest_of_unserved (h : s.dev.boot.inReset = true ∨ s.dev.boot.targetReady = false) : execFlrRequest f s = .next s := by
  refine congrArg Host.Outcome.next (if_pos ?_)
  rcases h with h | h
  · simp [h]
  · simp [h]

/-! ## SNOOP_REQUEST (R517) -/

section
variable {g : Nat} (hc : s.params.hostCoupled = true) (hr : s.dev.boot.inReset = false)
include hc hr

theorem snoopRequest_of_unheld (h : ∀ e ∈ s.dev.host.accBuf, e.addr ≠ gran g) :
    snoopRequest s g = s.upd (fun d => { d with host := { d.host with snoop := some (false, []) } }) := by
  have hn : s.dev.host.accBuf.find? (fun x => x.addr == gran g) = none := List.find?_eq_none.mpr fun e he => by simpa using h e he
  simp only [snoopRequest, hc, hr, hn, Bool.not_true, Bool.or_self, Bool.false_eq_true, if_false]

theorem snoopRequest_of_modified {e : HeldGran} (h : s.dev.host.accBuf.find? (fun x => x.addr == gran g) = some e) (hd : e.dirty = true) :
    (snoopRequest s g).mem.host = Memory.write e.addr e.data s.mem.host ∧ (snoopRequest s g).dev.host.snoop = some (true, e.data) ∧
    (snoopRequest s g).dev.host.accBuf = s.dev.host.accBuf.filter (fun x => x.addr != e.addr) := by
  simp only [snoopRequest, hc, hr, h, hd, Bool.not_true, Bool.or_self, Bool.false_eq_true, if_false, if_true, State.upd_mem, State.upd_dev,
    and_self]

end

end Sys2Proof.Machine

namespace Sys2Proof

open Machine

/-- Settles O31: each access of the aperture and each event of the bridge, by its lemma above. -/
theorem apertureAndBridgeEvents : Obligations.ApertureAndBridgeEvents := by
  refine ⟨?read, ?bytes, ?touch, ?refused, ?unserved, ?write, ?refusedWrite, ?response, ?late, ?stray, ?ownWrite, ?ownRead, ?abandon,
    ?keep, ?may, ?flr, ?noFlr, ?clean, ?modified⟩
  case read => exact fun s f a nw ts hsh ha hs ht => congrArg Host.Outcome.next (apertureRead_of_served hsh ha hs ht)
  case bytes => exact fun s t n ts bs h => apRead_cons h
  case touch => exact apTouch_mem
  case refused => exact fun s f a nw hsh ha hs ht => congrArg Host.Outcome.next (apertureRead_of_refused hsh ha hs ht)
  case unserved => exact fun s f a nw hsh ha hs => congrArg Host.Outcome.next (apertureRead_of_unserved hsh ha hs)
  case write => exact fun s f a data be ts hsh hbe hs ht => congrArg Host.Outcome.next (apertureWrite_of_served hsh hbe hs ht)
  case refusedWrite => exact fun s f a data be ht => congrArg Host.Outcome.next (apertureWrite_of_refused ht)
  case response => exact fun s tag err data r h hr => congrArg Host.Outcome.next (hostResponse_of_awaited h hr)
  case late => exact fun s tag err data r h hr => congrArg Host.Outcome.next (hostResponse_of_abandoned h hr)
  case stray => exact fun s tag err data h => congrArg Host.Outcome.next (hostResponse_of_none h)
  case ownWrite => exact fun s r data hu => ⟨hostAnswer_of_write hu, hostAnswer_of_write hu⟩
  case ownRead =>
    intro s r data a bs hu hbs
    subst hbs
    exact hostAnswer_of_accRead hu
  case abandon => exact fun s tag r ht h hu => congrArg Host.Outcome.next (hostAbandon_of_tagged ht h hu)
  case keep => exact fun s tag h => congrArg Host.Outcome.next (hostAbandon_of_none h)
  case may => exact fun d r hu hr => mayAbandon_of_inReset hu hr
  case flr => exact fun s f hr ht hf => execFlrRequest_of_served hr ht hf
  case noFlr => exact fun s f h => execFlrRequest_of_unserved h
  case clean => exact fun s g inv hc hr h => congrArg Host.Outcome.next (snoopRequest_of_unheld hc hr h)
  case modified => exact fun s g inv e hc hr h hd => ⟨_, rfl, snoopRequest_of_modified hc hr h hd⟩

end Sys2Proof
end

section
/-! Writes of the partition table region and the QoS table (R421 to R431, R444), the grants by the state a write finds (R428), and the fence,
the purge and the wipe of a grant (R429). -/

namespace Sys2Proof.Machine

variable {s : State} {d d' : Dev} {p : Params} {f g i o pl : Nat} {v : Word} {x y : Grant}

/-! ## Where the tables lie (R240, R421) -/

theorem areaOf_partTable (h : o < 0x4000) : areaOf (0x4000 + o) = .partTable o := by
  simp only [areaOf, Nat.add_sub_cancel_left]
  rw [if_neg (by omega), if_neg (by omega), if_neg (by omega), if_pos (by omega)]

theorem areaOf_qosTable (h : o < 0x8000) : areaOf (0x8000 + o) = .qosTable o := by
  simp only [areaOf, Nat.add_sub_cancel_left]
  rw [if_neg (by omega), if_neg (by omega), if_neg (by omega), if_neg (by omega), if_pos (by omega)]

/-- A served write at an offset of the partition table region. -/
theorem writeReg_partTable {off : Nat} (hoff : off = 0x4000 + o) (ho : o < 0x4000) (h8 : o % 8 = 0) (hw : writable s.dev f off = true) :
    writeReg s f off v = s.withDev (writePartTable s.params s.dev o v) := by
  subst hoff
  rw [writeReg_of_area hw (by omega) (areaOf_partTable ho)]
  rfl

/-! ## The registers of the region (R421) -/

theorem writePartTable_part (hpl : pl < 4) (hi : i < 16) : writePartTable p d (8 * (16 * pl + i)) v = writePart p d pl i v := by
  have hpanel : 8 * (16 * pl + i) / 128 = pl := by omega
  have hentry : 8 * (16 * pl + i) / 8 % 16 = i := by omega
  rw [writePartTable, if_pos (by omega), hpanel, hentry]

theorem writePartTable_funcEntry (hf : f < 256) : writePartTable p d (0x800 + 8 * f) v = writeFuncEntry d f v := by
  have hentry : (0x800 + 8 * f - 0x800) / 8 = f := by omega
  rw [writePartTable, if_neg (by omega), if_neg (by omega), if_pos (by omega), hentry]

theorem writePartTable_grantW0 (hg : g < 512) : writePartTable p d (0x1000 + 16 * g) v = writeGrantW0 p d g v := by
  have hentry : (0x1000 + 16 * g - 0x1000) / 16 = g := by omega
  rw [writePartTable, if_neg (by omega), if_neg (by omega), if_neg (by omega), if_pos (by omega), if_pos (by omega), hentry]

theorem writePartTable_grantW1 (hg : g < 512) : writePartTable p d (0x1008 + 16 * g) v = writeGrantW1 d g v := by
  have hentry : (0x1008 + 16 * g - 0x1000) / 16 = g := by omega
  rw [writePartTable, if_neg (by omega), if_neg (by omega), if_neg (by omega), if_pos (by omega), if_neg (by omega), hentry]

/-! ## Partition, function and QoS entries (R424, R431, R444) -/

theorem exec_partitionEntryWrite (hpl : pl < 4) (hi : i < 16) (hw : writable s.dev 0 (0x4000 + 8 * (16 * pl + i)) = true) :
    exec (.partitionEntryWrite pl i v) s = .next (s.withDev (writePart s.params s.dev pl i v)) := by
  have hrow : exec (.partitionEntryWrite pl i v) s = .next (writeReg s 0 (0x4000 + 8 * (16 * pl + i)) v) :=
    congrArg Host.Outcome.next (if_pos ⟨hpl, hi⟩)
  rw [hrow, writeReg_partTable rfl (by omega) (by omega) hw, writePartTable_part hpl hi]

theorem writePart_of_accepted (hpl : pl < p.panels) (h : partRefused p d pl i v = false) :
    writePart p d pl i v = { d with parts := Tbl.set (16 * pl + i) (v &&& 0x80FF0000000000FF#64) d.parts } := by
  rw [writePart, if_neg (Nat.not_le.mpr hpl), h, if_neg Bool.false_ne_true, partFields]

theorem writePart_of_refused (hpl : pl < p.panels) (h : partRefused p d pl i v = true) : writePart p d pl i v = refuseBit d 0 := by
  rw [writePart, if_neg (Nat.not_le.mpr hpl), if_pos h]

theorem exec_functionEntryWrite (hf : f < 256) (hw : writable s.dev 0 (0x4800 + 8 * f) = true) :
    exec (.functionEntryWrite f v) s = .next (s.withDev (writeFuncEntry s.dev f v)) := by
  have hrow : exec (.functionEntryWrite f v) s = .next (writeReg s 0 (0x4800 + 8 * f) v) := congrArg Host.Outcome.next (if_pos hf)
  rw [hrow, writeReg_partTable (o := 0x800 + 8 * f) (by omega) (by omega) (by omega) hw, writePartTable_funcEntry hf]

theorem exec_qosEntryWrite (hf : f < 256) (hw : writable s.dev 0 (0x8000 + 16 * f) = true) :
    exec (.qosEntryWrite f v) s = .next (s.withDev (writeQos s.dev f v)) := by
  have hrow : exec (.qosEntryWrite f v) s = .next (writeReg s 0 (0x8000 + 16 * f) v) := congrArg Host.Outcome.next (if_pos hf)
  have hentry : 16 * f / 16 = f := by omega
  rw [hrow, writeReg_of_area hw (by omega) (areaOf_qosTable (by omega)), writeArea, if_pos (by omega), hentry]
  rfl

theorem exec_qosWindowStart (h : s.dev.boot.inReset = false) : exec .qosWindowStart s = .next (s.upd (fun d => { d with
    funcs := Tbl.mapv (fun x => { x with qosNow := x.qos }) d.funcs, ports := Tbl.mapv (fun q => { q with capCount := [] }) d.ports })) := by
  have hnext : qosWindow s.dev = { s.dev with
      funcs := Tbl.mapv (fun x => { x with qosNow := x.qos }) s.dev.funcs
      ports := Tbl.mapv (fun q => { q with capCount := [] }) s.dev.ports } := by rw [qosWindow, h, if_neg Bool.false_ne_true]
  exact congrArg (fun d => Host.Outcome.next (s.withDev d)) hnext

/-! ## Grant writes (R428) -/

theorem exec_grantW1Write (hg : g < 512) (hw : writable s.dev 0 (0x5008 + 16 * g) = true) :
    exec (.grantW1Write g v) s = .next (s.withDev (writeGrantW1 s.dev g v)) := by
  have hrow : exec (.grantW1Write g v) s = .next (writeReg s 0 (0x5008 + 16 * g) v) := congrArg Host.Outcome.next (if_pos hg)
  rw [hrow, writeReg_partTable (o := 0x1008 + 16 * g) (by omega) (by omega) (by omega) hw, writePartTable_grantW1 hg]

theorem writeGrantW1_of_free (h : (d.grant g).state = 0) : writeGrantW1 d g v = d.setGrant g { d.grant g with w1 := v &&& 0x1FFFFFF#64 } :=
  if_pos h

theorem writeGrantW1_of_held (h : (d.grant g).state ≠ 0) : writeGrantW1 d g v = refuseBit d 1 := if_neg h

/-- The five commands that write W0 are one write, carried out by `writeGrantW0`. -/
theorem grantWrite_of_served (hg : g < 512) (hw : writable s.dev 0 (0x5000 + 16 * g) = true) (h : writeGrantW0 s.params s.dev g v = d') :
    (.next (grantWrite s g v) : Out) = .next (s.withDev d') := by
  rw [grantWrite, if_pos hg, writeReg_partTable (o := 0x1000 + 16 * g) (by omega) (by omega) (by omega) hw, writePartTable_grantW0 hg, h]

/-- FREE written with 0. -/
theorem writeGrantW0_store (hx : (d.grant g).state = 0) (hv : fld v 63 62 = 0) :
    writeGrantW0 p d g v = d.setGrant g { d.grant g with w0 := grantW0Fields v, wipe := false, purged := false } := by
  simp only [writeGrantW0, hx, hv]

/-- FREE written with 1. -/
theorem writeGrantW0_issue (hx : (d.grant g).state = 0) (hv : fld v 63 62 = 1)
    (hy : y = { d.grant g with w0 := grantW0Fields v, wipe := false, purged := false }) :
    writeGrantW0 p d g v = if mayGrant p d g y then d.setGrant g y else refuseBit d 1 := by
  simp only [writeGrantW0, hx, hv, hy]

/-- GRANTED written with 1. -/
theorem writeGrantW0_keep (hx : (d.grant g).state = 1) (hv : fld v 63 62 = 1) :
    writeGrantW0 p d g v = d.setGrant g { d.grant g with w0 := setFld (d.grant g).w0 61 61 (fld v 61 61) } := by
  simp only [writeGrantW0, hx, hv]

/-- GRANTED written with 0. -/
theorem writeGrantW0_revoke (hx : (d.grant g).state = 1) (hv : fld v 63 62 = 0) : writeGrantW0 p d g v = fenceGrant d g false := by
  simp only [writeGrantW0, hx, hv]

/-- GRANTED written with 2. -/
theorem writeGrantW0_wipe (hx : (d.grant g).state = 1) (hv : fld v 63 62 = 2) : writeGrantW0 p d g v = fenceGrant d g true := by
  simp only [writeGrantW0, hx, hv]

/-- What the table of R428 does not list. -/
theorem writeGrantW0_refused (h : 2 ≤ (d.grant g).state ∨ ((d.grant g).state = 0 ∧ 2 ≤ fld v 63 62) ∨
    ((d.grant g).state = 1 ∧ fld v 63 62 = 3)) : writeGrantW0 p d g v = refuseBit d 1 := by
  rcases h with hx | ⟨hx, hv⟩ | ⟨hx, hv⟩
  · obtain ⟨n, hn⟩ := Nat.exists_eq_add_of_le' hx
    simp only [writeGrantW0, hn]
  · obtain ⟨n, hn⟩ := Nat.exists_eq_add_of_le' hv
    simp only [writeGrantW0, hx, hn]
  · simp only [writeGrantW0, hx, hv]

/-! ## Purge and wipe (R429) -/

section
variable (hx : x = s.dev.grant g)
include hx

theorem purgeDone_of_requests (hr : requestsIn s.params s.dev x.owner x.base x.bytes = true) : purgeDone s g = s := by
  subst hx
  exact if_pos (by rw [hr, Bool.or_true])

variable (hst : x.state = 2)
include hst

theorem purgeDone_of_clear (hp : x.purged = false) (hr : requestsIn s.params s.dev x.owner x.base x.bytes = false) :
    purgeDone s g = s.upd (fun d => d.setGrant g
      (if x.wipe then { x with purged := true } else { x with w0 := setFld x.w0 63 62 0, purged := false })) := by
  subst hx
  exact if_neg (by simp [hst, hp, hr])

theorem wipeDone_of_purged (hwipe : x.wipe = true) (hp : x.purged = true) :
    wipeDone s g = (zeroRange s x.base x.bytes).upd (fun d =>
      d.setGrant g { x with w0 := setFld x.w0 63 62 (if x.keep then 1 else 0), wipe := false, purged := false }) := by
  subst hx
  exact if_neg (by simp [hst, hwipe, hp])

end

section
variable {base n : Nat} (hb : hostBacked s.params = true)
include hb

theorem zeroRange_stack : (zeroRange s base n).mem.stack = s.mem.stack := by rw [zeroRange, if_pos hb]

/-- A byte of host memory after a wipe: filtered out in the range, kept outside. -/
theorem get_zeroRange_host (a : Nat) (hwf : Memory.wf s.mem.host = true) : Memory.get a (zeroRange s base n).mem.host =
    if base ≤ a ∧ a < base + n then 0 else Memory.get a s.mem.host := by
  have hfilter := Memory.get_filter_from (fun b => !(decide (base ≤ b) && decide (b < base + n))) (a := a) hwf
  rw [zeroRange, if_pos hb]
  refine hfilter.trans ?_
  by_cases ha : base ≤ a ∧ a < base + n
  · simp [ha, Memory.unlisted]
  · rw [if_neg ha, if_pos (by simpa using not_and_or.mp ha)]

end

end Sys2Proof.Machine

namespace Sys2Proof

open Machine

/-- Settles O30, by `get_zeroRange_host`. -/
theorem wipeZeroesExactlyTheRange : Obligations.WipeZeroesExactlyTheRange := by
  intro s base n a hb hwf
  have hget := get_zeroRange_host (base := base) (n := n) hb a hwf
  refine ⟨fun h1 h2 => ?inside, fun h => ?outside, zeroRange_stack hb⟩
  case inside => rw [hget, if_pos ⟨h1, h2⟩]
  case outside => rw [hget, if_neg h]

/-- Settles O27: each write reaches its table, which stores the entry or refuses it. -/
theorem tableEntryWrites : Obligations.TableEntryWrites := by
  refine ⟨?part, ?partRefused, ?func, ?funcRefused, ?qos, fun s => exec_qosWindowStart⟩
  case part =>
    intro s pl i v hpl h4 hi hw h
    rw [exec_partitionEntryWrite (by omega) hi hw, writePart_of_accepted hpl h]
    rfl
  case partRefused =>
    intro s pl i v hpl h4 hi hw h
    rw [exec_partitionEntryWrite (by omega) hi hw, writePart_of_refused hpl h]
    rfl
  case func =>
    intro s f v hf hw h
    rw [exec_functionEntryWrite hf hw, writeFuncEntry, h, if_neg Bool.false_ne_true]
    rfl
  case funcRefused =>
    intro s f v hf hw h
    rw [exec_functionEntryWrite hf hw, writeFuncEntry, if_pos h]
    rfl
  case qos => exact fun s f v hf hw => exec_qosEntryWrite hf hw

/-- Settles O28: a served write of W1 or of W0 is what the lemma above on the state that it finds says. -/
theorem grantWrites : Obligations.GrantWrites := by
  refine ⟨?w1, ?w1Refused, ?store, ?issue, ?issueRefused, ?keep, ?refused, fun s g v => ⟨rfl, rfl, rfl, rfl⟩⟩
  case w1 =>
    intro s g v hg hw h
    rw [exec_grantW1Write hg hw, writeGrantW1_of_free h]
    rfl
  case w1Refused =>
    intro s g v hg hw h
    rw [exec_grantW1Write hg hw, writeGrantW1_of_held h]
    rfl
  case store => exact fun s g v hg hw hx hv => grantWrite_of_served hg hw (writeGrantW0_store hx hv)
  case issue =>
    intro s g v y hg hw hx hv hy hm
    exact grantWrite_of_served hg hw ((writeGrantW0_issue hx hv hy).trans (if_pos hm))
  case issueRefused =>
    intro s g v y hg hw hx hv hy hm
    exact grantWrite_of_served hg hw ((writeGrantW0_issue hx hv hy).trans (if_neg (by simp [hm])))
  case keep => exact fun s g v hg hw hx hv => grantWrite_of_served hg hw (writeGrantW0_keep hx hv)
  case refused =>
    intro s g v x hg hw hx h
    subst hx
    exact grantWrite_of_served hg hw (writeGrantW0_refused h)

/-- Settles O29: a revoke and a wipe fence the grant, and the lemmas on `purgeDone` and `wipeDone` say what follows. -/
theorem grantFencePurgeWipe : Obligations.GrantFencePurgeWipe := by
  refine ⟨?revoke, ?wipe, ?free, ?waits, ?requests, ?zeroed⟩
  case revoke =>
    intro s g v x hg hw hx hst hv
    subst hx
    exact grantWrite_of_served hg hw (writeGrantW0_revoke hst hv)
  case wipe =>
    intro s g v x hg hw hx hst hv
    subst hx
    exact grantWrite_of_served hg hw (writeGrantW0_wipe hst hv)
  case free =>
    intro s g x hx hst hp hr hwipe
    exact congrArg Host.Outcome.next ((purgeDone_of_clear hx hst hp hr).trans (by rw [if_neg (by simp [hwipe])]))
  case waits =>
    intro s g x hx hst hp hr hwipe
    exact congrArg Host.Outcome.next ((purgeDone_of_clear hx hst hp hr).trans (by rw [if_pos hwipe]))
  case requests => exact fun s g x hx _ _ hr => congrArg Host.Outcome.next (purgeDone_of_requests hx hr)
  case zeroed => exact fun s g x hx hst hwipe hp => congrArg Host.Outcome.next (wipeDone_of_purged hx hst hwipe hp)

end Sys2Proof
end

section
/-! The stack-port arbiter, and a controller that comes up or leaves (R29, R445, R447, R523, R524). -/

namespace Sys2Proof.Machine

variable {s : State} {d : Dev} {p : Params} {key panel port cap f : Nat} {ret : Bool} {q q1 : StackPort} {req : Nat → Bool} {n : Nat → Nat}
  {r : PortReq}

/-! ## The function chosen (R29, R445) -/

theorem rotate_some {last m : Nat} (hm : 0 < m) (h : rotate req last m = some f) : req f = true ∧ f < m := by
  refine ⟨List.find?_some h, ?_⟩
  obtain ⟨i, -, rfl⟩ := List.mem_map.mp (List.mem_of_find?_eq_some h)
  exact Nat.mod_lt _ hm

/-- The function granted requests, has state of its own, and is a weighted one where a weighted one requests; the pointer moves to it. -/
theorem pickFn_some (h : pickFn d q req n = some (f, q1)) :
    req f = true ∧ f < 256 ∧ q1.last = f ∧ ((∃ g, g < 256 ∧ req g = true ∧ 0 < portWeight d g) → 0 < portWeight d f) := by
  unfold pickFn at h
  extract_lets w anyW q2 elig at h
  obtain ⟨f', hrot, hf⟩ := Option.map_eq_some_iff.mp h
  obtain ⟨rfl, rfl⟩ := Prod.mk.inj hf
  obtain ⟨helig, hlt⟩ := rotate_some (by decide) hrot
  cases hany : anyW with
  | true =>
    obtain ⟨hreq, hw⟩ : req f' = true ∧ 0 < portWeight d f' := by
      have hw : w f' = true := by simp only [elig, hany, if_true, Bool.and_eq_true] at helig; exact helig.1
      simpa [w] using hw
    exact ⟨hreq, hlt, rfl, fun _ => hw⟩
  | false =>
    refine ⟨by simpa only [elig, hany, Bool.false_eq_true, if_false] using helig, hlt, rfl, ?_⟩
    rintro ⟨g, hg, hreq, hw⟩
    have hnone : ∀ g < 256, w g = false := by simpa [anyW] using hany
    exact absurd (hnone g hg) (by simp [w, hreq, hw])

/-- With no function requesting there is no grant. -/
theorem pickFn_none (h : ∀ f, f < 256 → req f = false) : pickFn d q req n = none := by
  cases hp : pickFn d q req n with
  | none => rfl
  | some e =>
    obtain ⟨hreq, hlt, -⟩ := pickFn_some (f := e.1) (q1 := e.2) hp
    rw [h _ hlt] at hreq
    cases hreq

/-! ## STACK_PORT_GRANT -/

/-- A function requests at a port: it is not at its cap, not in reset, and a request of it waits (R445 to R447). -/
def asksPort (d : Dev) (q : StackPort) (f : Nat) : Bool := !capped d q f && !(d.fn f).inReset && q.waiting.any (fun r => r.func == f)

/-- A port once a request of function `f` has left its waiting list, in the state that the choice of `f` left it. -/
def tookReq (q1 : StackPort) (f : Nat) (r : PortReq) : StackPort :=
  { q1 with waiting := q1.waiting.filter (fun x => x.id != r.id), lastCore := Tbl.set f r.core q1.lastCore }

theorem portGrant_of_absent (hr : (s.dev.port key).ready = false) (hl : (s.dev.port key).lost = false) : portGrant s key = s :=
  if_pos (by rw [hr, hl]; rfl)

/-- No request waits that a function out of reset made. -/
theorem portGrant_of_idle (h : ∀ r ∈ (s.dev.port key).waiting, (s.dev.fn r.func).inReset = true ∨ 256 ≤ r.func) : portGrant s key = s := by
  have hnone : ∀ f, f < 256 → asksPort s.dev (s.dev.port key) f = false := by
    intro f hf
    refine Bool.eq_false_iff.mpr fun hreq => ?_
    simp only [asksPort, Bool.and_eq_true, Bool.not_eq_true', List.any_eq_true, beq_iff_eq] at hreq
    obtain ⟨⟨-, hout⟩, r, hr, rfl⟩ := hreq
    rcases h r hr with hin | hbig
    · rw [hout] at hin; cases hin
    · omega
  unfold portGrant
  extract_lets q req
  have hp : pickFn s.dev q req (grantSize q) = none := pickFn_none hnone
  rw [hp]
  exact ite_self _

section
variable (hq : q = s.dev.port key) (hpick : pickFn s.dev q (asksPort s.dev q) (grantSize q) = some (f, q1)) (hreq : pickReq q f = some r)
include hq hpick hreq

/-- A port that is in service or was: the request chosen is answered as uncorrectable where the controller left, else accepted. -/
theorem portGrant_of_picked (hup : (q.ready || q.lost) = true) : portGrant s key =
    if q.lost then advanceResets (s.withDev (reqDone s.params (countUe s.params (s.dev.setPort key (tookReq q1 f r)) key r.addr) r none))
    else (acceptReq (s.upd (fun d => d.setPort key (tookReq q1 f r))) key r).getD s := by
  subst hq
  unfold portGrant
  extract_lets q req
  have hp : pickFn s.dev q req (grantSize q) = some (f, q1) := hpick
  rw [if_neg (by simp [q, hup]), hp]
  dsimp only
  rw [hreq]
  rfl

end

/-! ## STACK_READY_RISE and STACK_READY_FALL (R523, R524) -/

theorem stackReady_of_otherPhase (h : inPhase d 3 = false) : stackReady p d panel port cap ret = d := if_pos (by rw [h]; rfl)

theorem phase_of_inPhase {m : Nat} (h : inPhase d m = true) : d.boot.phase = m := by
  simp only [inPhase, Bool.and_eq_true, beq_iff_eq] at h
  exact h.1.1.2

/-- The port samples what its controller drives; phase 3 goes on, or ends with the last port. -/
theorem stackReady_of_rise (h : inPhase d 3 = true) (hpl : panel < livePanels p d) (hpt : port < p.stackPorts)
    (hr : (d.port (portKey panel port)).ready = false) :
    (stackReady p d panel port cap ret).port (portKey panel port) = { d.port (portKey panel port) with
      ready := true, trained := true, fullLast := !ret, retained := ret, cap := 64 * (cap % 2 ^ 34) } ∧
    ((stackReady p d panel port cap ret).boot.phase = 3 ∨ (stackReady p d panel port cap ret).boot.phase = 4) := by
  unfold stackReady
  rw [if_neg (by simp [h, hr, hpl, hpt])]
  extract_lets d1
  have hport : d1.port (portKey panel port) = { d.port (portKey panel port) with
      ready := true, trained := true, fullLast := !ret, retained := ret, cap := 64 * (cap % 2 ^ 34) } := Dev.setPort_port_self _ _ _
  split
  · exact ⟨hport, .inr rfl⟩
  · exact ⟨hport, .inl (phase_of_inPhase h)⟩

theorem readyFall_of_absent (h : (s.dev.port key).ready = false ∨ s.dev.inService = false) : readyFall s key = s :=
  if_pos (by rcases h with h | h <;> rw [h] <;> simp)

/-- With nothing outstanding or queued, the fall drops the buffer alone. -/
theorem readyFall_of_quiet (hq : q = s.dev.port key) (hr : q.ready = true) (hs : s.dev.inService = true) (hR : q.outR = []) (hW : q.outW = [])
    (hacc : q.accq = []) : readyFall s key = advanceResets (s.upd (fun d => d.setPort key
      { q with ready := false, lost := true, outR := [], outW := [], accq := [], buf := [] })) := by
  subst hq
  unfold readyFall
  rw [if_neg (by simp [hr, hs])]
  simp only [hR, hW, hacc, List.append_nil, List.foldl_nil]
  rfl

end Sys2Proof.Machine

namespace Sys2Proof

open Machine

/-- Settles O37: `pickFn_some` says which function a grant goes to, the lemmas on `portGrant` what becomes of its request. -/
theorem stackPortGrantsAndReadyChanges : Obligations.StackPortGrantsAndReadyChanges := by
  refine ⟨?absent, ?granted, ?lost, ?idle, ?chosen, ?rise, ?noRise, ?noFall, ?fall⟩
  case absent => exact fun s pl pt hr hl => congrArg Host.Outcome.next (portGrant_of_absent hr hl)
  case granted =>
    intro s pl pt q f q1 r hq hr hl hpick hreq
    exact congrArg Host.Outcome.next ((portGrant_of_picked hq hpick hreq (by simp [hr])).trans (if_neg (by simp [hl])))
  case lost =>
    intro s pl pt q f q1 r hq hl hpick hreq
    exact congrArg Host.Outcome.next ((portGrant_of_picked hq hpick hreq (by simp [hl])).trans (if_pos hl))
  case idle => exact fun s pl pt h => congrArg Host.Outcome.next (portGrant_of_idle h)
  case chosen => exact fun d q req n f q1 h => pickFn_some h
  case rise =>
    intro s pl pt cap ret h hpl hpt hr
    obtain ⟨hport, hphase⟩ := stackReady_of_rise h hpl hpt hr
    exact ⟨_, rfl, hport, hphase, rfl⟩
  case noRise =>
    intro s pl pt cap ret h
    exact congrArg (fun d => Host.Outcome.next (s.withDev d)) (stackReady_of_otherPhase h)
  case noFall => exact fun s pl pt h => congrArg Host.Outcome.next (readyFall_of_absent h)
  case fall =>
    intro s pl pt q hq hr hs hR hW hacc
    exact congrArg Host.Outcome.next (readyFall_of_quiet hq hr hs hR hW hacc)

end Sys2Proof
end

section
/-! A partition clear that ends (R440), and the fitting of a core at its edge (R553, R557). -/

namespace Sys2Proof.Machine

variable {s s1 : State} {k panel part site : Nat} {c : Nat × Nat} {f : Fitting}

/-! ## PARTITION_CLEAR_DONE (R440) -/

/-- The cores of a panel that are being cleared. -/
def clearingSites (s : State) (panel : Nat) : List Nat := ((List.range s.params.sites).map (siteKey panel)).filter (fun k => (s.dev.core k).clearing)

theorem mem_clearingSites (hst : site < s.params.sites) (hc : (s.dev.core (siteKey panel site)).clearing = true) :
    siteKey panel site ∈ clearingSites s panel :=
  List.mem_filter.mpr ⟨List.mem_map.mpr ⟨site, List.mem_range.mpr hst, rfl⟩, hc⟩

theorem clearDone_of_none (h : ∀ c ∈ s.dev.mc.clears, c.1 ≠ 16 * panel + part) : clearDone s panel part = s := by
  have hfind : s.dev.mc.clears.find? (fun c => c.1 == 16 * panel + part) = none := List.find?_eq_none.mpr fun c hc => by simpa using h c hc
  rw [clearDone, hfind]

/-- With one clear under way, its cores are all the cores being cleared of its panel: it waits for their requests, then ends. -/
theorem clearDone_of_only (honly : s.dev.mc.clears = [c]) (hc : c.1 = 16 * panel + part) :
    clearDone s panel part = if (clearingSites s panel).any (siteRequests s.dev) then s else
      completePkt (((clearingSites s panel).foldl endClear s).upd (fun d =>
        { d with mc := { d.mc with clears := d.mc.clears.filter (fun x => x != c) } })) (.ctl 0) c.2 := by
  have hfind : s.dev.mc.clears.find? (fun c => c.1 == 16 * panel + part) = some c := by rw [honly]; exact List.find?_cons_of_pos (by simpa using hc)
  have hothers : s.dev.mc.clears.filter (fun x => x != c && x.1 / 16 == panel) = [] := by rw [honly]; simp
  simp only [clearDone, hfind, hothers, List.flatMap_nil, List.contains_nil, Bool.not_false, Bool.and_true]
  rfl

/-- A cleared core is at its state after reset, but for the number of its next request. -/
theorem endClear_core : (endClear s k).dev.core k = { Core.zero with nextReq := (s.dev.core k).nextReq } := by
  unfold endClear
  extract_lets c own s1 s2
  exact Dev.setCore_core_self _ _ _

/-! ## FITTING_EDGE (R553, R557) -/

theorem exec_fittingEdge {i : Nat} : exec (.fittingEdge i) s = onCore s i (fittingEdge s) := rfl

theorem fittingEdge_of_none (h : (s.dev.core k).fitting = none) : fittingEdge s k = s := by rw [fittingEdge, h]

/-- The state in which the record of an armed fitting is written: it is armed no longer, and the free values of the record are drawn. -/
def disarmed (s : State) (k : Nat) : State :=
  s.upd (fun d => { d.modCore k (fun c => { c with fitting := none }) with freeCtr := d.freeCtr + 632 })

section
variable {bs : List Byte} (hf : (s.dev.core k).fitting = some f) (hbs : bs = fitRecord s k f)
include hf hbs

theorem fittingEdge_of_written (h : fitWrite k f (disarmed s k) bs (pieces f.va bs.length (bs.length / 64 + 2)) = (s1, none)) :
    fittingEdge s k = reportCore s1 f.q f.uid ((siteIndex s.dev k).getD 0) .done 0 := by
  subst hbs
  rw [disarmed] at h
  rw [fittingEdge, hf]
  dsimp only
  rw [h]

theorem fittingEdge_of_fault {x : XFault} (h : fitWrite k f (disarmed s k) bs (pieces f.va bs.length (bs.length / 64 + 2)) = (s1, some x)) :
    fittingEdge s k = reportCore (s1.upd (fun d => d.fault f.func { x.info with
      ctx := f.ctx, queue := qnum f.q, core := (siteIndex s.dev k).getD 0, seq := f.seq.toNat, subidx := f.subidx, tag := f.tag, access := 2 }))
      f.q f.uid ((siteIndex s.dev k).getD 0) .permFault 0 := by
  subst hbs
  rw [disarmed] at h
  rw [fittingEdge, hf]
  dsimp only
  rw [h]

end

end Sys2Proof.Machine

namespace Sys2Proof

open Machine

/-- Settles O49: one clear under way is `clearDone_of_only`, and the write of the record decides how a fitting ends. -/
theorem clearsAndFittings : Obligations.ClearsAndFittings := by
  refine ⟨?ends, ?noClear, fun s k => endClear_core, ?waits, ?unarmed, ?written, ?fault⟩
  case ends =>
    intro s pl pt c hfind honly hidle
    have hc : c.1 = 16 * pl + pt := by simpa using List.find?_some hfind
    have hquiet : ¬ (clearingSites s pl).any (siteRequests s.dev) = true := by
      intro hany
      obtain ⟨k, hk, hreq⟩ := List.any_eq_true.mp hany
      obtain ⟨hsite, hcl⟩ := List.mem_filter.mp hk
      obtain ⟨st, hst, rfl⟩ := List.mem_map.mp hsite
      rw [hidle st (List.mem_range.mp hst) hcl] at hreq
      cases hreq
    exact congrArg Host.Outcome.next ((clearDone_of_only honly hc).trans (if_neg hquiet))
  case noClear => exact fun s pl pt h => congrArg Host.Outcome.next (clearDone_of_none h)
  case waits =>
    intro s pl pt c st honly hc hst hcl hreq
    have hany : (clearingSites s pl).any (siteRequests s.dev) = true := List.any_eq_true.mpr ⟨_, mem_clearingSites hst hcl, hreq⟩
    exact congrArg Host.Outcome.next ((clearDone_of_only honly hc).trans (if_pos hany))
  case unarmed => exact fun s i k hk h => onCore_of_unchanged hk (fittingEdge_of_none h)
  case written =>
    intro s i k f bs s1 hk hs hf hbs h
    rw [exec_fittingEdge, onCore_of_inService hk hs, fittingEdge_of_written hf hbs h]
  case fault =>
    intro s i k f bs s1 x hk hs hf hbs h
    rw [exec_fittingEdge, onCore_of_inService hk hs, fittingEdge_of_fault hf hbs h]

end Sys2Proof
end

section
/-! The state after reset (R422, R449, R451, R452). -/

namespace Sys2Proof.Machine

/-- Partition 0 of each panel is enabled over all twelve rows for function 0 (R422). -/
theorem reset_part : ∀ pl < 2, State.reset.dev.part pl 0 = 0x800000000000000C#64 := by decide

end Sys2Proof.Machine

namespace Sys2Proof

open Machine

/-- Settles O59: every table of the state after reset but the partition table is empty, and an empty table reads as its default. -/
theorem resetState : Obligations.ResetState :=
  ⟨⟨rfl, rfl⟩, rfl, rfl, rfl, rfl, rfl, rfl, rfl, reset_part, fun _ => rfl, fun _ => rfl, fun _ => rfl⟩

end Sys2Proof
end

section
/-! The device's reset: the reset event, its sources, the release, the root-clock monitor, and the cycle that runs when no command waits. -/

namespace Sys2Proof.Machine

variable {s : State} {d : Dev} {p : Params} {c h n pl : Nat} {v : Word}

/-- A fold whose acts leave a part of the state alone leaves it alone. -/
theorem foldl_keeps {σ α β : Type} (part : σ → β) {f : σ → α → σ} (hf : ∀ x a, part (f x a) = part x) (l : List α) (x : σ) :
    part (l.foldl f x) = part x :=
  List.foldlRecOn (motive := fun y => part y = part x) l f rfl (fun y hy a _ => (hf y a).trans hy)

/-! ## The reset event (R449 to R451) -/

/-- What lands at a reset is bytes of host memory alone (R450). -/
theorem landWrites_keeps {β : Type} (part : State → β) (hpart : ∀ (s : State) m, part { s with mem := { s.mem with host := m } } = part s) :
    part (landWrites s) = part s := by
  refine foldl_keeps part (fun t r => ?_) _ s
  split
  · exact hpart t _
  · rfl

@[simp] theorem landWrites_dev (s : State) : (landWrites s).dev = s.dev := landWrites_keeps (·.dev) (fun _ _ => rfl)
@[simp] theorem landWrites_params (s : State) : (landWrites s).params = s.params := landWrites_keeps (·.params) (fun _ _ => rfl)
@[simp] theorem landWrites_stack (s : State) : (landWrites s).mem.stack = s.mem.stack := landWrites_keeps (·.mem.stack) (fun _ _ => rfl)

theorem deviceReset_of_inReset (hr : s.dev.boot.inReset = true) (hc : s.dev.aon.fresh = false ∨ s.dev.aon.cause ≤ c) : deviceReset s c h = s := by
  rw [deviceReset, if_pos hr, if_neg]
  rcases hc with hf | hc
  · simp [hf]
  · simp [Nat.not_lt.mpr hc]

/-- A source of a lower code takes the cause over while the period of the event lasts. -/
theorem deviceReset_of_lowerCause (hr : s.dev.boot.inReset = true) (hf : s.dev.aon.fresh = true) (hc : c < s.dev.aon.cause) :
    deviceReset s c h = s.upd (fun d => { d with aon := { d.aon with cause := c } }) := by
  rw [deviceReset, if_pos hr, if_pos (by simp [hf, hc])]

theorem deviceReset_of_released (hr : s.dev.boot.inReset = false) : deviceReset s c h =
    (landWrites s).withDev (s.dev.inResetOf s.params (s.dev.aon.event s.dev.boot c) h) := by
  rw [deviceReset, if_neg (by simp [hr]), State.upd, landWrites_dev]
  rfl

/-! ## Sources (R448 to R450, R510) -/

theorem pwrokChange_of_fall (hpl : pl < s.params.panels) (hp : pl ∉ s.dev.pins.pwrLow) : pwrokChange s pl false =
    (deviceReset s 1 0).upd (fun d =>
      ({ d with pins := { d.pins with pwrLow := d.pins.pwrLow.filter (· != pl) ++ [pl] } }).setTest pl (d.testPort pl).cleared) := by
  rw [pwrokChange, if_neg (by simp [hpl, hp])]
  rfl

theorem pwrokChange_of_rise (hpl : pl < s.params.panels) (hp : pl ∈ s.dev.pins.pwrLow) : pwrokChange s pl true = s.upd (fun d =>
    { d with
      pins := { d.pins with pwrLow := d.pins.pwrLow.filter (· != pl) }
      aon := { d.aon with monitor := Tbl.set pl 6 d.aon.monitor, goodWindows := Tbl.del pl d.aon.goodWindows } }) := by
  rw [pwrokChange, if_neg (by simp [hpl, hp])]
  rfl

theorem pwrokChange_of_noPanel {lv : Bool} (hpl : s.params.panels ≤ pl) : pwrokChange s pl lv = s := if_pos (by simp [hpl])

theorem rstNChange_of_panel {lv : Bool} (hpl : pl < s.params.panels) : rstNChange s pl lv =
    (if lv then s else deviceReset s 2 0).upd (fun d => { d with pins := { d.pins with rstLow := mark (!lv) pl d.pins.rstLow } }) :=
  if_neg (Nat.not_le.mpr hpl)

theorem rstNChange_of_noPanel {lv : Bool} (hpl : s.params.panels ≤ pl) : rstNChange s pl lv = s := if_pos hpl

theorem holdInChange_of_panel (h0 : 0 < pl) (hpl : pl < s.params.panels) (hc : c < 8) : holdInChange s pl c =
    (if c = 0 then s else deviceReset s c 0).upd (fun d =>
      { d with pins := { d.pins with holdIn := if c = 0 then Tbl.del pl d.pins.holdIn else Tbl.set pl c d.pins.holdIn } }) :=
  if_neg (by omega)

/-! ## The reset key (R453) -/

/-- A served write of RESET_KEY. -/
theorem writeReg_key (hw : writable s.dev 0 0x2000 = true) : writeReg s 0 0x2000 v = writeKey s v :=
  writeReg_of_area hw rfl (a := .resetPage 0) rfl

theorem writeKey_of_unarmed (hk : s.dev.boot.keyArmed = false) : writeKey s keyFireValue =
    s.upd (fun d => { d with boot := { d.boot with keyArmed := false } }) := by
  rw [writeKey, if_neg (by decide), if_neg (by simp [hk])]

theorem writeKey_of_armed (hk : s.dev.boot.keyArmed = true) : writeKey s keyFireValue = deviceReset s 4 4 := by
  rw [writeKey, if_neg (by decide), if_pos ⟨rfl, hk⟩]

theorem writeKey_of_other (ha : v ≠ keyArmValue) (hf : v ≠ keyFireValue) : writeKey s v =
    s.upd (fun d => { d with boot := { d.boot with keyArmed := false } }) := by
  rw [writeKey, if_neg ha, if_neg (fun hv => hf hv.1)]

/-! ## Release (R449, R510) -/

/-- A panel holds the block by none of its own sources; RESET_DEVICE and the reset key are sources of panel 0. -/
theorem holdOut_eq_zero_iff : holdOut d pl = 0 ↔
    pl ∉ d.pins.pwrLow ∧ pl ∉ d.pins.rstLow ∧ (pl = 0 → d.boot.hold = 0) ∧ Tbl.get 0 pl d.aon.monitor = 0 := by
  unfold holdOut Aon.holds
  split_ifs with hp hr hh
  · simp_all
  · simp_all
  · simp_all
  · simp_all

theorem released_iff : released p d = true ↔ (∀ pl < p.panels, holdOut d pl = 0) ∧ ∀ e ∈ d.pins.holdIn, e.2 = 0 := by
  simp [released, Pins.held]

theorem resetRelease_of_released (hr : d.boot.inReset = true) (h : released p d = true) :
    resetRelease p d = { d with boot := Boot.release, time := 0, aon := { d.aon with fresh := false } } := if_pos (by simp [hr, h])

theorem resetRelease_of_held (h : ¬ released p d = true) : resetRelease p d = d := if_neg (by simp [h])

/-- One source of one panel, or one k3_hold_i, keeps the block in reset. -/
theorem not_released_of_source (hpl : pl < p.panels) (h : pl ∈ d.pins.pwrLow ∨ pl ∈ d.pins.rstLow ∨ d.boot.hold ≠ 0 ∨
    Tbl.get 0 pl d.aon.monitor ≠ 0 ∨ ∃ e ∈ d.pins.holdIn, e.2 ≠ 0) : ¬ released p d = true := by
  intro hrel
  obtain ⟨hout, hin⟩ := released_iff.mp hrel
  obtain ⟨hpwr, hrst, -, hmon⟩ := holdOut_eq_zero_iff.mp (hout pl hpl)
  obtain ⟨-, -, hhold, -⟩ := holdOut_eq_zero_iff.mp (hout 0 (Nat.zero_lt_of_lt hpl))
  rcases h with h | h | h | h | ⟨e, he, hne⟩
  · exact hpwr h
  · exact hrst h
  · exact h (hhold rfl)
  · exact h hmon
  · exact hne (hin e he)

/-! ## The root-clock monitor (R455) -/

theorem monitorFail_of_panel (hpl : pl < s.params.panels) : monitorFail s pl c = (deviceReset s c 0).upd (fun d => { d with aon := { d.aon with
    monitor := if Tbl.get 0 pl d.aon.monitor = 0 then Tbl.set pl c d.aon.monitor else d.aon.monitor
    goodWindows := Tbl.del pl d.aon.goodWindows } }) := if_neg (Nat.not_le.mpr hpl)

theorem rootclkWindow_of_outOfRange (hn : clockInRange n = false) : rootclkWindow s pl n = monitorFail s pl 6 := if_pos (by simp [hn])

theorem rootclkWindow_of_unheld (hn : clockInRange n = true) (hm : Tbl.get 0 pl s.dev.aon.monitor = 0) : rootclkWindow s pl n = s := by
  rw [rootclkWindow, if_neg (by simp [hn]), if_pos (.inl hm)]

section
variable (hn : clockInRange n = true) (hp : pl ∉ s.dev.pins.pwrLow) (hm : Tbl.get 0 pl s.dev.aon.monitor ≠ 0)
include hn hp hm

theorem rootclkWindow_of_first (hg : Tbl.get 0 pl s.dev.aon.goodWindows = 0) : rootclkWindow s pl n =
    s.upd (fun d => { d with aon := { d.aon with goodWindows := Tbl.set pl 1 d.aon.goodWindows } }) := by
  rw [rootclkWindow, if_neg (by simp [hn]), if_neg (by simp [Aon.holds, hp, hm])]
  exact congrArg (fun a => s.withDev { s.dev with aon := a }) (if_pos hg)

/-- The second window in range ends the hold. -/
theorem rootclkWindow_of_second (hg : Tbl.get 0 pl s.dev.aon.goodWindows ≠ 0) : rootclkWindow s pl n =
    s.upd (fun d => { d with aon := { d.aon with
      monitor := Tbl.del pl d.aon.monitor, goodWindows := Tbl.del pl d.aon.goodWindows } }) := by
  rw [rootclkWindow, if_neg (by simp [hn]), if_neg (by simp [Aon.holds, hp, hm])]
  exact congrArg (fun a => s.withDev { s.dev with aon := a }) (if_neg hg)

end

/-! ## A shared error (R505, R506) -/

/-- The writing of a held fault record leaves the MC alone. -/
@[simp] theorem Dev.writeHeld_mc (d : Dev) (f : Nat) : (d.writeHeld f).mc = d.mc := by
  unfold Dev.writeHeld
  split
  · rfl
  · dsimp only
    split <;> rfl

@[simp] theorem Dev.fault_mc (d : Dev) (f : Nat) (i : FInfo) : (d.fault f i).mc = d.mc := by
  unfold Dev.fault
  split
  · exact Dev.writeHeld_mc _ f
  · rfl

theorem sharedError_of_shared (hr : d.boot.inReset = false) (hu : n ∈ sharedUnits) : sharedError d n =
    Dev.health { d with mc := { d.mc with fatal := true } } { status := .done, kind := 11, w4 := 2, w5 := BitVec.ofNat 64 n } :=
  if_neg (by simp [hr, hu])

/-! ## One cycle (R451, R452) -/

theorem cycle_of_inReset (hr : d.boot.inReset = true) : cycle p d = { d with aon := { d.aon with fresh := false } } := if_pos hr

/-- What the cores and links of a cycle leave alone: the time, the control registers of functions, the queues, and bring-up. -/
def Dev.cycleKept (d : Dev) : Word × List (Nat × FuncSt) × List (Nat × Queue) × Boot := (d.time, d.funcs, d.queues, d.boot)

@[simp] theorem modDir_cycleKept (d : Dev) (l : Nat) (up : Bool) (f : LinkDir → LinkDir) : (modDir d l up f).cycleKept = d.cycleKept := rfl

/-- An edge of a core domain counts in the contexts and in the core. -/
@[simp] theorem coreTick_cycleKept (p : Params) (d : Dev) (k : Nat) : (coreTick p d k).cycleKept = d.cycleKept := by
  unfold coreTick
  extract_lets c d1 n
  have hctxs : d1.cycleKept = d.cycleKept := by
    refine foldl_keeps Dev.cycleKept (fun _ _ => ?_) _ d
    rfl
  exact hctxs

@[simp] theorem driveModule_cycleKept (l : Nat) (up : Bool) (d : Dev) (m : Nat) : (driveModule l up d m).cycleKept = d.cycleKept := by
  unfold driveModule
  dsimp only
  split
  · rfl
  · split
    · rfl
    · split <;> rfl

@[simp] theorem sendFlit_cycleKept (d : Dev) (l : Nat) (up : Bool) : (sendFlit d l up).cycleKept = d.cycleKept := by
  unfold sendFlit
  dsimp only
  split
  · rfl
  · exact foldl_keeps Dev.cycleKept (driveModule_cycleKept l up) _ _

theorem tickMs_phase (d : Dev) : (tickMs d).phase = d.boot.phase := by
  unfold tickMs
  split
  · rfl
  · split <;> rfl

/-- Out of reset a cycle is what the cores and links do in it, then the count of time. -/
theorem cycle_of_released (hr : d.boot.inReset = false) :
    ∃ e : Dev, e.cycleKept = d.cycleKept ∧ cycle p d = { e with time := e.time + 1, boot := tickMs e } := by
  rw [cycle, if_neg (by simp [hr])]
  extract_lets d1 d2
  have h1 : d1.cycleKept = d.cycleKept := by
    unfold d1
    split
    · exact foldl_keeps Dev.cycleKept (coreTick_cycleKept p) _ d
    · rfl
  exact ⟨d2, (foldl_keeps Dev.cycleKept (fun e l => by simp) _ d1).trans h1, rfl⟩

theorem cycle_advances (hr : d.boot.inReset = false) : (cycle p d).time = d.time + 1 ∧ (cycle p d).funcs = d.funcs ∧
    (cycle p d).boot.phase = d.boot.phase ∧ (cycle p d).queues = d.queues := by
  obtain ⟨e, hkept, hcycle⟩ := cycle_of_released (p := p) hr
  obtain ⟨htime, hfuncs, hqueues, hboot⟩ : e.time = d.time ∧ e.funcs = d.funcs ∧ e.queues = d.queues ∧ e.boot = d.boot := by
    simpa [Dev.cycleKept] using hkept
  rw [hcycle, ← htime, ← hfuncs, ← hqueues, ← hboot]
  exact ⟨rfl, rfl, tickMs_phase e, rfl⟩

theorem step_of_idle (hp : s.pending = []) : step s = .next (s.upd (cycle s.params)) := by
  simp only [step, hp]

end Sys2Proof.Machine

namespace Sys2Proof

open Machine

/-- Settles O33: in reset an event is ignored or lowers the cause; out of reset the device that it leaves is `Dev.inResetOf`. -/
theorem resetEventClearsTheDevice : Obligations.ResetEventClearsTheDevice := by
  refine ⟨?ignored, ?lowered, ?event⟩
  case ignored => exact fun s c h hr hc => deviceReset_of_inReset hr hc
  case lowered => exact fun s c h hr hf hc => deviceReset_of_lowerCause hr hf hc
  case event =>
    intro s c h d hr hd
    rw [deviceReset_of_released hr] at hd ⊢
    subst hd
    exact ⟨rfl, rfl, rfl, rfl, rfl, rfl, rfl, rfl, rfl, rfl, rfl, rfl, rfl, rfl, rfl, rfl, rfl, rfl, rfl, rfl, rfl,
      landWrites_stack s, landWrites_params s⟩

/-- Settles O55: `cycle_advances` says what a cycle out of reset leaves, and an idle step is a cycle of the device alone. -/
theorem idleCycleAdvancesTime : Obligations.IdleCycleAdvancesTime := by
  refine ⟨fun p d hr => cycle_advances hr, fun p d hr => cycle_of_inReset hr, ?idle⟩
  intro s t hp hstep
  rw [step_of_idle hp] at hstep
  cases hstep
  exact ⟨rfl, hp⟩

/-- Settles O26: each value is a write of RESET_KEY, which `writeKey` takes by the value and by whether the key is armed. -/
theorem resetKeySequence : Obligations.ResetKeySequence := by
  refine ⟨?arm, ?fire, ?unarmed, ?disarm, fun s => rfl⟩
  case arm => exact fun s hw => congrArg Host.Outcome.next (writeReg_key hw)
  case fire => exact fun s hw hk => congrArg Host.Outcome.next ((writeReg_key hw).trans (writeKey_of_armed hk))
  case unarmed => exact fun s hw hk => congrArg Host.Outcome.next ((writeReg_key hw).trans (writeKey_of_unarmed hk))
  case disarm => exact fun s v hw ha hf => congrArg Host.Outcome.next ((writeReg_key hw).trans (writeKey_of_other ha hf))

/-- Settles O32: each source by its level, on a panel that exists and on one that does not. -/
theorem resetSources : Obligations.ResetSources := by
  refine ⟨?pwrFall, ?pwrRise, ?rstFall, ?rstRise, ?noPanel, ?hold, ?holdEnds, fun s => rfl⟩
  case pwrFall => exact fun s pl hpl hp => congrArg Host.Outcome.next (pwrokChange_of_fall hpl hp)
  case pwrRise => exact fun s pl hpl hp => congrArg Host.Outcome.next (pwrokChange_of_rise hpl hp)
  case rstFall => exact fun s pl hpl => congrArg Host.Outcome.next (rstNChange_of_panel hpl)
  case rstRise => exact fun s pl hpl => congrArg Host.Outcome.next (rstNChange_of_panel hpl)
  case noPanel =>
    exact fun s pl lv hpl => ⟨congrArg Host.Outcome.next (pwrokChange_of_noPanel hpl), congrArg Host.Outcome.next (rstNChange_of_noPanel hpl)⟩
  case hold =>
    intro s pl c h0 hpl hc hc8
    have h := holdInChange_of_panel h0 hpl hc8
    simp only [if_neg (Nat.pos_iff_ne_zero.mp hc)] at h
    exact congrArg Host.Outcome.next h
  case holdEnds =>
    intro s pl h0 hpl
    exact congrArg Host.Outcome.next (holdInChange_of_panel h0 hpl (by decide))

/-- Settles O34: the release by `released_iff`, the monitor's windows by what the monitor holds, and a shared error by its KIND 11 record. -/
theorem releaseClockMonitorAndAlwaysOn : Obligations.ReleaseClockMonitorAndAlwaysOn := by
  refine ⟨?release, ?held, ?ready, fun s => ⟨_, rfl, rfl, rfl, rfl, rfl, rfl, rfl⟩, ?fires, ?quiet, ?shared, ?outOfRange, ?first, ?second, ?unheld,
    ?missing⟩
  case release =>
    intro s hr hsrc hin hhold
    have hrel : released s.params s.dev = true := released_iff.mpr ⟨fun pl hpl =>
      have ⟨hpwr, hrst, hmon⟩ := hsrc pl hpl
      holdOut_eq_zero_iff.mpr ⟨hpwr, hrst, fun _ => hhold, hmon⟩, hin⟩
    exact congrArg (fun d => Host.Outcome.next (s.withDev d)) (resetRelease_of_released hr hrel)
  case held =>
    intro s pl hpl h
    exact congrArg (fun d => Host.Outcome.next (s.withDev d)) (resetRelease_of_held (not_released_of_source hpl h))
  case ready => exact fun s hr => congrArg Host.Outcome.next (if_neg (by simp [hr]))
  case fires => exact fun s hf => congrArg Host.Outcome.next (if_pos hf)
  case quiet => exact fun s hf => congrArg Host.Outcome.next (if_neg (by simp [hf]))
  case shared =>
    intro s u hr hu
    have h := sharedError_of_shared hr hu
    exact ⟨_, rfl, (congrArg (fun d => d.mc.fatal) h).trans (congrArg Mc.fatal (Dev.fault_mc _ _ _)), congrArg s.withDev h⟩
  case outOfRange =>
    exact fun s pl n hpl hn => congrArg Host.Outcome.next ((rootclkWindow_of_outOfRange hn).trans (monitorFail_of_panel hpl))
  case first => exact fun s pl n hn hp hm hg => congrArg Host.Outcome.next (rootclkWindow_of_first hn hp hm hg)
  case second => exact fun s pl n hn hp hm hg => congrArg Host.Outcome.next (rootclkWindow_of_second hn hp hm hg)
  case unheld => exact fun s pl n hn hm => congrArg Host.Outcome.next (rootclkWindow_of_unheld hn hm)
  case missing => exact fun s pl hpl => congrArg Host.Outcome.next (monitorFail_of_panel hpl)

end Sys2Proof
end

section
/-! Step 10 of the packets that reset the device, a function or a partition, or load an image: all wait while the MC restarts (R477). -/

namespace Sys2Proof.Machine

variable {s s1 : State} {q : QRef} {p : Pkt}

theorem mcTen_of_running {f : State → Pkt → Ten} (hm : mcRestarts s.dev = false) : mcTen f s p = f s p := if_neg (by simp [hm])

theorem mcTen_of_restarting {f : State → Pkt → Ten} (hm : mcRestarts s.dev = true) : mcTen f s p = .wait s := if_pos hm

/-- A packet for the MC that reaches step 10 during the restart waits. -/
theorem acceptRow_of_restarting {sem : OpSem} {f : State → Pkt → Ten} (hsem : sem.exec = mcTen f) (hten : reach sem q s = .ten s1 p)
    (hm : mcRestarts s1.dev = true) : acceptRow sem q s = waits10 s1 q p :=
  acceptRow_of_wait hten (by rw [hsem, mcTen_of_restarting hm])

theorem fwLoadTen_of_length (hl : 512 ≤ (p.b 1).toNat) (hu : (p.b 1).toNat ≤ 512 + 261888) : fwLoadTen s p =
    .later (s.upd (fun d => mcStart d ⟨0, p.uid, (p.b 0).toNat, (p.b 1).toNat, [], none, none⟩)) := if_neg (by omega)

theorem fwLoadTen_of_badLength (h : (p.b 1).toNat < 512 ∨ 512 + 261888 < (p.b 1).toNat) : fwLoadTen s p = .fail s .badParam := if_pos h

theorem partClearTen_of_idle (h : ∀ c ∈ s.dev.mc.clears, c.1 ≠ 16 * fld (p.b 0) 1 0 + fld (p.b 0) 7 4) :
    partClearTen s p = .later (beginClear s (fld (p.b 0) 1 0) (fld (p.b 0) 7 4) p.uid) := if_neg (by simpa using fun x hx => h _ hx rfl)

theorem partClearTen_of_clearing {c : Nat × Nat} (hc : c ∈ s.dev.mc.clears) (h : c.1 = 16 * fld (p.b 0) 1 0 + fld (p.b 0) 7 4) :
    partClearTen s p = .wait s := if_pos (List.any_eq_true.mpr ⟨c, hc, by simp [h]⟩)

theorem semResetDevice_exec_of_running (hm : mcRestarts s.dev = false) : semResetDevice.exec s p =
    .later (s.upd (fun d => { d with boot := { d.boot with hold := 3 } })) := if_neg (by simp [hm])

/-- R448: the device resets at once with the acceptance of a RESET_DEVICE that begins the hold. -/
theorem execResetDevice_of_accepted {s2 : State} (h : acceptRow semResetDevice q s = s2) (hr : s2.dev.boot.inReset = false)
    (hh : s2.dev.boot.hold = 3) : execResetDevice q s = .next (deviceReset s2 3 3) := by
  rw [execResetDevice, h]
  exact congrArg Host.Outcome.next (if_pos (by simp [hr, hh]))

end Sys2Proof.Machine

namespace Sys2Proof

open Machine

/-- Settles O12: the ending of step 10 that the lemma above gives, carried out by `acceptRow`. -/
theorem resetPacketsComplete : Obligations.ResetPacketsComplete := by
  refine ⟨?load, ?badLength, ?device, ?func, ?clear, ?clearing, ?restarting⟩
  case load =>
    intro q s s1 p hten hm hl hu
    exact congrArg Host.Outcome.next (acceptRow_of_later hten ((mcTen_of_running hm).trans (fwLoadTen_of_length hl hu)))
  case badLength =>
    intro q s s1 p hten hm h
    exact congrArg Host.Outcome.next (acceptRow_of_fail hten ((mcTen_of_running hm).trans (fwLoadTen_of_badLength h)))
  case device =>
    intro q s s1 p s2 hten hm hs2 hr hh
    exact execResetDevice_of_accepted ((acceptRow_of_later hten (semResetDevice_exec_of_running hm)).trans hs2.symm) hr hh
  case func =>
    intro q s s1 p hten hm
    exact congrArg Host.Outcome.next (acceptRow_of_later hten (mcTen_of_running hm))
  case clear =>
    intro q s s1 p hten hm h
    exact congrArg Host.Outcome.next (acceptRow_of_later hten ((mcTen_of_running hm).trans (partClearTen_of_idle h)))
  case clearing =>
    intro q s s1 p c hten hc h
    cases hm : mcRestarts s1.dev with
    | true => exact congrArg Host.Outcome.next (acceptRow_of_restarting rfl hten hm)
    | false => exact congrArg Host.Outcome.next (acceptRow_of_wait hten ((mcTen_of_running hm).trans (partClearTen_of_clearing hc h)))
  case restarting =>
    intro q s s1 p hm
    exact ⟨fun hten => congrArg Host.Outcome.next (acceptRow_of_restarting rfl hten hm),
      fun hten => congrArg Host.Outcome.next (acceptRow_of_restarting rfl hten hm),
      fun hten => congrArg Host.Outcome.next (acceptRow_of_restarting rfl hten hm)⟩

end Sys2Proof
end

section
/-! Bring-up: the events of phases 0 to 5 (R458 to R472, R498, R548), the images of phase 6 and the pages of phase 7 (R472 to R476), and the quiesce of
a microcode load (R478). -/

namespace Sys2Proof.Machine

variable {s : State} {d : Dev} {p : Params} {n : Nat}

/-- No phase runs in reset or once READY. -/
theorem inPhase_of_stopped (h : d.boot.ready = true ∨ d.boot.inReset = true) : inPhase d n = false := by
  rcases h with h | h
  · simp [inPhase, h]
  · simp [inPhase, h]

/-- The phase that runs is not stuck at a shared array. -/
theorem stuck_of_inPhase (h : inPhase d n = true) : d.boot.stuck = false := by
  simp only [inPhase, Bool.and_eq_true, Bool.not_eq_true'] at h
  exact h.2

/-! ## Phases 0 to 5 -/

section
variable {fails : List BistFail} {shared : List Nat} {rs : List ModTrain} {a b : List (BitVec 4)}

theorem optionLoad_of_phase0 (h : inPhase d 0 = true) : optionLoad p d a b = takeOptions p d (choose p d.aon.lastLc (optBytes a) (optBytes b)) :=
  if_pos h

theorem optionLoad_of_otherPhase (h : inPhase d 0 = false) : optionLoad p d a b = d := if_neg (by simp [h])

/-- Phase 0 leads to phase 1 of a cold bring-up, to phase 2 of a warm one (R469). -/
theorem takeOptions_phase (c : OptChoice) : (takeOptions p d c).boot.phase = 1 ∨ (takeOptions p d c).boot.phase = 2 := by
  unfold takeOptions
  dsimp only
  split
  · exact .inl rfl
  · exact .inr rfl

theorem optTimeout_of_phase0 (h : inPhase d 0 = true) : optTimeout p d =
    { takeOptions p d ⟨optSafe d.aon.lastLc, 3, false, false, 0⟩ with
      boot := { (takeOptions p d ⟨optSafe d.aon.lastLc, 3, false, false, 0⟩).boot with noStore := true } } := if_pos h

theorem optTimeout_of_otherPhase (h : inPhase d 0 = false) : optTimeout p d = d := if_neg (by simp [h])

/-- Repairs and failed sites leave bring-up alone; with no failed shared array phase 2 ends. -/
theorem sramBist_boot_of_noShared (h : inPhase d 2 = true) : (sramBist p d fails []).boot = { d.boot with phase := phaseAfter p d 2 } := by
  rw [sramBist, if_neg (by simp [h])]
  extract_lets r live d1 d2
  have h1 : d1.boot = d.boot := by
    refine foldl_keeps Dev.boot (fun e pl => ?_) live d
    rfl
  have h2 : d2.boot = d1.boot := by
    refine foldl_keeps Dev.boot (fun e k => ?_) _ d1
    split
    · rfl
    · rfl
  exact (congrArg Dev.boot (if_pos rfl)).trans (congrArg (fun b : Boot => { b with phase := phaseAfter p d 2 }) (h2.trans h1))

theorem sramBist_of_otherPhase (h : inPhase d 2 = false) : sramBist p d fails shared = d := if_pos (by simp [h])

theorem stackWipe_of_phase4 (h : inPhase s.dev 4 = true) : (stackWipe s).dev.boot.phase = phaseAfter s.params s.dev 4 ∧
    (∀ c ∈ (stackWipe s).mem.stack, livePanels s.params s.dev ≤ c.1 / 2 ^ 40 / 16) ∧ (stackWipe s).mem.host = s.mem.host := by
  rw [stackWipe, if_neg (by simp [h])]
  exact ⟨rfl, fun c hc => of_decide_eq_true (List.mem_filter.mp hc).2, rfl⟩

theorem stackWipe_of_otherPhase (h : inPhase s.dev 4 = false) : stackWipe s = s := if_pos (by simp [h])

theorem linkTraining_of_trained {d1 : Dev} {ok : Bool} (h : inPhase d 5 = true)
    (ht : (List.range p.links).foldl (trainLink rs) (rs.foldl setPhy d, true) = (d1, ok)) : linkTraining p d rs =
    if ok then { d1 with boot := { d1.boot with phase := 6 } } else { d1 with boot := { d1.boot with error := 2 } } := by
  rw [linkTraining, if_neg (by simp [h]), ht]
  rfl

theorem linkTraining_of_otherPhase (h : inPhase d 5 = false) : linkTraining p d rs = d := if_pos (by simp [h])

end

/-! ## Phase 6 (R472 to R475) -/

section
variable {boot a b cert : List (BitVec 4)} {area : List Byte} {d1 : Dev}

theorem bootVerify_of_otherPhase (h : inPhase d 6 = false) : bootVerify p d boot a b cert = d := if_pos (by simp [h])

theorem bootVerify_of_noStore (h : inPhase d 6 = true) (hn : d.boot.noStore = true) :
    bootVerify p d boot a b cert = { d with boot := { d.boot with error := 3 } } := by
  rw [bootVerify, if_neg (by simp [h]), if_pos hn]
  rfl

theorem bootVerify_of_read (h : inPhase d 6 = true) (hn : d.boot.noStore = false) (harea : area = optBytes boot)
    (hd : d1 = readImages (readIdentity (readSvc p d (optBytes a) (optBytes b)) (optBytes cert)) area (area.drop (ucPlace area))) :
    bootVerify p d boot a b cert = if d1.mc.fwOk && d1.mc.ucOk then beginPhase7 p d1 else { d1 with boot := { d1.boot with error := 3 } } := by
  subst harea hd
  rw [bootVerify, if_neg (by simp [h]), if_neg (by simp [hn])]
  rfl

end

/-! ## Phase 7 (R475, R476) -/

section
variable {k page : Nat} {got : List Byte}

theorem pageFetch_of_otherPage (h : (s.dev.site k).pages ≠ page) : pageFetch s k page got = s := if_pos (by simpa using h)

theorem pageFetch_of_expected (hsingle : s.dev.mc.single = none) (hr : s.dev.boot.inReset = false) (hph : s.dev.boot.phase = 7)
    (he : s.dev.boot.error = 0) (hk : k ∈ liveSites s.params s.dev) (hf : fetchPending s.dev k = true) :
    pageFetch s k (s.dev.site k).pages got =
      s.upd (fun d => endPhase7 s.params (countFailed (d.modSite k (takePage d.mc.npages (pageOk got))) k)) := by
  rw [pageFetch]
  extract_lets x crcOk
  rw [if_neg (by simp), hsingle]
  exact if_neg (by simp [hr, hph, he, hk, hf])

end

/-! ## The quiesce of a microcode load (R478) -/

section
variable {uid : Nat} {img : List Byte} {failed : List Nat}

theorem quiesceRefetch_of_none (h : s.dev.mc.quiesce = none) : quiesceRefetch s failed = s := by rw [quiesceRefetch, h]

theorem quiesceTimeout_of_none (h : s.dev.mc.quiesce = none) : quiesceTimeout s = s := by rw [quiesceTimeout, h]

theorem quiesceRefetch_of_busy (h : s.dev.mc.quiesce = some (uid, img)) (hq : quiesced s.dev = false) : quiesceRefetch s failed = s := by
  rw [quiesceRefetch, h]
  exact if_pos (by simp [hq])

/-- Every site that refetches without a failure stays in service. -/
theorem quiesceRefetch_of_quiesced (h : s.dev.mc.quiesce = some (uid, img)) (hq : quiesced s.dev = true) : quiesceRefetch s [] =
    (mcEnd (s.upd (fun d => newImage { d with mc := { d.mc with quiesce := none } } ⟨uid, true, FwImage.version img, FwImage.body img⟩))
      0 uid .done 0).upd pump := by
  rw [quiesceRefetch, h]
  simp [hq]

theorem quiesceTimeout_of_busy (h : s.dev.mc.quiesce = some (uid, img)) (hq : quiesced s.dev = false) : quiesceTimeout s =
    (mcEnd (s.upd (fun d => { d with mc := { d.mc with quiesce := none } })) 0 uid .storeBusy 0).upd pump := by
  rw [quiesceTimeout, h]
  exact if_neg (by simp [hq])

end

end Sys2Proof.Machine

namespace Sys2Proof

open Machine

/-- Settles O51: each event by whether its phase runs. -/
theorem bringUpPhases : Obligations.BringUpPhases := by
  refine ⟨?options, ?noOptions, ?logic, ?sram, ?training, ?wipe, ?links, ?stopped⟩
  case options => exact fun s a b h => congrArg (fun d => Host.Outcome.next (s.withDev d)) (optionLoad_of_phase0 h)
  case noOptions =>
    intro s h
    exact ⟨_, congrArg (fun d => Host.Outcome.next (s.withDev d)) (optTimeout_of_phase0 h), rfl, rfl, rfl, takeOptions_phase _, rfl⟩
  case logic => exact fun s h => congrArg (fun d => Host.Outcome.next (s.withDev d)) (if_pos h)
  case sram =>
    intro s fails h
    have hboot := sramBist_boot_of_noShared (p := s.params) (fails := fails) h
    exact ⟨_, rfl, congrArg Boot.phase hboot, (congrArg Boot.stuck hboot).trans (stuck_of_inPhase h), rfl⟩
  case training => exact fun s h => congrArg (fun d => Host.Outcome.next (s.withDev d)) (if_pos h)
  case wipe => exact fun s h => ⟨_, rfl, stackWipe_of_phase4 h⟩
  case links => exact fun s rs d ok h ht => congrArg (fun d => Host.Outcome.next (s.withDev d)) (linkTraining_of_trained h ht)
  case stopped =>
    intro s hs a b fails shared rs
    have hn : ∀ n, inPhase s.dev n = false := fun n => inPhase_of_stopped hs
    have keep : ∀ {d : Dev}, d = s.dev → (Host.Outcome.next (s.withDev d) : Out) = .next s := congrArg (fun d => Host.Outcome.next (s.withDev d))
    exact ⟨keep (optionLoad_of_otherPhase (hn 0)), keep (optTimeout_of_otherPhase (hn 0)), keep (if_neg (by simp [hn 1])),
      keep (sramBist_of_otherPhase (hn 2)), keep (if_neg (by simp [hn 3])), congrArg Host.Outcome.next (stackWipe_of_otherPhase (hn 4)),
      keep (linkTraining_of_otherPhase (hn 5))⟩

/-- Settles O52: the boot area by whether it was read and verifies, a page by the site's next one, and the quiesce by the packets in flight. -/
theorem firmwareEvents : Obligations.FirmwareEvents := by
  refine ⟨?noStore, ?read, ?otherPhase, ?otherPage, ?page, ?quiesced, ?busy, ?timeout, ?none⟩
  case noStore => exact fun s mc uc a b cert h hn => congrArg (fun d => Host.Outcome.next (s.withDev d)) (bootVerify_of_noStore h hn)
  case read =>
    intro s mc uc a b cert area d1 h hn harea hd
    have hread := bootVerify_of_read h hn harea hd
    constructor
    · intro hfw huc
      exact congrArg (fun d => Host.Outcome.next (s.withDev d)) (hread.trans (if_pos (by simp [hfw, huc])))
    · intro hbad
      exact congrArg (fun d => Host.Outcome.next (s.withDev d)) (hread.trans (if_neg (by rcases hbad with hb | hb <;> simp [hb])))
  case otherPhase => exact fun s mc uc a b cert h => congrArg (fun d => Host.Outcome.next (s.withDev d)) (bootVerify_of_otherPhase h)
  case otherPage => exact fun s pl st pg got h => congrArg Host.Outcome.next (pageFetch_of_otherPage h)
  case page => exact fun s pl st got hs hr hph he hk hf => congrArg Host.Outcome.next (pageFetch_of_expected hs hr hph he hk hf)
  case quiesced => exact fun s uid img h hq => congrArg Host.Outcome.next (quiesceRefetch_of_quiesced h hq)
  case busy => exact fun s uid img failed h hq => congrArg Host.Outcome.next (quiesceRefetch_of_busy h hq)
  case timeout => exact fun s uid img h hq => congrArg Host.Outcome.next (quiesceTimeout_of_busy h hq)
  case none =>
    exact fun s h => ⟨congrArg Host.Outcome.next (quiesceTimeout_of_none h), fun failed => congrArg Host.Outcome.next (quiesceRefetch_of_none h)⟩

end Sys2Proof
end

section
/-! Step 10 of RETIRE and INSERT (R489 to R491, R494): which change a packet stages, which stack slot or lane it takes, and what it refuses. -/

namespace Sys2Proof.Machine

variable {sem : OpSem} {s s1 : State} {q : QRef} {p : Pkt} {d : Dev} {k : Nat}

/-- Step 10 of a packet for the MC while it runs. -/
theorem exec_of_running {f : State → Pkt → Ten} {t : Ten} (hsem : sem.exec = mcTen f) (hm : mcRestarts s.dev = false) (ht : f s p = t) :
    sem.exec s p = t := by
  rw [hsem, mcTen_of_running hm, ht]

/-! ## Staged changes (R490) -/

/-- A row whose step 10 stages a change completes, or fails while 63 changes are pending. -/
theorem acceptRow_of_stage {c : Change} (hten : reach sem q s = .ten s1 p) (hstage : sem.exec s1 p = stage s1 c) : acceptRow sem q s =
    if s1.dev.mc.changes.length < 63 then finished (s1.upd (fun d => applyIdle s1.params { d with mc := { d.mc with
      changes := d.mc.changes ++ [c] } })) q p id else failed10 s1 q p .tableFull := by
  split
  case isTrue hlen => exact acceptRow_of_done hten (hstage.trans (if_neg (Nat.not_le.mpr hlen)))
  case isFalse hlen => exact acceptRow_of_fail hten (hstage.trans (if_pos (Nat.not_lt.mp hlen)))

theorem homeSite_of_siteOf {idx : Nat} (hk : d.siteOf idx = some k) : homeSite d idx = some k := by rw [homeSite, hk]

/-- A retirement of a core in place is staged for the panel of its site. -/
theorem changeOf_of_siteOf (hk : d.siteOf (fld (p.b 1) 9 0) = some k) :
    changeOf d p false = ⟨keyPanel k, false, fld (p.b 0) 3 0, p.b 1, p.seq⟩ :=
  congrArg (fun o : Option Nat => (⟨keyPanel (o.getD 0), false, fld (p.b 0) 3 0, p.b 1, p.seq⟩ : Change)) (homeSite_of_siteOf hk)

/-! ## RETIRE by kind (R489) -/

/-- RETIRE of each kind, its identifier well-formed. -/
def retireKind (s : State) (p : Pkt) : Nat → Ten
  | 1 => retireCore s p
  | 2 => retireLineOf s p true
  | 3 => retireLineOf s p false
  | 4 => retireRange s p
  | 5 => retireLink s p true
  | _ => retireLink s p false

theorem retireTen_of_kind (hk : fld (p.b 0) 3 0 = k) (h1 : 1 ≤ k) (h6 : k ≤ 6) (hv : p.b 1 &&& ~~~identMask false k = 0) :
    retireTen s p = retireKind s p k := by
  subst hk
  exact if_neg (by simp [hv]; omega)

theorem retireTen_of_malformed (hk : k = fld (p.b 0) 3 0) (h : k < 1 ∨ 6 < k ∨ p.b 1 &&& ~~~identMask false k ≠ 0) :
    retireTen s p = .fail s .badParam := by
  subst hk
  exact if_pos h

theorem retireCore_of_pending {c : Change} (hk : s.dev.siteOf (fld (p.b 1) 9 0) = some k) (hc : c ∈ s.dev.mc.changes)
    (hins : c.insert = false) (hkind : c.kind = 1) (hidx : c.index = fld (p.b 1) 9 0) : retireCore s p = .done s id :=
  (if_neg (by simp [hk])).trans (if_pos (List.any_eq_true.mpr ⟨c, hc, by simp [hins, hkind, hidx]⟩))

theorem retireCore_of_new (hk : s.dev.siteOf (fld (p.b 1) 9 0) = some k)
    (hnew : ∀ c ∈ s.dev.mc.changes, ¬ (c.insert = false ∧ c.kind = 1 ∧ c.index = fld (p.b 1) 9 0)) :
    retireCore s p = stage s (changeOf s.dev p false) :=
  (if_neg (by simp [hk])).trans (if_neg (by simpa using hnew))

theorem retireLineOf_of_site {row : Bool} (hk : s.dev.siteOf (fld (p.b 1) 9 0) = some k) (hn : fld (p.b 1) 22 16 < s.params.opuDim + 2) :
    retireLineOf s p row =
      if fld (p.b 1) 22 16 ∈ linesGone s.dev k (fld (p.b 1) 9 0) row then .done s id
      else if 2 ≤ (linesGone s.dev k (fld (p.b 1) 9 0) row).length then .fail s .badParam
      else stage s (changeOf s.dev p false) := by
  simp only [retireLineOf, hk, if_neg (Nat.not_le.mpr hn), List.contains_iff_mem]

/-- A core, a row or a column of a vacant index cannot be retired. -/
theorem retireTen_of_vacant (hk : k = fld (p.b 0) 3 0) (h1 : 1 ≤ k) (h3 : k ≤ 3) (hv : p.b 1 &&& ~~~identMask false k = 0)
    (hvac : s.dev.siteOf (fld (p.b 1) 9 0) = none) : retireTen s p = .fail s .badParam := by
  have hline : ∀ row, retireLineOf s p row = .fail s .badParam := fun row => by simp only [retireLineOf, hvac]
  rw [retireTen_of_kind hk.symm h1 (by omega) hv]
  obtain h | h | h : k = 1 ∨ k = 2 ∨ k = 3 := by omega
  · subst h; exact if_pos (by simp [hvac])
  · subst h; exact hline true
  · subst h; exact hline false

/-! ## A stack range (R417, R483, R494) -/

section
variable (hpanel : rangeKey (p.b 1) / 16 < livePanels s.params s.dev) (hport : rangeKey (p.b 1) % 16 < s.params.stackPorts)
  (halign : aligned (unitBytes (rangeCoarse (p.b 1))) (rangeAddr (p.b 1)) = true)
  (haddr : rangeAddr (p.b 1) < usable s.params s.dev (rangeKey (p.b 1) / 16))
  (hnew : remapOf (s.dev.port (rangeKey (p.b 1))) (rangeCoarse (p.b 1)) (rangeAddr (p.b 1)) = none)
include hpanel hport halign haddr hnew

/-- A range not yet remapped takes the lowest slot of its size. -/
theorem retireRange_of_slot {i : Nat} (hslot : freeSlot s.params (s.dev.port (rangeKey (p.b 1))) (rangeCoarse (p.b 1)) = some i) :
    retireRange s p = .later (s.upd (fun d => d.modPort (rangeKey (p.b 1)) (fun x =>
      install x ⟨rangeAddr (p.b 1), rangeCoarse (p.b 1), i, true, 0, none, p.uid⟩))) := by
  rw [retireRange, if_neg (by simp [halign]; omega)]
  simp only [hnew, hslot]

theorem retireRange_of_noSlot (hslot : freeSlot s.params (s.dev.port (rangeKey (p.b 1))) (rangeCoarse (p.b 1)) = none) :
    retireRange s p = .fail s .tableFull := by
  rw [retireRange, if_neg (by simp [halign]; omega)]
  simp only [hnew, hslot]

end

/-! ## A lane or a module of a link (R494, R502) -/

/-- The direction of a link whose lane or module a RETIRE names. -/
def linkDirOf (d : Dev) (v : Word) : LinkDir := (d.link (fld v 17 16)).dir (bitOf v 15)

section
variable (hl : fld (p.b 1) 17 16 < s.params.links) (hm : fld (p.b 1) 12 8 < nModules) (hformed : (s.dev.link (fld (p.b 1) 17 16)).formed = true)
  (hout : fld (p.b 1) 12 8 ∉ (linkDirOf s.dev (p.b 1)).out) (hrep : (linkDirOf s.dev (p.b 1)).repairing = none)
include hl hm hformed hout hrep

theorem retireLink_of_lane (hj : fld (p.b 1) 6 0 < nLanes) (hbad : fld (p.b 1) 6 0 ∉ (linkDirOf s.dev (p.b 1)).bad (fld (p.b 1) 12 8)) :
    retireLink s p true =
      linkTen s (startLane s.dev (fld (p.b 1) 17 16) (bitOf (p.b 1) 15) (fld (p.b 1) 12 8) (fld (p.b 1) 6 0) (some p.uid)) := by
  unfold linkDirOf at hout hrep hbad
  simp [retireLink, Nat.not_le.mpr hl, Nat.not_le.mpr hm, Nat.not_le.mpr hj, hformed, hout, hbad, hrep]

/-- A RETIRE of a module needs no spare, but 16 modules must stay. -/
theorem retireLink_of_module (husable : 17 ≤ (linkDirOf s.dev (p.b 1)).usable) :
    retireLink s p false = .later (s.upd (fun d => modDir d (fld (p.b 1) 17 16) (bitOf (p.b 1) 15) (fun x =>
      { x with repairing := some ⟨fld (p.b 1) 12 8, none, some p.uid⟩ }))) := by
  unfold linkDirOf at hout hrep husable
  have hforced : retireLink s p false =
      linkTen s (startModule s.dev (fld (p.b 1) 17 16) (bitOf (p.b 1) 15) (fld (p.b 1) 12 8) true (some p.uid)) := by
    simp [retireLink, Nat.not_le.mpr hl, Nat.not_le.mpr hm, hformed, hout, Nat.not_lt.mpr husable, hrep]
  exact hforced

end

/-- A replacement that begins is accepted; one that is not made ends the packet. -/
theorem acceptRow_of_linkTen {x : Dev × Bool} (hten : reach sem q s = .ten s1 p) (hlink : sem.exec s1 p = linkTen s1 x) :
    acceptRow sem q s = if x.2 then acceptedMc (s1.withDev x.1) q p else finished (s1.withDev x.1) q p id := by
  split
  case isTrue hx => exact acceptRow_of_later hten (hlink.trans (if_pos hx))
  case isFalse hx => exact acceptRow_of_done hten (hlink.trans (if_neg hx))

/-! ## INSERT (R489 to R491) -/

section
variable {c : Change} (hc : c = changeOf s.dev p true)
include hc

theorem insertTen_of_fits (hkind : c.kind = 1) (hv : p.b 1 &&& ~~~identMask true 1 = 0) (hidx : indexExists s.dev c.index = true)
    (hpanel : keyPanel c.spare < s.params.panels) (hsite : fld c.ident 7 0 < s.params.sites)
    (hfree : s.dev.siteOf c.index = none ∨ ∃ x ∈ s.dev.mc.changes, x.insert = false ∧ x.kind = 1 ∧ x.index = c.index)
    (hnew : ∀ x ∈ s.dev.mc.changes, ¬ (x.insert = true ∧ x.index = c.index)) (hst : (s.dev.site c.spare).st = .spare)
    (hfetched : (s.dev.site c.spare).fetched = true) (hown : ownersAgree s.dev c.index c.spare = true) : insertTen s p = stage s c := by
  subst hc
  have hvacant : ¬ ((s.dev.siteOf (changeOf s.dev p true).index).isSome &&
      !s.dev.mc.changes.any (fun x => !x.insert && x.kind == 1 && x.index == (changeOf s.dev p true).index)) = true := by
    rcases hfree with h | h
    · simp [h]
    · simpa [and_assoc] using fun _ => h
  calc insertTen s p
    _ = _ := if_neg (by simp [hkind, hv, hidx, hpanel, hsite])
    _ = _ := if_neg hvacant
    _ = _ := if_neg (by simpa using hnew)
    _ = stage s (changeOf s.dev p true) := if_neg (by simp [hst, hfetched, hown])

/-- Every check that an INSERT does not pass ends it with BAD_PARAM. -/
theorem insertTen_of_misfit (h : c.kind ≠ 1 ∨ indexExists s.dev c.index = false ∨ (s.dev.site c.spare).st ≠ .spare ∨
    (s.dev.site c.spare).fetched = false ∨ ownersAgree s.dev c.index c.spare = false) : insertTen s p = .fail s .badParam := by
  subst hc
  unfold insertTen
  dsimp only
  split
  · rfl
  · next hform =>
    obtain ⟨hkind, hidx⟩ : (changeOf s.dev p true).kind = 1 ∧ indexExists s.dev (changeOf s.dev p true).index = true := by
      simp at hform
      tauto
    split
    · rfl
    · split
      · rfl
      · exact if_pos (by simpa [hkind, hidx, or_assoc] using h)

end

end Sys2Proof.Machine

namespace Sys2Proof

open Machine

/-- Settles O13: step 10 of each packet by the lemma above on its kind, carried out by `acceptRow`. -/
theorem spareHealthSpdmResumeComplete : Obligations.SpareHealthSpdmResumeComplete := by
  refine ⟨?core, ?corePending, ?line, ?range, ?lane, ?module, ?malformed, ?insert, ?misfit, ?health, ?spdm, ?resume, ?restarting⟩
  case core =>
    intro q s s1 p k hten hm hkind hv hk hnew
    have hstage : semRetire.exec s1 p = _ :=
      exec_of_running rfl hm ((retireTen_of_kind hkind (by decide) (by decide) hv).trans (retireCore_of_new hk hnew))
    rw [changeOf_of_siteOf hk, hkind] at hstage
    exact congrArg Host.Outcome.next (acceptRow_of_stage hten hstage)
  case corePending =>
    intro q s s1 p k c hten hm hkind hv hk hc hins hck hidx
    exact congrArg Host.Outcome.next (acceptRow_of_done hten
      (exec_of_running rfl hm ((retireTen_of_kind hkind (by decide) (by decide) hv).trans (retireCore_of_pending hk hc hins hck hidx))))
  case line =>
    intro q s s1 p row k gone hten hm hkind hv hk hn hgone
    have hline : semRetire.exec s1 p = retireLineOf s1 p row := by
      cases row <;> exact exec_of_running rfl hm (retireTen_of_kind hkind (by decide) (by decide) hv)
    rw [retireLineOf_of_site hk hn, ← hgone] at hline
    refine congrArg Host.Outcome.next ?_
    split
    · next hmem => exact acceptRow_of_done hten (hline.trans (if_pos hmem))
    · next hmem =>
      rw [if_neg hmem] at hline
      split
      · next hlen => exact acceptRow_of_fail hten (hline.trans (if_pos hlen))
      · next hlen =>
        rw [if_neg hlen, changeOf_of_siteOf hk, hkind] at hline
        exact acceptRow_of_stage hten hline
  case range =>
    intro q s s1 p v key hten hm hkind hv hvm hkey hpanel hport halign haddr hnew
    subst hv hkey
    have hrange : semRetire.exec s1 p = _ := exec_of_running rfl hm (retireTen_of_kind hkind (by decide) (by decide) hvm)
    refine congrArg Host.Outcome.next ?_
    cases hslot : freeSlot s1.params (s1.dev.port (rangeKey (p.b 1))) (rangeCoarse (p.b 1)) with
    | some i => exact acceptRow_of_later hten (hrange.trans (retireRange_of_slot hpanel hport halign haddr hnew hslot))
    | none => exact acceptRow_of_fail hten (hrange.trans (retireRange_of_noSlot hpanel hport halign haddr hnew hslot))
  case lane =>
    intro q s s1 p l up m j x hten hm hkind hv hl hup hmod hj hx hlinks hmods hlanes hformed hout hbad hrep
    subst hl hup hmod hj hx
    have hlane := acceptRow_of_linkTen hten (exec_of_running rfl hm ((retireTen_of_kind hkind (by decide) (by decide) hv).trans
      (retireLink_of_lane hlinks hmods hformed hout hrep hlanes hbad)))
    refine congrArg Host.Outcome.next (hlane.trans ?_)
    obtain ⟨d, begun⟩ := startLane _ _ _ _ _ _
    cases begun <;> rfl
  case module =>
    intro q s s1 p l up m x hten hm hkind hv hl hup hmod hx hlinks hmods hformed hout husable hrep
    subst hl hup hmod hx
    exact congrArg Host.Outcome.next (acceptRow_of_later hten (exec_of_running rfl hm ((retireTen_of_kind hkind (by decide) (by decide) hv).trans
      (retireLink_of_module hlinks hmods hformed hout hrep husable))))
  case malformed =>
    intro q s s1 p k hten hm hk h
    refine congrArg Host.Outcome.next (acceptRow_of_fail hten (exec_of_running rfl hm ?_))
    by_cases hbad : k < 1 ∨ 6 < k ∨ p.b 1 &&& ~~~identMask false k ≠ 0
    · exact retireTen_of_malformed hk hbad
    · obtain ⟨h1, h3, hvac⟩ : 1 ≤ k ∧ k ≤ 3 ∧ s1.dev.siteOf (fld (p.b 1) 9 0) = none := by tauto
      exact retireTen_of_vacant hk h1 h3 (by tauto) hvac
  case insert =>
    intro q s s1 p c hten hm hc hkind hv hidx hpanel hsite hfree hnew hst hfetched hown
    exact congrArg Host.Outcome.next (acceptRow_of_stage hten (exec_of_running rfl hm
      (insertTen_of_fits hc hkind hv hidx hpanel hsite hfree hnew hst hfetched hown)))
  case misfit =>
    intro q s s1 p c hten hm hc h
    exact congrArg Host.Outcome.next (acceptRow_of_fail hten (exec_of_running rfl hm (insertTen_of_misfit hc h)))
  case health =>
    intro q s s1 p hten hm
    exact congrArg Host.Outcome.next (acceptRow_of_done hten (exec_of_running rfl hm rfl))
  case spdm =>
    intro q s s1 p hten hm
    exact congrArg Host.Outcome.next (acceptRow_of_later hten (exec_of_running rfl hm rfl))
  case resume =>
    intro q s s1 p hten
    exact congrArg Host.Outcome.next (acceptRow_of_done hten rfl)
  case restarting =>
    intro q s s1 p hm
    exact ⟨fun hten => congrArg Host.Outcome.next (acceptRow_of_restarting rfl hten hm),
      fun hten => congrArg Host.Outcome.next (acceptRow_of_restarting rfl hten hm),
      fun hten => congrArg Host.Outcome.next (acceptRow_of_restarting rfl hten hm),
      fun hten => congrArg Host.Outcome.next (acceptRow_of_restarting rfl hten hm)⟩

end Sys2Proof
end

section
/-! Flits received on a link and the replacement of lanes in service (R502, R504, R527, R530, R532). -/

namespace Sys2Proof.Machine

variable {s : State} {d : Dev} {p : Params} {l m j : Nat} {up : Bool} {ws : List Word}

/-! ## Modifiers of a direction -/

theorem modDir_link_dir (d : Dev) (l : Nat) (up : Bool) (f : LinkDir → LinkDir) :
    ((modDir d l up f).link l).dir up = f ((d.link l).dir up) := by simp

theorem modDir_link_ne (h : l ≠ j) (f : LinkDir → LinkDir) : (modDir d j up f).link l = d.link l :=
  Dev.setLink_link_ne (h := h) ..

/-- Messages for other panels leave on a link of their own. -/
theorem otherLink_ne {panel : Nat} {u : Bool} (h : otherLink p l panel = some (j, u)) : l ≠ j := by
  obtain ⟨i, hi, hj⟩ := Option.map_eq_some_iff.mp h
  have hne := List.find?_some hi
  rintro rfl
  simp_all

/-! ## Flits (R530, R532) -/

@[simp] theorem countLanes_rxMseq (x : LinkDir) (m : Nat) (errs : List Nat) : (countLanes x m errs).rxMseq = x.rxMseq := by
  unfold countLanes
  dsimp only
  split <;> rfl

/-- The flits that leave in LSEQ order change neither the module's order nor its count of failures. -/
theorem inOrder_keeps (n : Nat) (x : LinkDir) : (inOrder n x).1.rxMseq = x.rxMseq ∧ (inOrder n x).1.fails = x.fails := by
  induction n generalizing x with
  | zero => exact ⟨rfl, rfl⟩
  | succ n ih =>
    unfold inOrder
    split
    · exact ⟨rfl, rfl⟩
    · exact ih _

/-- A DATA flit in its module's order moves that order on, and its failures end. -/
theorem takeData_inOrder (hseq : fMseq ws = Tbl.get 0 m ((d.link l).dir up).rxMseq) :
    (((takeData p d l up m ws).link l).dir up).rxMseq = Tbl.set m ((fMseq ws + 1) % 1024) ((d.link l).dir up).rxMseq ∧
    (((takeData p d l up m ws).link l).dir up).fails = Tbl.del m ((d.link l).dir up).fails := by
  unfold takeData
  rw [if_neg (by simp [hseq])]
  extract_lets x1
  have hkeep := inOrder_keeps x1.held.length x1
  generalize inOrder x1.held.length x1 = taken at hkeep
  obtain ⟨x2, ms⟩ := taken
  dsimp only
  split
  · next h => rwa [modDir_link_ne (otherLink_ne h), modDir_link_dir]
  · rwa [modDir_link_dir]

theorem takeFlit_of_outOfUse
    (h : (d.link l).formed = false ∨ (d.link l).lost = true ∨ d.boot.inReset = true ∨ m ∉ ((d.link l).dir up).inUse) :
    takeFlit p d l up m ws = d :=
  if_pos (by rcases h with h | h | h | h <;> simp [h])

section
variable (hformed : (d.link l).formed = true) (hlost : (d.link l).lost = false) (hr : d.boot.inReset = false)
  (hm : m ∈ ((d.link l).dir up).inUse)
include hformed hlost hr hm

/-- A flit that fails its checks is a mismatch; more than 16 failures in succession lose the link. -/
theorem takeFlit_of_bad {d1 d2 : Dev} (hgood : flitGood ws = false) (hd1 : d1 = modDir d l up (fun y => countLanes y m (parityErrs ws)))
    (hd2 : d2 = modDir d1 l up (fun y => mismatch y m true)) :
    takeFlit p d l up m ws = if 16 < Tbl.get 0 m ((d2.link l).dir up).fails then loseLink d2 l else d2 := by
  subst hd1 hd2
  rw [takeFlit, if_neg (by simp [hformed, hlost, hr, hm]), hgood]
  rfl

theorem takeFlit_of_data {d1 : Dev} (hgood : flitGood ws = true) (hd1 : d1 = modDir d l up (fun y => countLanes y m (parityErrs ws)))
    (htype : fType ws = 1) (hseq : fMseq ws = Tbl.get 0 m ((d1.link l).dir up).rxMseq) :
    takeFlit p d l up m ws = takeData p d1 l up m ws := by
  subst hd1
  have hkept : ¬ 16 < Tbl.get 0 m (((takeData p (modDir d l up (fun y => countLanes y m (parityErrs ws))) l up m ws).link l).dir up).fails := by
    simp only [(takeData_inOrder hseq).2, Tbl.get_del_self]
    decide
  rw [takeFlit, if_neg (by simp [hformed, hlost, hr, hm]), hgood, htype]
  exact if_neg hkept

/-! ## Replacements (R502, R503) -/

theorem laneRepair_of_worn (hrep : ((d.link l).dir up).repairing = none) (hworn : wornLane ((d.link l).dir up) m = some j)
    (hfree : (((d.link l).dir up).bad m).length < 4) :
    laneRepair d l up m false = modDir d l up (fun x => { x with repairing := some ⟨m, some j, none⟩ }) := by
  simp [laneRepair, hformed, hlost, hr, hrep, hm, hworn, startLane, hfree]

end

theorem laneRepairDone_of_idle (h : ((s.dev.link l).dir up).repairing = none) : laneRepairDone s l up = s := by
  simp only [laneRepairDone, h]

theorem laneRepairDone_of_unsettled {r : Repair} (h : ((s.dev.link l).dir up).repairing = some r)
    (hset : ((s.dev.link l).dir up).settled = false) : laneRepairDone s l up = s := by
  simp only [laneRepairDone, h]
  exact if_pos (by simp [hset])

theorem laneRepairDone_of_settled (h : ((s.dev.link l).dir up).repairing = some ⟨m, some j, none⟩)
    (hset : ((s.dev.link l).dir up).settled = true) : laneRepairDone s l up = s.upd (fun d =>
      cacheLink (linkRecord (modDir d l up (fun x => applyRepair x ⟨m, some j, none⟩)) 0 (idLane l up m j)) l) := by
  simp only [laneRepairDone, h]
  exact if_neg (by simp [hset])

end Sys2Proof.Machine

namespace Sys2Proof

open Machine

/-- Settles O50: a flit by its checks and its type, a good DATA flit by `takeData_inOrder`, and a replacement by whether one is under
way and settled. -/
theorem linkFlitsAndRepairs : Obligations.LinkFlitsAndRepairs := by
  refine ⟨?outOfUse, ?bad, ?data, ?worn, ?idle, ?unsettled, ?settled⟩
  case outOfUse => exact fun s l up m b h => congrArg (fun d => Host.Outcome.next (s.withDev d)) (takeFlit_of_outOfUse h)
  case bad =>
    intro s l up m b ws d1 d2 hformed hlost hr hm hws hgood hd1 hd2
    subst hws
    exact congrArg (fun d => Host.Outcome.next (s.withDev d)) (takeFlit_of_bad hformed hlost hr hm hgood hd1 hd2)
  case data =>
    intro s l up m b ws d1 hformed hlost hr hm hws hgood hd1 htype hseq
    have hseq1 : fMseq ws = Tbl.get 0 m ((d1.link l).dir up).rxMseq := by rw [hd1, modDir_link_dir, countLanes_rxMseq, hseq]
    constructor
    · subst hws
      exact congrArg (fun d => Host.Outcome.next (s.withDev d)) (takeFlit_of_data hformed hlost hr hm hgood hd1 htype hseq1)
    · rw [(takeData_inOrder hseq1).1, Tbl.get_set_self]
  case worn =>
    exact fun s l up m j hformed hlost hr hrep hm hworn hfree =>
      congrArg (fun d => Host.Outcome.next (s.withDev d)) (laneRepair_of_worn hformed hlost hr hm hrep hworn hfree)
  case idle => exact fun s l up h => congrArg Host.Outcome.next (laneRepairDone_of_idle h)
  case unsettled => exact fun s l up r h hset => congrArg Host.Outcome.next (laneRepairDone_of_unsettled h hset)
  case settled => exact fun s l up m j h hset => congrArg Host.Outcome.next (laneRepairDone_of_settled h hset)

end Sys2Proof
end

section
/-! The interrupt registers, and the message of a vector that is due (R432, R434, R515). -/

namespace Sys2Proof.Machine

variable {d : Dev} {f v : Nat}

theorem interruptSend_of_due (hs : d.inService = true) (hen : (d.fn f).intEn = true) (hv : v < 64) (hpend : bitOf (d.fn f).intPend v = true)
    (hmask : bitOf (d.fn f).intMask v = false) : interruptSend d f v =
      (d.modFn f (fun x => { x with intPend := x.intPend &&& ~~~(placeB true v) })).issue f 2 0 (leBytes 8 (v % 64)) (List.replicate 8 true) .msg :=
  if_pos (by simp [hs, hen, hv, hpend, hmask])

theorem interruptSend_of_quiet (h : (d.fn f).intEn = false ∨ bitOf (d.fn f).intPend v = false ∨ bitOf (d.fn f).intMask v = true) :
    interruptSend d f v = d := if_neg (by rcases h with h | h | h <;> simp [h])

end Sys2Proof.Machine

namespace Sys2Proof

open Machine

/-- Settles O24: each register lies in the interrupt configuration page, and a vector is sent when it is due. -/
theorem interruptRegistersAndMessages : Obligations.InterruptRegistersAndMessages := by
  refine ⟨?ctl, ?mask, ?pend, ?due, ?quiet⟩
  case ctl => exact fun s f v hw => congrArg Host.Outcome.next (writeReg_of_area hw rfl (a := .intr 0) rfl)
  case mask => exact fun s f v hw => congrArg Host.Outcome.next (writeReg_of_area hw rfl (a := .intr 8) rfl)
  case pend => exact fun s f v hw => congrArg Host.Outcome.next (writeReg_of_area hw rfl (a := .intr 16) rfl)
  case due =>
    exact fun s f v hs hen hv hpend hmask =>
      congrArg (fun d => Host.Outcome.next (s.withDev d)) (interruptSend_of_due hs hen hv hpend hmask)
  case quiet => exact fun s f v h => congrArg (fun d => Host.Outcome.next (s.withDev d)) (interruptSend_of_quiet h)

end Sys2Proof
end

section
/-! Power and the hour: the alert, the samples and the window that move the share of clock edges (R539 to R541), and the health window (R484). -/

namespace Sys2Proof.Machine

variable {d : Dev} {w : Nat}

/-! ## The alert and the share (R540, R541) -/

theorem mem_mark_true (i : Nat) (xs : List Nat) : i ∈ mark true i xs := by simp [mark]

theorem shareNow_of_alert (h : d.mc.alert = true) : shareNow d = min 16 d.mc.share := if_pos (by simp [h])

theorem nextShare_of_over {share sum count cap : Nat} (hc : 0 < count) (h : cap * count < sum) :
    nextShare share sum count cap = max 8 (share - 1) := by
  rw [nextShare, if_neg hc.ne', if_pos h]

theorem nextShare_of_under {share sum count cap : Nat} (hc : 0 < count) (h : 100 * sum < 95 * cap * count) :
    nextShare share sum count cap = min 32 (share + 1) := by
  rw [Nat.mul_assoc] at h
  rw [nextShare, if_neg hc.ne', if_neg (by omega), if_pos (by rwa [Nat.mul_assoc])]

section
variable (hs : d.inService = true)
include hs

theorem pkgSample_of_inService : pkgSample d w = { d with mc := { d.mc with
    pwrSum := d.mc.pwrSum + (if w % 65536 = 0xFFFF then d.opts.powerCap else w % 65536), pwrCount := d.mc.pwrCount + 1 } } :=
  if_neg (by simp [hs])

theorem powerWindow_of_inService : powerWindow d = { d with mc := { d.mc with
    share := nextShare d.mc.share d.mc.pwrSum d.mc.pwrCount d.opts.powerCap
    pwrSum := 0, pwrCount := 0, alert := !d.pins.alertLow.isEmpty } } := if_neg (by simp [hs])

/-! ## The health window (R484) -/

theorem healthWindow_of_inService : healthWindow d = { d with
    sites := Tbl.mapv (fun x => { x with ceWin := 0, rowCe := [], colCe := [] }) d.sites
    ports := Tbl.mapv (fun q => { q with ceWin := 0, unitCe := Tbl.mapv (fun _ => 0) q.unitCe }) d.ports
    links := Tbl.mapv (fun x => { x with replayWin := 0 }) d.links
    mc := { d.mc with windowStart := d.time, sent := [] } } := if_neg (by simp [hs])

theorem healthWindow_site (k : Nat) : (healthWindow d).site k = { d.site k with ceWin := 0, rowCe := [], colCe := [] } := by
  rw [healthWindow_of_inService hs]
  exact Tbl.get_mapv (fun x : Site => { x with ceWin := 0, rowCe := [], colCe := [] }) Site.zero k d.sites rfl

theorem healthWindow_port (k : Nat) : (healthWindow d).port k =
    { d.port k with ceWin := 0, unitCe := Tbl.mapv (fun _ => 0) (d.port k).unitCe } := by
  rw [healthWindow_of_inService hs]
  exact Tbl.get_mapv (fun q : StackPort => { q with ceWin := 0, unitCe := Tbl.mapv (fun _ => 0) q.unitCe }) StackPort.zero k d.ports rfl

end

end Sys2Proof.Machine

namespace Sys2Proof

open Machine

/-- Settles O35: the share by `shareNow_of_alert` and the two steps of `nextShare`, the counts by the restart of the window. -/
theorem powerAndHealthWindows : Obligations.PowerAndHealthWindows := by
  refine ⟨?assert, ?deassert, ?sample, ?capped, ?window, ?hour⟩
  case assert => exact fun s pl => ⟨_, rfl, mem_mark_true pl _, shareNow_of_alert rfl, rfl⟩
  case deassert => exact fun s pl => rfl
  case sample =>
    intro s w hs hw
    have hmod : w % 65536 = w := Nat.mod_eq_of_lt (by omega)
    have hsample := pkgSample_of_inService (w := w) hs
    rw [hmod, if_neg hw.ne] at hsample
    exact congrArg (fun d => Host.Outcome.next (s.withDev d)) hsample
  case capped => exact fun s hs => congrArg (fun d => Host.Outcome.next (s.withDev d)) (pkgSample_of_inService hs)
  case window =>
    intro s hs hc
    refine ⟨_, congrArg (fun d => Host.Outcome.next (s.withDev d)) (powerWindow_of_inService hs), fun h => nextShare_of_over hc h,
      fun h => nextShare_of_under hc h, ?_, rfl, rfl, rfl⟩
    exact Bool.not_eq_true' _ ▸ List.isEmpty_eq_false_iff_exists_mem
  case hour =>
    intro s hs
    have hwindow := healthWindow_of_inService hs
    exact ⟨_, rfl, congrArg (fun d => d.mc.windowStart) hwindow, congrArg (fun d => d.mc.sent) hwindow,
      fun k => (congrArg Site.ceWin (healthWindow_site hs k)).trans rfl, fun k => (congrArg Site.ceTotal (healthWindow_site hs k)).trans rfl,
      fun k => (congrArg StackPort.ceWin (healthWindow_port hs k)).trans rfl, rfl⟩

end Sys2Proof
end

section
/-! The test port of a panel (R543 to R545, R551). -/

namespace Sys2Proof.Machine

variable {p : Params} {d : Dev} {pl sel : Nat} {pins : List Bool} {si b : Bool}

/-! ## The test logic in reset -/

section
variable (hheld : testHeld d pl = true)
include hheld

theorem testCapture_of_held : testCapture p d pl sel pins = d := if_pos (by simp [hheld])
theorem testShift_of_held : testShift p d pl sel si = d := if_pos (by simp [hheld])
theorem testUpdate_of_held : testUpdate p d pl sel = d := if_pos (by simp [hheld])
theorem testMode_of_held : testMode p d pl b = d := if_pos (by simp [hheld])

end

/-! ## The test logic at work -/

theorem testReset_of_panel (hpl : pl < p.panels) :
    testReset p d pl b = d.setTest pl { (if b then (d.testPort pl).cleared else d.testPort pl) with trst := b } :=
  if_neg (Nat.not_le.mpr hpl)

section
variable (hpl : pl < p.panels) (hfree : testHeld d pl = false)
include hpl hfree

theorem testCapture_segment : testCapture p d pl 1 pins =
    (d.setTest pl { d.testPort pl with segment := (boundaryCapture p d pl pins).reverse }).draw := if_neg (by simp [hpl, hfree])

theorem testCapture_status : testCapture p d pl 3 pins = d.setTest pl { d.testPort pl with status := bistBits (d.testPort pl) } :=
  if_neg (by simp [hpl, hfree])

theorem testShift_segment {x : List Bool} (hx : x = stageOf (boundaryCells p pl) (d.testPort pl).segment) :
    testShift p d pl 1 si = d.setTest pl { d.testPort pl with segment := x.drop 1 ++ [si], so := x.headD false } := by
  subst hx
  exact if_neg (by simp [hpl, hfree])

theorem testShift_status {x : List Bool} (hx : x = stageOf 7680 (d.testPort pl).status) :
    testShift p d pl 3 si = d.setTest pl { d.testPort pl with status := x.drop 1 ++ [si], so := x.headD false } := by
  subst hx
  exact if_neg (by simp [hpl, hfree])

theorem testUpdate_segment {cells : List Bool} (hx : cells = (stageOf (boundaryCells p pl) (d.testPort pl).segment).reverse) :
    testUpdate p d pl 1 = d.setTest pl { d.testPort pl with
      latches := (List.range (boundaryCells p pl)).map (fun i => outputCell pl i && cells.getD i false) } := by
  subst hx
  exact if_neg (by simp [hpl, hfree])

/-- A mode that falls, or changes while the block is in reset, loses no link. -/
theorem testMode_of_quiet (h : b = false ∨ d.boot.inReset = true) : testMode p d pl b = d.setTest pl { d.testPort pl with mode := b } :=
  (if_neg (by simp [hpl, hfree])).trans (if_neg (by rcases h with h | h <;> simp [h]))

end

end Sys2Proof.Machine

namespace Sys2Proof

open Machine

/-- Settles O53: each event of the test port while its logic is at work, and none while it is in reset. -/
theorem testPortRegisters : Obligations.TestPortRegisters := by
  refine ⟨?capture, ?shift, ?shiftStatus, ?update, ?reset, ?release, ?modeOff, ?modeOn, ?captureStatus, ?held⟩
  case capture =>
    exact fun s pl pins hpl hfree => congrArg (fun d => Host.Outcome.next (s.withDev d)) (testCapture_segment hpl hfree)
  case shift =>
    exact fun s pl si x hpl hfree hx => congrArg (fun d => Host.Outcome.next (s.withDev d)) (testShift_segment hpl hfree hx)
  case shiftStatus =>
    exact fun s pl si x hpl hfree hx => congrArg (fun d => Host.Outcome.next (s.withDev d)) (testShift_status hpl hfree hx)
  case update =>
    exact fun s pl cells hpl hfree hx => congrArg (fun d => Host.Outcome.next (s.withDev d)) (testUpdate_segment hpl hfree hx)
  case reset => exact fun s pl hpl => congrArg (fun d => Host.Outcome.next (s.withDev d)) (testReset_of_panel hpl)
  case release => exact fun s pl hpl => congrArg (fun d => Host.Outcome.next (s.withDev d)) (testReset_of_panel hpl)
  case modeOff =>
    exact fun s pl hpl hfree => congrArg (fun d => Host.Outcome.next (s.withDev d)) (testMode_of_quiet hpl hfree (.inl rfl))
  case modeOn =>
    exact fun s pl hpl hfree hr => congrArg (fun d => Host.Outcome.next (s.withDev d)) (testMode_of_quiet hpl hfree (.inr hr))
  case captureStatus =>
    exact fun s pl pins hpl hfree => congrArg (fun d => Host.Outcome.next (s.withDev d)) (testCapture_status hpl hfree)
  case held =>
    intro s pl sel pins si hheld
    have keep : ∀ {d : Dev}, d = s.dev → (Host.Outcome.next (s.withDev d) : Out) = .next s := congrArg (fun d => Host.Outcome.next (s.withDev d))
    exact ⟨keep (testCapture_of_held hheld), keep (testShift_of_held hheld), keep (testUpdate_of_held hheld), keep (testMode_of_held hheld)⟩

end Sys2Proof
end

section
/-! The step: the command at the front of the queue, or one cycle when none waits. -/

namespace Sys2Proof.Machine

theorem step_of_front {c : Instr} {rest : List Instr} {s : State} : step { s with pending := c :: rest } = exec c { s with pending := rest } := rfl

end Sys2Proof.Machine

namespace Sys2Proof

open Machine

/-- Settles O54: by whether a command waits. -/
theorem stepRunsTheFrontCommand : Obligations.StepRunsTheFrontCommand :=
  ⟨fun _ _ _ => step_of_front, fun _ => step_of_idle⟩

end Sys2Proof
end
